-- ==== Sys2Proof/Word.lean ====
section
/-! DEFINITION. The words of the OX-128 and their plainest arithmetic (R3-R6, R57). -/
namespace Sys2Proof

/-- One byte of memory (R6). -/
abbrev Byte := BitVec 8
/-- A register-page word, a control word or a status word (R54, R84). -/
abbrev Word := BitVec 32
/-- A stack entry or a vector register (R57, R132). -/
abbrev Entry128 := BitVec 128
/-- A local address (R31). -/
abbrev Addr := BitVec 40

/-- A Bool as one bit of a word. -/
def bit (b : Bool) : Nat := if b then 1 else 0

end Sys2Proof
end

