-- ==== Sys2Proof/Syntax.lean ====
section
/-! DEFINITION. The commands of the OX-128: one constructor for each row of spec/opcode_table.json, with the
row's operands. `e` is an engine, `m` the number of the master that makes an access (R231), `p` a pair,
`n` the number of units or iterations performed before a boundary event stops a resumable command (R126, R131, R147). -/
namespace Sys2Proof

/-- Operand widths of R92: `.B`, `.H`, `.W`, `.D`, `.Q`. -/
inductive Width where
  | byte | half | word | dbl | quad
  deriving DecidableEq, Repr

/-- Sizes of a branch or call offset (R102, R103). -/
inductive OffSize where
  | s8 | s16 | s32
  deriving DecidableEq, Repr

/-- How the release logic's comparison of one item ended (R316): equal, or different at an output, an exception
entry or a Milestone digest, or a double fault on one engine only (R343, `LAST_MM.KIND` 0 to 3). -/
inductive Compare where
  | agree | output | exception | digest | doubleFault
  deriving DecidableEq, Repr

/-- The input pins that the row PIN moves: `rst_n`, `por_n` (R453), `fuse_prog_ok` (R460), `mir_hb_i` (R357) and the
`irq` of edge port `n` (R403). -/
inductive InPin where
  | rst | por | fuseProg | mirHb | edgeIrq (n : Nat)
  deriving DecidableEq, Repr

/-- A pin and the level that it goes to. -/
structure PinLevel where
  pin : InPin
  low : Bool
  deriving DecidableEq, Repr

/-- A turn of a mover channel on a path (R290): the channel and the beats it is carried. -/
structure BurstTurn where
  ch    : Nat
  beats : Nat
  deriving DecidableEq, Repr

/-- A lane whose `sig_det` rises, and whether `rx_lock` rises with it (R381). -/
structure LaneSignal where
  k    : Nat
  lock : Bool
  deriving DecidableEq, Repr

/-- A slot and the place of its first bit on its sublane (R378). -/
structure PlacedSlot where
  pos  : Nat
  slot : BitVec 257
  deriving DecidableEq, Repr

/-- A counter unit of R493: an engine, the mover or the switch. -/
inductive CounterUnit where
  | engine (e : Nat) | mover | switch
  deriving DecidableEq, Repr

/-- One input entry of R329. -/
structure InEntry where
  spc  : Nat
  kind : BitVec 4
  aux  : BitVec 64
  data : BitVec 128
  deriving DecidableEq, Repr

/-- One release entry of R328. -/
structure RelEntry where
  seq    : Word
  cls    : BitVec 3
  digest : Word
  spc    : Word
  deriving DecidableEq, Repr

/-- The fields of a Talloth frame of R405 that the receiver acts on. -/
structure TalFrame where
  seq     : Word
  ack     : Word
  start   : Bool
  tag     : BitVec 16
  addr    : Addr
  width   : BitVec 4
  status  : BitVec 4
  len     : Nat
  payload : List Byte
  deriving DecidableEq, Repr

/-- The commands of the block. -/
inductive Instr where
  /-- `NOP` (R101). Does nothing for 1 st. -/
  | nop (e : Nat)
  /-- `DUP` (R101). Duplicates the top data-stack entry. -/
  | dup (e : Nat)
  /-- `DROP` (R101). Discards the top data-stack entry. -/
  | drop (e : Nat)
  /-- `SWAP` (R101). Exchanges the top two data-stack entries. -/
  | swap (e : Nat)
  /-- `OVER` (R101). Copies the second entry onto the top. -/
  | over (e : Nat)
  /-- `ROT` (R101). Rotates the third entry to the top. -/
  | rot (e : Nat)
  /-- `NIP` (R101). Removes the second data-stack entry. -/
  | nip (e : Nat)
  /-- `TUCK` (R101). Copies the top entry below the second. -/
  | tuck (e : Nat)
  /-- `TO_R` (R101). Moves the top data-stack entry to the return stack. -/
  | toR (e : Nat)
  /-- `R_FROM` (R101). Moves the top return-stack entry to the data stack. -/
  | rFrom (e : Nat)
  /-- `R_FETCH` (R101). Copies the top return-stack entry to the data stack. -/
  | rFetch (e : Nat)
  /-- `RDROP` (R101). Discards the top return-stack entry. -/
  | rdrop (e : Nat)
  /-- `TWO_DUP` (R101). Duplicates the top pair of entries. -/
  | twoDup (e : Nat)
  /-- `TWO_DROP` (R101). Discards the top pair of entries. -/
  | twoDrop (e : Nat)
  /-- `TWO_SWAP` (R101). Exchanges the top two pairs of entries. -/
  | twoSwap (e : Nat)
  /-- `TWO_OVER` (R101). Copies the second pair onto the top. -/
  | twoOver (e : Nat)
  /-- `ADD` (R101). Modular addition at the selected width. -/
  | add (e : Nat) (w : Option Width)
  /-- `SUB` (R101). Modular subtraction at the selected width. -/
  | sub (e : Nat) (w : Option Width)
  /-- `AND` (R101). Bitwise AND of two entries. -/
  | and (e : Nat) (w : Option Width)
  /-- `OR` (R101). Bitwise OR of two entries. -/
  | or (e : Nat) (w : Option Width)
  /-- `XOR` (R101). Bitwise XOR of two entries. -/
  | xor (e : Nat) (w : Option Width)
  /-- `NOT` (R101). Bitwise complement of the top entry. -/
  | not (e : Nat) (w : Option Width)
  /-- `NEG` (R107). Two's complement negation, OV on the most negative value. -/
  | neg (e : Nat) (w : Option Width)
  /-- `ABS` (R107). Absolute value, OV on the most negative value. -/
  | abs (e : Nat) (w : Option Width)
  /-- `SHL` (R107). Logical left shift by a stack amount. -/
  | shl (e : Nat) (w : Option Width)
  /-- `SHR` (R107). Logical right shift by a stack amount. -/
  | shr (e : Nat) (w : Option Width)
  /-- `SAR` (R107). Arithmetic right shift by a stack amount. -/
  | sar (e : Nat) (w : Option Width)
  /-- `ROL` (R107). Rotate left modulo width. -/
  | rol (e : Nat) (w : Option Width)
  /-- `ROR` (R107). Rotate right modulo width. -/
  | ror (e : Nat) (w : Option Width)
  /-- `MUL` (R101). Low half of a product, modular. -/
  | mul (e : Nat) (w : Option Width)
  /-- `MULH` (R101). High half of the signed product. -/
  | mulh (e : Nat) (w : Option Width)
  /-- `MULHU` (R101). High half of the unsigned product. -/
  | mulhu (e : Nat) (w : Option Width)
  /-- `DIV` (R107). Signed division truncating toward zero, with fixed edge results. -/
  | div (e : Nat) (w : Option Width)
  /-- `DIVU` (R107). Unsigned division. -/
  | divu (e : Nat) (w : Option Width)
  /-- `REM` (R107). Signed remainder with the sign of the dividend. -/
  | rem (e : Nat) (w : Option Width)
  /-- `REMU` (R107). Unsigned remainder. -/
  | remu (e : Nat) (w : Option Width)
  /-- `DIVREM` (R107). Signed quotient and remainder together. -/
  | divrem (e : Nat) (w : Option Width)
  /-- `ADDS` (R107). Signed saturating addition, OV on saturation. -/
  | adds (e : Nat) (w : Option Width)
  /-- `SUBS` (R107). Signed saturating subtraction, OV on saturation. -/
  | subs (e : Nat) (w : Option Width)
  /-- `MIN` (R101). Signed minimum. -/
  | min (e : Nat) (w : Option Width)
  /-- `MAX` (R101). Signed maximum. -/
  | max (e : Nat) (w : Option Width)
  /-- `MINU` (R101). Unsigned minimum. -/
  | minu (e : Nat) (w : Option Width)
  /-- `MAXU` (R101). Unsigned maximum. -/
  | maxu (e : Nat) (w : Option Width)
  /-- `CLZ` (R101). Counts leading zeros. -/
  | clz (e : Nat) (w : Option Width)
  /-- `CTZ` (R101). Counts trailing zeros. -/
  | ctz (e : Nat) (w : Option Width)
  /-- `POPC` (R101). Counts set bits. -/
  | popc (e : Nat) (w : Option Width)
  /-- `SEXT` (R101). Sign-extends from bit w-1. -/
  | sext (e : Nat) (w : Option Width)
  /-- `ZEXT` (R101). Zero-extends from bit w-1. -/
  | zext (e : Nat) (w : Option Width)
  /-- `MULQ15` (R108). Rounded saturating Q15 multiply. -/
  | mulq15 (e : Nat)
  /-- `MULQ31` (R108). Rounded saturating Q31 multiply. -/
  | mulq31 (e : Nat)
  /-- `EQ` (R98). Pushes all ones if equal, else zero. -/
  | eq (e : Nat) (w : Option Width)
  /-- `NE` (R98). Pushes all ones if not equal. -/
  | ne (e : Nat) (w : Option Width)
  /-- `LT` (R98). Signed less-than comparison. -/
  | lt (e : Nat) (w : Option Width)
  /-- `LE` (R98). Signed less-or-equal comparison. -/
  | le (e : Nat) (w : Option Width)
  /-- `LTU` (R98). Unsigned less-than comparison. -/
  | ltu (e : Nat) (w : Option Width)
  /-- `LEU` (R98). Unsigned less-or-equal comparison. -/
  | leu (e : Nat) (w : Option Width)
  /-- `SEL` (R98). Selects one of two entries by a flag. -/
  | sel (e : Nat)
  /-- `CLAMP` (R101). Clamps a value between signed bounds, hi winning. -/
  | clamp (e : Nat) (w : Option Width)
  /-- `LD` (R113). Zero-extending load of width B to Q after the checks of R113. -/
  | ld (e : Nat) (w : Width)
  /-- `LDS` (R113). Sign-extending load after the checks of R113. -/
  | lds (e : Nat) (w : Width)
  /-- `ST` (R113). Store of the low w bits after the checks of R113. -/
  | st (e : Nat) (w : Width)
  /-- `FENCE` (R114). Waits until all earlier stores and atomics are performed and visible. -/
  | fence (e : Nat)
  /-- `CAS` (R116). Indivisible compare-and-swap returning the old value. -/
  | cas (e : Nat) (w : Option Width)
  /-- `SWAPM` (R116). Indivisible exchange with memory. -/
  | swapm (e : Nat) (w : Option Width)
  /-- `ADDM` (R116). Indivisible modular add to memory. -/
  | addm (e : Nat) (w : Option Width)
  /-- `RET` (R117). Returns to the address on the return stack. -/
  | ret (e : Nat)
  /-- `JMPS` (R117). Jumps to an address from the data stack. -/
  | jmps (e : Nat)
  /-- `CALLS` (R117). Calls an address from the data stack. -/
  | calls (e : Nat)
  /-- `BREAK` (R118). Raises the BREAK exception. -/
  | breakpt (e : Nat)
  /-- `DUTY` (R123). Commits a compare value to a granted leg through the release logic. -/
  | duty (e : Nat)
  /-- `MOVB` (R129). Resumable block copy of up to 4096 bytes unit by unit. -/
  | movb (e : Nat) (n : Nat)
  /-- `LIT8` (R102). Pushes a sign-extended 8-bit literal. -/
  | lit8 (e : Nat) (s8 : BitVec 8) (lxh : Bool)
  /-- `PICK` (R102). Copies entry n to the top. -/
  | pick (e : Nat) (n8 : BitVec 8)
  /-- `ADDI` (R102). Adds a sign-extended immediate. -/
  | addi (e : Nat) (w : Option Width) (s8 : BitVec 8)
  /-- `SHLI` (R107). Logical left shift by an immediate. -/
  | shli (e : Nat) (w : Option Width) (u8 : BitVec 8)
  /-- `SHRI` (R107). Logical right shift by an immediate. -/
  | shri (e : Nat) (w : Option Width) (u8 : BitVec 8)
  /-- `SARI` (R107). Arithmetic right shift by an immediate. -/
  | sari (e : Nat) (w : Option Width) (u8 : BitVec 8)
  /-- `ROLI` (R107). Rotate left by an immediate. -/
  | roli (e : Nat) (w : Option Width) (u8 : BitVec 8)
  /-- `SYSCALL` (R118). Raises the SYSCALL exception with its u8 in INFO. -/
  | syscall (e : Nat) (u8 : BitVec 8)
  /-- `BR` (R117). Unconditional relative branch. -/
  | br (e : Nat) (size : OffSize) (off : BitVec 32)
  /-- `BZ` (R117). Branches when the flag is zero. -/
  | bz (e : Nat) (size : OffSize) (off : BitVec 32)
  /-- `BNZ` (R117). Branches when the flag is nonzero. -/
  | bnz (e : Nat) (size : OffSize) (off : BitVec 32)
  /-- `LIT16` (R103). Pushes a sign-extended 16-bit literal. -/
  | lit16 (e : Nat) (s16 : BitVec 16) (lxh : Bool)
  /-- `LIT32` (R104). Pushes a 32-bit literal, or 64-bit under LX, or sets the upper half under LXH. -/
  | lit32 (e : Nat) (val : BitVec 64) (lx : Bool) (lxh : Bool)
  /-- `CALL` (R103). Relative call pushing the return address. -/
  | call (e : Nat) (size : OffSize) (off : BitVec 32)
  /-- `CRD` (R83). Reads a control word onto the stack. -/
  | crd (e : Nat) (idx : BitVec 16)
  /-- `CWR` (R83). Writes a control word from the stack, some pending until SYNC. -/
  | cwr (e : Nat) (idx : BitVec 16)
  /-- `LDO` (R103). Zero-extending load at an offset. -/
  | ldo (e : Nat) (w : Option Width) (s16 : BitVec 16)
  /-- `LDOS` (R103). Sign-extending load at an offset. -/
  | ldos (e : Nat) (w : Option Width) (s16 : BitVec 16)
  /-- `STO` (R103). Store at an offset. -/
  | sto (e : Nat) (w : Option Width) (s16 : BitVec 16)
  /-- `REP` (R124). Executes the prefixed instruction LC times, resumable between iterations. -/
  | rep (e : Nat) (n : Nat) (body : Instr)
  /-- `SYNC` (R89). Applies pending control-word and region writes. -/
  | sync (e : Nat)
  /-- `SYNC_I` (R127). Discards and refreshes the fetch buffer. -/
  | syncI (e : Nat)
  /-- `SRET` (R119). Returns from a supervisor handler after checking the saved status. -/
  | sret (e : Nat)
  /-- `MRET` (R119). Returns from a machine handler after checking the saved status. -/
  | mret (e : Nat)
  /-- `EVDONE` (R208). Reports completion of the top router source and takes a tail-chain latch step. -/
  | evdone (e : Nat)
  /-- `WFE` (R120). Waits for the event flag or a time limit, pushing a status. -/
  | wfe (e : Nat)
  /-- `WFEX` (R120). Waits for the event flag, raising WAIT_TIMEOUT on time. -/
  | wfex (e : Nat)
  /-- `WAITT` (R120). Waits until the timebase reaches a target. -/
  | waitt (e : Nat)
  /-- `SEV` (R121). Sets the event flag of one task or every task of an engine. -/
  | sev (e : Nat)
  /-- `FADD` (R110). IEEE floating-point addition. -/
  | fadd (e : Nat) (w : Option Width)
  /-- `FSUB` (R110). IEEE floating-point subtraction. -/
  | fsub (e : Nat) (w : Option Width)
  /-- `FMUL` (R110). IEEE floating-point multiplication. -/
  | fmul (e : Nat) (w : Option Width)
  /-- `FDIV` (R110). IEEE floating-point division. -/
  | fdiv (e : Nat) (w : Option Width)
  /-- `FSQRT` (R110). IEEE floating-point square root. -/
  | fsqrt (e : Nat) (w : Option Width)
  /-- `FMA` (R110). Fused multiply-add with one rounding. -/
  | fma (e : Nat) (w : Option Width)
  /-- `FMIN` (R111). minimumNumber of two FP values. -/
  | fmin (e : Nat) (w : Option Width)
  /-- `FMAX` (R111). maximumNumber of two FP values. -/
  | fmax (e : Nat) (w : Option Width)
  /-- `FNEG` (R106). Flips the FP sign bit, no flags. -/
  | fneg (e : Nat) (w : Option Width)
  /-- `FABS` (R106). Clears the FP sign bit, no flags. -/
  | fabs (e : Nat) (w : Option Width)
  /-- `FEQ` (R111). Quiet FP equality comparison. -/
  | feq (e : Nat) (w : Option Width)
  /-- `FLT` (R111). Signalling FP less-than comparison. -/
  | flt (e : Nat) (w : Option Width)
  /-- `FLE` (R111). Signalling FP less-or-equal comparison. -/
  | fle (e : Nat) (w : Option Width)
  /-- `FCVT` (R112). Converts between FP and integer formats by a format byte. -/
  | fcvt (e : Nat) (fmt : BitVec 8)
  /-- `FCLASS` (R112). Pushes the class mask of an FP value. -/
  | fclass (e : Nat) (w : Option Width)
  /-- `VLD` (R143). Loads a vector Sheaf. -/
  | vld (e : Nat) (v q : BitVec 4)
  /-- `VLDP` (R143). Loads a Sheaf and advances the address. -/
  | vldp (e : Nat) (v q : BitVec 4)
  /-- `VST` (R143). Stores a vector Sheaf. -/
  | vst (e : Nat) (v q : BitVec 4)
  /-- `VSTP` (R143). Stores a Sheaf and advances the address. -/
  | vstp (e : Nat) (v q : BitVec 4)
  /-- `VLD2` (R144). Resumable two-field structure load. -/
  | vld2 (e : Nat) (v q : BitVec 4) (n : Nat)
  /-- `VLD3` (R144). Resumable three-field structure load. -/
  | vld3 (e : Nat) (v q : BitVec 4) (n : Nat)
  /-- `VLD4` (R144). Resumable four-field structure load. -/
  | vld4 (e : Nat) (v q : BitVec 4) (n : Nat)
  /-- `VGATHER` (R145). Resumable indexed element load. -/
  | vgather (e : Nat) (v q i : BitVec 4) (n : Nat)
  /-- `VSCATTER` (R145). Resumable indexed element store. -/
  | vscatter (e : Nat) (v q i : BitVec 4) (n : Nat)
  /-- `VADD` (R142). Element-wise modular add. -/
  | vadd (e : Nat) (d a b q : BitVec 4)
  /-- `VSUB` (R142). Element-wise modular subtract. -/
  | vsub (e : Nat) (d a b q : BitVec 4)
  /-- `VAND` (R142). Element-wise AND. -/
  | vand (e : Nat) (d a b q : BitVec 4)
  /-- `VOR` (R142). Element-wise OR. -/
  | vor (e : Nat) (d a b q : BitVec 4)
  /-- `VXOR` (R142). Element-wise XOR. -/
  | vxor (e : Nat) (d a b q : BitVec 4)
  /-- `VNOT` (R142). Element-wise complement. -/
  | vnot (e : Nat) (d a q : BitVec 4)
  /-- `VNEG` (R142). Element-wise negation. -/
  | vneg (e : Nat) (d a q : BitVec 4)
  /-- `VABS` (R142). Element-wise absolute value. -/
  | vabs (e : Nat) (d a q : BitVec 4)
  /-- `VMIN` (R142). Element-wise signed minimum. -/
  | vmin (e : Nat) (d a b q : BitVec 4)
  /-- `VMAX` (R142). Element-wise signed maximum. -/
  | vmax (e : Nat) (d a b q : BitVec 4)
  /-- `VMINU` (R142). Element-wise unsigned minimum. -/
  | vminu (e : Nat) (d a b q : BitVec 4)
  /-- `VMAXU` (R142). Element-wise unsigned maximum. -/
  | vmaxu (e : Nat) (d a b q : BitVec 4)
  /-- `VADDS` (R142). Element-wise signed saturating add. -/
  | vadds (e : Nat) (d a b q : BitVec 4)
  /-- `VSUBS` (R142). Element-wise signed saturating subtract. -/
  | vsubs (e : Nat) (d a b q : BitVec 4)
  /-- `VSHL` (R142). Element-wise left shift by elements of b. -/
  | vshl (e : Nat) (d a b q : BitVec 4)
  /-- `VSHR` (R142). Element-wise logical right shift by elements of b. -/
  | vshr (e : Nat) (d a b q : BitVec 4)
  /-- `VSAR` (R142). Element-wise arithmetic right shift by elements of b. -/
  | vsar (e : Nat) (d a b q : BitVec 4)
  /-- `VSHLI` (R142). Element-wise left shift by an immediate. -/
  | vshli (e : Nat) (d a q : BitVec 4) (sh : BitVec 8)
  /-- `VSHRI` (R142). Element-wise logical right shift by an immediate. -/
  | vshri (e : Nat) (d a q : BitVec 4) (sh : BitVec 8)
  /-- `VSARI` (R142). Element-wise arithmetic right shift by an immediate. -/
  | vsari (e : Nat) (d a q : BitVec 4) (sh : BitVec 8)
  /-- `VMOV` (R142). Copies a Sheaf. -/
  | vmov (e : Nat) (d a q : BitVec 4)
  /-- `VSEL` (R142). Predicated element selection between two Sheaves. -/
  | vsel (e : Nat) (d a b q : BitVec 4)
  /-- `VMUL` (R142). Element-wise low product. -/
  | vmul (e : Nat) (d a b q : BitVec 4)
  /-- `VMULH` (R142). Element-wise signed high product. -/
  | vmulh (e : Nat) (d a b q : BitVec 4)
  /-- `VMULQ` (R138). Element-wise Q15 or Q31 multiply. -/
  | vmulq (e : Nat) (d a b q : BitVec 4)
  /-- `VMAC` (R142). Element-wise modular multiply-accumulate. -/
  | vmac (e : Nat) (d a b q : BitVec 4)
  /-- `VFADD` (R138). Element-wise FP add. -/
  | vfadd (e : Nat) (d a b q : BitVec 4)
  /-- `VFSUB` (R138). Element-wise FP subtract. -/
  | vfsub (e : Nat) (d a b q : BitVec 4)
  /-- `VFMUL` (R138). Element-wise FP multiply. -/
  | vfmul (e : Nat) (d a b q : BitVec 4)
  /-- `VFMA` (R142). Element-wise fused multiply-add. -/
  | vfma (e : Nat) (d a b q : BitVec 4)
  /-- `VFNMA` (R142). Element-wise fused negated multiply-add. -/
  | vfnma (e : Nat) (d a b q : BitVec 4)
  /-- `VFDIV` (R142). Element-wise FP divide. -/
  | vfdiv (e : Nat) (d a b q : BitVec 4)
  /-- `VFSQRT` (R142). Element-wise FP square root. -/
  | vfsqrt (e : Nat) (d a q : BitVec 4)
  /-- `VFMIN` (R142). Element-wise FP minimum. -/
  | vfmin (e : Nat) (d a b q : BitVec 4)
  /-- `VFMAX` (R142). Element-wise FP maximum. -/
  | vfmax (e : Nat) (d a b q : BitVec 4)
  /-- `VFNEG` (R142). Element-wise FP sign flip. -/
  | vfneg (e : Nat) (d a q : BitVec 4)
  /-- `VFABS` (R142). Element-wise FP sign clear. -/
  | vfabs (e : Nat) (d a q : BitVec 4)
  /-- `VFCVTI` (R142). Element-wise FP to signed integer. -/
  | vfcvti (e : Nat) (d a q : BitVec 4)
  /-- `VFCVTF` (R142). Element-wise signed integer to FP. -/
  | vfcvtf (e : Nat) (d a q : BitVec 4)
  /-- `VCMPEQ` (R142). Element-wise equality into a predicate. -/
  | vcmpeq (e : Nat) (a b : BitVec 4) (pd : BitVec 3) (q : BitVec 4)
  /-- `VCMPLT` (R142). Element-wise signed less-than into a predicate. -/
  | vcmplt (e : Nat) (a b : BitVec 4) (pd : BitVec 3) (q : BitVec 4)
  /-- `VCMPLE` (R142). Element-wise signed less-or-equal into a predicate. -/
  | vcmple (e : Nat) (a b : BitVec 4) (pd : BitVec 3) (q : BitVec 4)
  /-- `VCMPLTU` (R142). Element-wise unsigned less-than into a predicate. -/
  | vcmpltu (e : Nat) (a b : BitVec 4) (pd : BitVec 3) (q : BitVec 4)
  /-- `VFCMPEQ` (R142). Element-wise quiet FP equality into a predicate. -/
  | vfcmpeq (e : Nat) (a b : BitVec 4) (pd : BitVec 3) (q : BitVec 4)
  /-- `VFCMPLT` (R142). Element-wise signalling FP less-than into a predicate. -/
  | vfcmplt (e : Nat) (a b : BitVec 4) (pd : BitVec 3) (q : BitVec 4)
  /-- `VFCMPLE` (R142). Element-wise signalling FP less-or-equal into a predicate. -/
  | vfcmple (e : Nat) (a b : BitVec 4) (pd : BitVec 3) (q : BitVec 4)
  /-- `VSPLAT` (R142). Writes a scalar into every active element. -/
  | vsplat (e : Nat) (v q : BitVec 4)
  /-- `VEXT` (R149). Pushes one element of a Sheaf. -/
  | vext (e : Nat) (v : BitVec 4)
  /-- `VINS` (R149). Writes one element of a Sheaf. -/
  | vins (e : Nat) (v : BitVec 4)
  /-- `VPERM` (R149). Permutes elements by an index Sheaf. -/
  | vperm (e : Nat) (d a b q : BitVec 4)
  /-- `VREDADD` (R149). Modular sum reduction of active elements. -/
  | vredadd (e : Nat) (a q : BitVec 4)
  /-- `VREDMIN` (R149). Signed minimum reduction. -/
  | vredmin (e : Nat) (a q : BitVec 4)
  /-- `VREDMAX` (R149). Signed maximum reduction. -/
  | vredmax (e : Nat) (a q : BitVec 4)
  /-- `VFREDADD` (R149). Ordered FP sum reduction. -/
  | vfredadd (e : Nat) (a q : BitVec 4)
  /-- `PAND` (R142). Predicate AND. -/
  | pand (e : Nat) (pd pa pb : BitVec 3)
  /-- `POR` (R142). Predicate OR. -/
  | por (e : Nat) (pd pa pb : BitVec 3)
  /-- `PXOR` (R142). Predicate XOR. -/
  | pxor (e : Nat) (pd pa pb : BitVec 3)
  /-- `PNOT` (R142). Predicate complement. -/
  | pnot (e : Nat) (pd pa : BitVec 3)
  /-- `PALL` (R142). Sets every bit of a predicate Sheaf. -/
  | pall (e : Nat) (pn : BitVec 3)
  /-- `PRD` (R142). Reads a predicate Sheaf onto the stack. -/
  | prd (e : Nat) (pn : BitVec 3)
  /-- `PWR` (R142). Writes a predicate Sheaf from the stack. -/
  | pwr (e : Nat) (pn : BitVec 3)
  /-- `PCNT` (R142). Counts active elements. -/
  | pcnt (e : Nat) (pn : BitVec 3)
  /-- `VWHILE` (R148). Sets a loop-tail predicate and pushes the remaining count. -/
  | vwhile (e : Nat) (pn : BitVec 3)
  /-- `ARITH` (R160). Report of a pending imprecise arithmetic trap at its report point. -/
  | arith (e : Nat)
  /-- `DISPATCH` (R177). Two-step switch to the Ready task of highest rank at a switch point. -/
  | dispatch (e : Nat)
  /-- `TIMED_WAKE` (R52). Timebase reaches a waiting task's target and the task becomes Ready. -/
  | timedWake (e : Nat) (t : Nat)
  /-- `BYPASS_ACCEPT` (R268). A bound task accepts a held sample, pushing the entry and taking bypass rank. -/
  | bypassAccept (port : Nat)
  /-- `EVT_SRC` (R197). An external source input changes level. -/
  | evtSrc (k : Nat) (level : Bool)
  /-- `ROUTER_SELECTION` (R202). At a latch step an engine selects its best pending candidate. -/
  | routerSelection (e : Nat)
  /-- `STORM_WINDOW` (R212). A storm window ends and commit counts return to zero. -/
  | stormWindow (win : Nat)
  /-- `PEND_SET` (R217). Sets a source's software pending bit. -/
  | pendSet (m : Nat) (val : BitVec 32)
  /-- `PEND_CLR` (R217). Clears a source's software pending bit. -/
  | pendClr (m : Nat) (val : BitVec 32)
  /-- `QUAR_RELEASE` (R213). W1C write releasing a quarantined source and zeroing its count. -/
  | quarRelease (m : Nat) (j : Nat) (val : BitVec 32)
  /-- `TASK_START` (R173). TASK_CMD START makes an Idle task Ready. -/
  | taskStart (m : Nat) (e : Nat)
  /-- `TASK_STOP` (R173). TASK_CMD STOP makes a task Idle. -/
  | taskStop (m : Nat) (e : Nat)
  /-- `TASK_HALT` (R173). TASK_CMD HALT makes a task Halted. -/
  | taskHalt (m : Nat) (e : Nat)
  /-- `TASK_RESUME` (R173). TASK_CMD RESUME makes a Halted task Ready. -/
  | taskResume (m : Nat) (e : Nat)
  /-- `CTX_READ` (R192). Copies a context item of an Idle or Halted task to the data registers. -/
  | ctxRead (m : Nat) (e : Nat)
  /-- `CTX_WRITE` (R192). Copies the data registers into a context item. -/
  | ctxWrite (m : Nat) (e : Nat)
  /-- `LVLMAP` (R191). Write of router level bindings, refusing invalid tasks. -/
  | lvlmap (m : Nat) (e : Nat) (j : Nat) (val : BitVec 32)
  /-- `BYPMAP` (R191). Write of sample port bindings, refusing invalid tasks. -/
  | bypmap (m : Nat) (e : Nat) (j : Nat) (val : BitVec 32)
  /-- `TB_CTRL_LOAD` (R50). Loads the timebase counter in Configure. -/
  | tbCtrlLoad (m : Nat)
  /-- `OFFSET_ADJ` (R49). Adds a signed slew request to the remaining slew. -/
  | offsetAdj (m : Nat) (val : BitVec 32)
  /-- `RATE_ADJ` (R48). Writes a clamped rate correction. -/
  | rateAdj (m : Nat) (val : BitVec 32)
  /-- `INC_WRITE` (R48). Writes INC_NS or INC_FRAC, refusing illegal increments or modes. -/
  | incWrite (m : Nat) (frac : Bool) (val : BitVec 32)
  /-- `TIME_LO` (R51). Read returning the counter low half and latching the high half per master. -/
  | timeLo (m : Nat)
  /-- `STEPMETER_WINDOW` (R43). At each microsecond boundary the step meter loads RATE and PACE. -/
  | stepmeterWindow (rate : BitVec 12) (pace : BitVec 3)
  /-- `TB_PPS` (R508). Timebase passes a multiple of 10^9 ns and pulses the PPS outputs. -/
  | tbPps
  /-- `TB_CLK_LOSS` (R503). No tb_refclk edge for 100 ns lowers tb_clk_ok. -/
  | tbClkLoss
  /-- `MODE_REQ_CONFIGURE` (R26). Requests Configure, accepted only as R21 allows. -/
  | modeReqConfigure (m : Nat)
  /-- `MODE_REQ_RUN` (R26). Requests the running mode R21 selects. -/
  | modeReqRun (m : Nat)
  /-- `MODE_REQ_SAFE_HOLD` (R26). Requests Safe Hold. -/
  | modeReqSafeHold (m : Nat)
  /-- `NODE_ID` (R29). Writes the fabric node ID, only in Configure. -/
  | nodeId (m : Nat) (val : BitVec 32)
  /-- `SUPPLY_REMOVED` (R21). Core supply loss takes the block to Off. -/
  | supplyRemoved
  /-- `PIN` (R453). rst_n low enters Reset. -/
  | pin (x : PinLevel)
  /-- `SUPPLY` (R440). pwr_core_ok or pwr_mem_ok low for 100 ns outside Sleep resets the block. -/
  | supply (core : Bool) (memOk : Bool)
  /-- `ZEROIZE` (R452). sec_zeroize high for 40 ns erases every key slot and resets. -/
  | zeroize
  /-- `RESET_RELEASE` (R453). Reset is released and fuse load and bank zeroing start. -/
  | resetRelease
  /-- `FUSE_READ` (R457). A fuse word read completes or fails. -/
  | fuseRead (word : Nat) (data : BitVec 32) (err : Bool)
  /-- `BOOT_BEGIN` (R455). Fuse load and zeroing complete and the boot ROM starts on P0. -/
  | bootBegin
  /-- `LOAD` (R461). Boot ROM takes a LOAD message, closes the staging area and starts verification. -/
  | load
  /-- `BAD_MSG` (R461). Boot ROM frees and answers a malformed IN message. -/
  | badMsg
  /-- `CANDIDATE_RESULT` (R463). Verification of a candidate completes and its result is posted. -/
  | candidateResult
  /-- `BOOT_TMO` (R464). Boot timeout elapses without an accepted candidate. -/
  | bootTmo
  /-- `FUSE_PROG` (R460). Programs bits of a fuse word in BLANK. -/
  | fuseProg (m : Nat) (val : BitVec 32)
  /-- `LC_ADV` (R460). Advances the lifecycle thermometer. -/
  | lcAdv (m : Nat) (val : BitVec 32)
  /-- `ARB_SET` (R460). Raises the fused anti-rollback count. -/
  | arbSet (m : Nat) (val : BitVec 32)
  /-- `FUSE_PROGRAM_DONE` (R457). A fuse program cycle completes or fails. -/
  | fuseProgramDone (err : Bool)
  /-- `RST_REQ` (R452). Soft reset by KEY 0x5A5A from PL 3. -/
  | rstReq (m : Nat) (val : BitVec 32)
  /-- `KEY_WRITE` (R470). Writes key and salt into a slot. -/
  | keyWrite (m : Nat)
  /-- `KEY_ERASE` (R470). Erases a slot. -/
  | keyErase (m : Nat)
  /-- `KEY_LOCK` (R470). Locks a slot until reset. -/
  | keyLock (m : Nat)
  /-- `DERIVE` (R470). Derives a slot key from the root key. -/
  | derive (m : Nat)
  /-- `ERASE_ALL` (R470). Erases every slot, locked ones included. -/
  | eraseAll (m : Nat)
  /-- `KEY_CMD_DONE` (R470). A key command completes and KDATA and KSALT are zeroed. -/
  | keyCmdDone
  /-- `HOST_READ` (R429). Host read request performed beat by beat as master 18. -/
  | hostRead (addr : BitVec 40) (beats : Nat) (tag : BitVec 6) (crc : BitVec 16)
  /-- `HOST_WRITE` (R429). Host write request performed beat by beat as master 18. -/
  | hostWrite (addr : BitVec 40) (beats : List (BitVec 128 × BitVec 16 × BitVec 16)) (tag : BitVec 6) (crc : BitVec 16)
  /-- `HP_PORT_RST` (R432). hp_port_rst_n low resets the port interface. -/
  | hpPortRst
  /-- `HP_HOLD` (R426). hp_hold_n low for 40 ns acts as the SAFE_HOLD command. -/
  | hpHold
  /-- `HCMD_NOP` (R433). Host command with no effect. -/
  | hcmdNop (arg : BitVec 28)
  /-- `HCMD_START` (R433). Enables a network service. -/
  | hcmdStart (svc : BitVec 4) (arg : BitVec 16)
  /-- `HCMD_STOP` (R433). Disables a network service. -/
  | hcmdStop (svc : BitVec 4) (arg : BitVec 16)
  /-- `QUERY` (R433). Reports service enables in HRES. -/
  | query (svc : BitVec 4) (arg : BitVec 16)
  /-- `HCMD_SAFE_HOLD` (R433). Host command entering Safe Hold. -/
  | hcmdSafeHold (arg : BitVec 16)
  /-- `HCMD_SLEEP` (R433). Host Sleep request to the power controller. -/
  | hcmdSleep (arg : BitVec 16)
  /-- `HCMD_TAKEOVER` (R433). Host-triggered mirror takeover on a follower. -/
  | hcmdTakeover (arg : BitVec 16)
  /-- `HCMD_RESET` (R433). Host reset request with ARG 0x5A5A. -/
  | hcmdReset (arg : BitVec 16)
  /-- `HCMD_DONE` (R432). A host command completes and sets HRES.DONE. -/
  | hcmdDone
  /-- `HRES_DONE_CLEAR` (R432). Host frees the command result. -/
  | hresDoneClear
  /-- `MB_INPOST` (R431). Host posts an IN mailbox message. -/
  | mbInpost (k : Nat) (len : BitVec 7)
  /-- `MB_IN_FREE` (R431). Firmware frees an IN buffer. -/
  | mbInFree (m : Nat) (k : Nat)
  /-- `MB_OUTPOST` (R431). Firmware posts an OUT mailbox message. -/
  | mbOutpost (m : Nat) (k : Nat) (len : BitVec 7)
  /-- `MB_OUT_TAKE` (R431). Host takes an OUT message. -/
  | mbOutTake (k : Nat)
  /-- `SLEEP_CMD` (R444). Machine-level Sleep request, refused or starting entry. -/
  | sleepCmd (m : Nat) (val : BitVec 32)
  /-- `SLEEP_COMMIT` (R445). Entry completes and the block enters Sleep. -/
  | sleepCommit
  /-- `ENTRY_TMO` (R445). Sleep entry abandoned for timeout. -/
  | entryTmo
  /-- `WAKE_EVENT` (R446). A qualifying wake event starts the fixed wake schedule. -/
  | wakeEvent (kind : Nat)
  /-- `WAKE_BANKS_ON` (R447). At 4.5 µs retained banks return to on and NET isolation lifts. -/
  | wakeBanksOn
  /-- `WAKE_POINT` (R447). At 6.0 µs the mode returns and engines issue. -/
  | wakePoint (ns : Nat)
  /-- `PWR_VACK` (R448). A late pwr_vack resumes the wake schedule. -/
  | pwrVack (level : Bool)
  /-- `PWR_DROOP` (R443). A droop input change raises the pacing level. -/
  | pwrDroop (code : BitVec 4)
  /-- `DROOP_HOLD` (R443). A droop level falls after 50 ns deasserted. -/
  | droopHold (k : Nat)
  /-- `PWR_CAP` (R443). The integrator's pacing floor input changes. -/
  | pwrCap (cap : BitVec 2)
  /-- `TJ_WARN` (R449). pwr_tj_warn changes and sets its event. -/
  | tjWarn (level : Bool)
  /-- `TJ_CRIT` (R449). pwr_tj_crit changes and sets its event. -/
  | tjCrit (level : Bool)
  /-- `BANK_PWR` (R239). Requests a bank power state, judged against its future state. -/
  | bankPwr (m : Nat) (j : Nat) (val : BitVec 32)
  /-- `BANK_TRANSITION_START` (R241). A deferred bank transition begins after bursts drain. -/
  | bankTransitionStart (bank : Nat)
  /-- `PWR_DONE` (R239). A bank power transition ends. -/
  | pwrDone (bank : Nat)
  /-- `ECC_WRITE_BACK` (R235). A corrected word is written back in an idle slot. -/
  | eccWriteBack (addr : Nat)
  /-- `SPARE_COPY_DONE` (R237). A spare takes over a retired bank's addresses. -/
  | spareCopyDone (k : Nat)
  /-- `COLLIDE_VALID_CLEAR` (R244). Clears the collision record. -/
  | collideValidClear (m : Nat) (val : BitVec 32)
  /-- `PERIOD_START` (R251). A group period starts, steered to the timebase grid, with update point. -/
  | periodStart (g : Nat) (late : BitVec 3)
  /-- `PERIOD_TOP` (R250). Centre-mode top, an update point under UPD HALF. -/
  | periodTop (g : Nat) (late : BitVec 3)
  /-- `SWITCHING_EDGE` (R252). The switching signal of a leg rises or falls at its compare position. -/
  | switchingEdge (leg : Nat) (rise : Bool)
  /-- `DEAD_TIME` (R253). An output turns on after s has held for DT ticks. -/
  | deadTime (leg : Nat) (high : Bool)
  /-- `TRIG` (R254). drv_trig pulses at its coarse position. -/
  | trig (g : Nat)
  /-- `WDOG` (R259). A group without commits for n periods enters SAFE. -/
  | wdog (g : Nat)
  /-- `CLK` (R261). No drv_refclk edge for 10 ns puts enabled groups in SAFE. -/
  | clk
  /-- `DRV_REFCLK_RETURN` (R251). drv_refclk returns and groups re-establish their grid. -/
  | drvRefclkReturn
  /-- `GCTRL` (R280). Group control write: enable, mode, grant, SAFE_REQ, refusals. -/
  | gctrl (m : Nat) (g : Nat) (val : BitVec 32)
  /-- `GSTAT_CLEAR` (R261). W1C of WDOG or CLK releasing that safe cause. -/
  | gstatClear (m : Nat) (g : Nat) (val : BitVec 32)
  /-- `TRIP` (R262). A filtered trip assertion latches and forces groups safe. -/
  | trip (k : Nat)
  /-- `TLATCH_CLEAR` (R263). W1C clearing a trip latch if the input is deasserted. -/
  | tlatchClear (m : Nat) (val : BitVec 32)
  /-- `SAMPLE_TRANSFER` (R266). A four-phase sample handshake captures or discards a sample. -/
  | sampleTransfer (port : Nat) (data : BitVec 16) (tag : BitVec 4) (rise : Bool)
  /-- `SAMPLE_PORT_STUCK` (R337). sp_req high 4 µs after ack retires the port. -/
  | samplePortStuck (port : Nat)
  /-- `ENC_EDGE` (R277). A filtered quadrature edge updates the encoder position. -/
  | encEdge (k : Nat) (a : Bool) (b : Bool)
  /-- `ENC_INDEX` (R277). An enc_z rise records and optionally resets the position. -/
  | encIndex (k : Nat)
  /-- `CAPTURE_EDGE` (R278). A filtered capture edge is stamped into the FIFO. -/
  | captureEdge (c : Nat) (rise : Bool)
  /-- `POP` (R278). Removes the oldest capture stamp. -/
  | pop (m : Nat) (c : Nat)
  /-- `CLR_OVF` (R283). Clears a capture overflow flag. -/
  | clrOvf (m : Nat) (c : Nat)
  /-- `CHANNEL_START` (R302). Loads the descriptor at DESC and runs the channel. -/
  | channelStart (m : Nat) (ch : Nat)
  /-- `CHANNEL_STOP` (R302). Stops a channel at the next beat boundary. -/
  | channelStop (m : Nat) (ch : Nat)
  /-- `CHANNEL_RESUME` (R302). Retries the failing beat of a halted channel. -/
  | channelResume (m : Nat) (ch : Nat)
  /-- `APPEND` (R299). Doorbell arming a LINK re-read or reloading an ended chain. -/
  | append (m : Nat) (ch : Nat) (val : BitVec 32)
  /-- `DESCRIPTOR_LOAD` (R286). Reads and checks a descriptor's first 32 bytes. -/
  | descriptorLoad (ch : Nat)
  /-- `MOVER_BURST` (R290). A path carries a burst's read then write beats. -/
  | moverBurst (x : BurstTurn)
  /-- `LINK_READ` (R297). At a descriptor's finish, the LINK word is read and followed. -/
  | linkRead (ch : Nat)
  /-- `OUTPUT_RELEASE` (R318). Release logic compares and releases a pair's output in program order. -/
  | outputRelease (p : Nat) (cmp : Compare)
  /-- `COMPARE_WATCHDOG` (R319). A compare incomplete for 4 µs is a permanent pair fault. -/
  | compareWatchdog (p : Nat)
  /-- `ROLLBACK_DONE` (R331). Rollback completes and replay begins. -/
  | rollbackDone (p : Nat)
  /-- `RESUMED` (R333). Replay reaches the detection point and outputs reopen. -/
  | resumed (p : Nat) (ns : Nat)
  /-- `MILESTONE_POINT` (R322). A trigger takes a Milestone point at a switch point. -/
  | milestonePoint (p : Nat)
  /-- `MILESTONE_COMMIT` (R324). A point's image is written and digests agree. -/
  | milestoneCommit (p : Nat) (agree : Bool)
  /-- `TAKE` (R322). MS_CMD TAKE asks a pair to take a point. -/
  | take (m : Nat) (p : Nat)
  /-- `MCFG` (R347). Mirror configuration write, only in Configure. -/
  | mcfg (m : Nat) (val : BitVec 32)
  /-- `HELLO` (R348). Peer HELLO record compared for role and digest. -/
  | hello (role : Bool) (ver : BitVec 32) (digest : BitVec 32)
  /-- `INPUT` (R353). Follower takes an input entry for replay. -/
  | input (p : Nat) (entry : InEntry)
  /-- `RELEASE` (R353). Follower takes a release entry to check regenerated outputs. -/
  | release (p : Nat) (entry : RelEntry)
  /-- `HORIZON` (R353). Follower learns it may replay up to an SPC. -/
  | horizon (p : Nat) (spc : Nat)
  /-- `MSMARK` (R353). Follower takes a point at the named SPC and checks its digest. -/
  | msmark (p : Nat) (spc : Nat) (count : BitVec 32) (tb : BitVec 64) (digest : BitVec 32)
  /-- `LINE` (R349). Follower loads an exclusive line during a join. -/
  | line (p : Nat) (addr : Nat) (data : List Byte)
  /-- `IMAGE` (R349). Follower loads 1 KiB of a committed image. -/
  | image (p : Nat) (off : Nat) (data : List Byte)
  /-- `TIME` (R356). Follower disciplines its timebase from the primary's time. -/
  | time (tb : BitVec 64)
  /-- `ACK` (R355). Primary updates a pair's lag from the follower's acknowledgement. -/
  | ack (p : Nat) (spc : Nat) (count : BitVec 32)
  /-- `RESYNC` (R354). Primary repeats the join for a divergent pair. -/
  | resync (p : Nat)
  /-- `HORIZON_SEND` (R351). Primary sends a HORIZON for a quiet pair each microsecond. -/
  | horizonSend (p : Nat)
  /-- `TIME_SEND` (R351). Primary sends a TIME record every 1 µs. -/
  | timeSend
  /-- `ACK_SEND` (R351). Follower sends an ACK every 1 µs. -/
  | ackSend
  /-- `HEARTBEAT` (R357). mir_hb_o toggles every 200 ns of timebase. -/
  | heartbeat
  /-- `MIR_FAIL` (R358). mir_fail_i_n low for 40 ns triggers a takeover. -/
  | mirFail
  /-- `HEARTBEAT_LOSS` (R358). No heartbeat edge for 1.0 µs, with or without frames. -/
  | heartbeatLoss (frames : Bool)
  /-- `TAKEOVER` (R359). MCMD TAKEOVER starts a takeover on a follower. -/
  | takeover (m : Nat)
  /-- `MCMD_RESYNC` (R366). Requests resynchronisation of all pairs. -/
  | mcmdResync (m : Nat)
  /-- `PAIR_LIVE` (R359). A pair finishes catch-up and continues live; the last makes the block primary. -/
  | pairLive (p : Nat) (ns : Nat)
  /-- `DEPOSED` (R362). A primary sees mir_tko_i and withholds outputs and requests Safe Hold. -/
  | deposed
  /-- `MIRROR_FRAME` (R388). A mirror frame is received, acknowledged, ordered or NAKed. -/
  | mirrorFrame (lane : Nat) (good : Bool) (frame : List Byte)
  /-- `FRAME_CLOSE` (R388). A mirror frame closes at 512 bytes or 50 ns and is sent. -/
  | frameClose (lane : Nat)
  /-- `ACK_ONLY` (R388). An idle 200 ns on a lane sends an ACK-only frame. -/
  | ackOnly (lane : Nat)
  /-- `MIRROR_RETRANSMIT` (R388). A frame unacknowledged for 4 µs is resent. -/
  | mirrorRetransmit (fseq : BitVec 32) (lane : Nat)
  /-- `LCTRL` (R391). Lane control write enabling attempts or refusing changes. -/
  | lctrl (m : Nat) (k : Nat) (val : BitVec 32)
  /-- `RETIRE` (R383). LCMD RETIRE retires the lane. -/
  | retire (m : Nat) (k : Nat)
  /-- `RELINK` (R390). LCMD RELINK restarts an attempt with zero failures. -/
  | relink (m : Nat) (k : Nat)
  /-- `PHY_RESET_DONE` (R381). phy_rst_n is raised after 1.0 µs low. -/
  | phyResetDone (k : Nat)
  /-- `TX_RDY` (R381). The PHY transmitter reports ready and training starts. -/
  | txRdy (k : Nat)
  /-- `TRAIN` (R380). A training exchange ends with DONE or FAILED. -/
  | train (k : Nat) (stat : BitVec 8)
  /-- `AM_RECEIVED` (R378). An alignment marker is matched, giving lock, deskew or UP. -/
  | amReceived (k : Nat) (sub : Nat) (x : PlacedSlot)
  /-- `ATTEMPT_TIMEOUT` (R381). An attempt not UP within ATT_MS fails, possibly losing the lane. -/
  | attemptTimeout (k : Nat)
  /-- `SIG_DET_LOSS` (R382). sig_det low for 1.0 µs takes the lane down. -/
  | sigDetLoss (k : Nat)
  /-- `PHY_STATUS_LOW` (R382). tx_rdy or rx_lock low takes the lane down. -/
  | phyStatusLow (k : Nat) (rxLock : Bool)
  /-- `CODEWORD_RECEIVED` (R376). A codeword is decoded, corrected or marked uncorrectable. -/
  | codewordReceived (k : Nat) (data : List (BitVec 10)) (parity : List (BitVec 10)) (mac : List (BitVec 66))
  /-- `PHY_IRQ` (R379). PHY attention sets the PHY event. -/
  | phyIrq (k : Nat) (level : Bool)
  /-- `FRAME_RECEIVE` (R395). A received frame is checked and classified to a service, CPU queue or forwarding. -/
  | frameReceive (port : Nat) (ts : BitVec 64) (err : Bool) (frame : List Byte)
  /-- `FRAME_TRANSMIT` (R394). A queued frame starts on an idle egress port with an open gate. -/
  | frameTransmit (port : Nat) (q : Nat) (ts : BitVec 64)
  /-- `CPU_TXPOST` (R397). Hands transmit descriptors up to a tail to a CPU queue. -/
  | cpuTxpost (m : Nat) (q : Nat) (val : BitVec 32)
  /-- `FDB_READ` (R411). Reads an FDB entry into the window. -/
  | fdbRead (m : Nat) (idx : BitVec 13)
  /-- `FDB_WRITE` (R411). Writes an FDB entry from the window. -/
  | fdbWrite (m : Nat) (idx : BitVec 13)
  /-- `FLUSH` (R411). Flushes FDB entries. -/
  | flush (m : Nat)
  /-- `VLAN_READ` (R411). Reads a VLAN entry. -/
  | vlanRead (m : Nat) (vid : BitVec 12)
  /-- `VLAN_WRITE` (R411). Writes a VLAN entry. -/
  | vlanWrite (m : Nat) (vid : BitVec 12)
  /-- `STRM_READ` (R400). Reads a stream table entry. -/
  | strmRead (m : Nat)
  /-- `STRM_WRITE` (R400). Writes a stream table entry. -/
  | strmWrite (m : Nat)
  /-- `SA_READ` (R401). Reads a MACsec SA entry. -/
  | saRead (m : Nat)
  /-- `SA_WRITE` (R401). Writes a MACsec SA entry. -/
  | saWrite (m : Nat)
  /-- `FDB_AGING` (R394). A learned FDB entry ages out. -/
  | fdbAging (idx : Nat)
  /-- `GATE_INTERVAL` (R399). A gate control list interval expires and the next entry applies. -/
  | gateInterval (port : Nat)
  /-- `OPER` (R399). Schedules a gate list swap. -/
  | oper (m : Nat) (port : Nat) (val : BitVec 32)
  /-- `GATE_LIST_SWAP` (R399). The new gate list takes over at a cycle start. -/
  | gateListSwap (port : Nat)
  /-- `SYNC_SEND` (R402). Grandmaster sends gPTP Sync at its interval. -/
  | syncSend (port : Nat)
  /-- `DOIP_ANNOUNCEMENT` (R409). DoIP vehicle announcement sent 500 ms apart after enable. -/
  | doipAnnouncement
  /-- `ECFG` (R403). Edge port configuration write, refusing reserved pairs. -/
  | ecfg (m : Nat) (n : Nat) (val : BitVec 32)
  /-- `EDGE_LINK` (R404). An edge PHY link input changes. -/
  | edgeLink (n : Nat) (level : Bool)
  /-- `EDGE_PORT_LOST` (R404). No edge clock edge for 1 ms with link high retires the port. -/
  | edgePortLost (n : Nat)
  /-- `FABRIC_READ` (R408). OP_CMD READ issues a Talloth read. -/
  | fabricRead (m : Nat) (e : Nat) (width : BitVec 4) (len : BitVec 4)
  /-- `FABRIC_WRITE` (R408). OP_CMD WRITE issues a Talloth write. -/
  | fabricWrite (m : Nat) (e : Nat) (width : BitVec 4) (len : BitVec 4)
  /-- `FABRIC_CAS` (R408). OP_CMD CAS issues a remote compare-and-swap. -/
  | fabricCas (m : Nat) (e : Nat) (width : BitVec 4) (len : BitVec 4)
  /-- `FABRIC_SWAP` (R408). OP_CMD SWAP issues a remote swap. -/
  | fabricSwap (m : Nat) (e : Nat) (width : BitVec 4) (len : BitVec 4)
  /-- `FABRIC_ADD` (R408). OP_CMD ADD issues a remote add. -/
  | fabricAdd (m : Nat) (e : Nat) (width : BitVec 4) (len : BitVec 4)
  /-- `FABRIC_DOORBELL` (R408). OP_CMD DOORBELL issues a remote doorbell. -/
  | fabricDoorbell (m : Nat) (e : Nat) (width : BitVec 4) (len : BitVec 4)
  /-- `TALLOTH_READ` (R406). Target performs a received READ and responds. -/
  | tallothRead (src : Nat) (hdr : TalFrame)
  /-- `TALLOTH_WRITE` (R406). Target performs a received WRITE and responds. -/
  | tallothWrite (src : Nat) (hdr : TalFrame)
  /-- `TALLOTH_CAS` (R406). Target performs a received CAS. -/
  | tallothCas (src : Nat) (hdr : TalFrame)
  /-- `TALLOTH_SWAP` (R406). Target performs a received SWAP. -/
  | tallothSwap (src : Nat) (hdr : TalFrame)
  /-- `TALLOTH_ADD` (R406). Target performs a received ADD. -/
  | tallothAdd (src : Nat) (hdr : TalFrame)
  /-- `DOORBELL` (R406). Target appends a doorbell value to DB_FIFO. -/
  | doorbell (src : Nat) (hdr : TalFrame)
  /-- `READ_RESP` (R406). Requester takes read data and completes. -/
  | readResp (src : Nat) (hdr : TalFrame)
  /-- `COMPLETE` (R406). Requester takes a write or doorbell completion. -/
  | complete (src : Nat) (hdr : TalFrame)
  /-- `ATOMIC_RESP` (R406). Requester takes an atomic's old value. -/
  | atomicResp (src : Nat) (hdr : TalFrame)
  /-- `TALLOTH_ACK` (R407). An ACK frees acknowledged frames. -/
  | tallothAck (src : Nat) (ack : BitVec 32) (start : Bool)
  /-- `TALLOTH_NAK` (R407). A NAK resends every unacknowledged frame. -/
  | tallothNak (src : Nat) (ack : BitVec 32)
  /-- `FAB_RTO` (R407). Retransmission timeout resends or ends operations with TIMEOUT. -/
  | fabRto (peer : Nat)
  /-- `FABRIC_ACK_SEND` (R407). Target acknowledges within 2 µs. -/
  | fabricAckSend (peer : Nat)
  /-- `DB_FIFO` (R406). Read popping the oldest doorbell value. -/
  | dbFifo (m : Nat)
  /-- `PEER_DOWN_CLEAR` (R411). W1C clears a peer's PEER_DOWN. -/
  | peerDownClear (m : Nat) (node : BitVec 9)
  /-- `MP_CTRL` (R413). Enables a memory channel and loads its credits. -/
  | mpCtrl (m : Nat) (val : BitVec 32)
  /-- `MP_REQUEST` (R413). Sends a request with its write units when credits allow. -/
  | mpRequest (c : Nat)
  /-- `CREDIT_RETURN` (R413). A credit pulse returns one credit. -/
  | creditReturn (c : Nat) (write : Bool)
  /-- `READ_RESPONSE` (R414). A read unit arrives and its CRC and status are checked. -/
  | readResponse (c : Nat) (tag : Nat) (sts : BitVec 2) (crc : BitVec 16) (data : List Byte)
  /-- `WRITE_ACK` (R420). A write acknowledge performs the write or reports an error. -/
  | writeAck (c : Nat) (tag : Nat) (sts : BitVec 2)
  /-- `MP_TMO` (R416). A request without response within MP_TMO is a channel error. -/
  | mpTmo (c : Nat) (tag : Nat)
  /-- `CTL_ERR` (R423). ctl_err loses the channel. -/
  | ctlErr (c : Nat)
  /-- `CTL_RDY_LOSS` (R423). ctl_rdy low 1 µs loses the channel. -/
  | ctlRdyLoss (c : Nat)
  /-- `IDCODE` (R475). TAP instruction returning the identification code. -/
  | idcode
  /-- `DBGACC` (R476). Starts one 32-bit debug access as master 20. -/
  | dbgacc (addr : BitVec 40) (write : Bool) (data : BitVec 32)
  /-- `DBGSTAT` (R475). TAP instruction returning debug status. -/
  | dbgstat
  /-- `BYPASS` (R475). TAP one-bit bypass instruction. -/
  | bypass
  /-- `DEBUG_ACCESS_DONE` (R476). A debug access completes with status and data. -/
  | debugAccessDone
  /-- `HALT_REQ` (R478). Requests a halt of engines. -/
  | haltReq (m : Nat) (val : BitVec 32)
  /-- `RESUME_REQ` (R480). Reopens halted engines. -/
  | resumeReq (m : Nat) (val : BitVec 32)
  /-- `STEP_REQ` (R481). Steps a halted engine's task to its next halt point. -/
  | stepReq (m : Nat) (val : BitVec 32)
  /-- `REFORM` (R489). Starts re-forming a broken twin. -/
  | reform (m : Nat) (p : Nat)
  /-- `REFORM_DONE` (R489). Re-forming completes and BROKEN clears. -/
  | reformDone (p : Nat)
  /-- `DEBUG_RESET` (R452). Debug RST_REQ from master 20 resets the block. -/
  | debugReset (val : BitVec 32)
  /-- `DBG_HALT_I` (R474). External halt request input. -/
  | dbgHaltI
  /-- `DBG_RESUME_I` (R474). External resume request input. -/
  | dbgResumeI
  /-- `DBG_SNAP_I` (R474). External snapshot of every counter unit. -/
  | dbgSnapI
  /-- `HALT` (R479). An engine reaches its halt point and stops. -/
  | halt (e : Nat)
  /-- `TRACE_WRITE` (R490). A trace record drains from the FIFO into the ring. -/
  | traceWrite
  /-- `SNAP` (R495). Copies a unit's counters to shadows. -/
  | snap (m : Nat) (u : CounterUnit)
  /-- `FREEZE` (R493). Holds a unit's counters. -/
  | freeze (m : Nat) (u : CounterUnit) (on : Bool)
  /-- `CLEAR` (R498). Sets every counter of a unit to 0. -/
  | clear (m : Nat) (u : CounterUnit)
  /-- `PM_GSNAP` (R495). Snapshots selected units in one step. -/
  | pmGsnap (m : Nat) (val : BitVec 32)
  /-- `TEST_MODE` (R510). tst_mode high acts as POR and enters test mode. -/
  | testMode
  /-- `TEST_MODE_EXIT` (R510). tst_mode falling is a POR. -/
  | testModeExit
  /-- `MBIST_GO` (R509). Starts the memory test of the selected array. -/
  | mbistGo (sel : BitVec 8)
  /-- `LOCK` (R532). Locks a register page with a key. -/
  | lock (m : Nat) (page : Nat) (key : BitVec 16)
  /-- `UNLOCK` (R532). Unlocks a page with the stored key. -/
  | unlock (m : Nat) (page : Nat) (key : BitVec 16)
  /-- `CNT_CLR` (R530). Clears every RC register of a page. -/
  | cntClr (m : Nat) (page : Nat)
  /-- `SET_ALIAS` (R526). Indivisible set of RW bits through the set alias. -/
  | setAlias (m : Nat) (page : Nat) (off : Nat) (val : BitVec 32)
  /-- `CLEAR_ALIAS` (R526). Indivisible clear of RW bits through the clear alias. -/
  | clearAlias (m : Nat) (page : Nat) (off : Nat) (val : BitVec 32)
  /-- `RC_READ` (R10). Read returning a counter and clearing it. -/
  | rcRead (m : Nat) (page : Nat) (off : Nat)
  /-- `REGISTER_WRITE` (R10). Write to a register with no row of its own. -/
  | registerWrite (m : Nat) (page : Nat) (off : Nat) (val : BitVec 32)
  /-- `SUPPLY_VALID` (R21). The core supply becomes valid with por_n low and the block leaves Off for Reset. -/
  | supplyValid
  /-- `TB_REFCLK_EDGE` (R48). At each tb_refclk rising edge the counter adds E plus any slew step. -/
  | tbRefclkEdge
  /-- `TRIP_DEASSERT` (R263). A filtered trip input deasserts, clearing its TLEVEL bit so the latch may be cleared. -/
  | tripDeassert (k : Nat)
  /-- `SIGNAL_PRESENT` (R381). sig_det and rx_lock rise and a waiting lane attempt proceeds past its step 5. -/
  | signalPresent (x : LaneSignal)
  /-- `AM_LOCK_LOST` (R378). The third consecutive expected marker fails to match, losing AM lock and taking the lane down. -/
  | amLockLost (k : Nat) (sub : Nat)
  /-- `HP_PORT_RST_RELEASE` (R430). hp_port_rst_n rises and the port accepts requests again, hp_rdy following its conditions. -/
  | hpPortRstRelease
  /-- `NO_MIRROR_FRAME` (R358). No mirror frame for 1.0 µs on a follower whose heartbeat still toggles retires both mirror lanes. -/
  | noMirrorFrame
  /-- `RECOVERY_RESET_TIMEOUT` (R400). An IEEE 802.1CB stream's recovery reset timeout RECTO expires and its recovery history resets. -/
  | recoveryResetTimeout (k : Nat)
  /-- `MBIST_DONE` (R509). The memory test started by tst_mbist_go completes and sets tst_mbist_done and tst_mbist_fail. -/
  | mbistDone (fail : Bool)
  deriving DecidableEq, Repr

end Sys2Proof
end

