-- ==== Sys2Proof/Config.lean ====
section
/-! DEFINITION. What an implementation fixes and the spec leaves open, and the free values: constants without a body, so that
nothing can be proved of their values. -/
namespace Sys2Proof.Config

/-- A free value: the `n`-th word whose value the spec leaves open. The state's counter `free` picks a fresh `n` each time. (DESIGN CHOICE, log 5). -/
opaque freeWord : Nat → BitVec 128

/-- Which quadrature direction counts up with `ENCCFG.DIR` = 0 (R277); the spec does not say: true where `enc_a` leads. (DESIGN CHOICE, log 11). -/
opaque encForward : Bool

/-- The credit grants that the integrator ties on a memory channel (R412). (DESIGN CHOICE, log 12). -/
opaque reqCrdMax : Nat → Nat
/-- (DESIGN CHOICE, log 12). -/
opaque wdCrdMax : Nat → Nat

/-- The contents of the boot ROM by offset (R31, R455); the spec does not list them. (DESIGN CHOICE, log 7). -/
opaque bootRom : Nat → Byte

/-- The egress queue of a priority code point on a port (R394): the spec names a map per port and no register that holds it. (DESIGN CHOICE, log 13). -/
opaque pcpQueue : Nat → Nat → Nat

/-- Does a fused multiply-add of zero and infinity with a quiet NaN addend signal invalid (IEEE 754-2019, 7.2, leaves it to the
implementation, and R110 does not say)? (DESIGN CHOICE, log 14). -/
opaque fmaNanInv : Bool

/-- SHA-384 of a byte string, as twelve 32-bit words (R458, R463). (DESIGN CHOICE, log 9). -/
opaque sha384 : List Byte → List Word

/-- ECDSA P-384 verification of a public key, a message digest and a signature (R463). (DESIGN CHOICE, log 9). -/
opaque ecdsaOk : List Byte → List Word → List Byte → Bool

/-- The key derivation of R470: base key, label data, the derived 256-bit key. (DESIGN CHOICE, log 9). -/
opaque derive : List Word → List Byte → List Word

/-- GCM-AES-256 protection of a MACsec frame (R401): the SecY's register and number, which fix the form, key, salt, short secure channel
identifier, packet number, clear frame; the protected frame. (DESIGN CHOICE, log 9). -/
opaque macsecSeal : Word → Nat → List Word → List Word → Word → BitVec 64 → List Byte → List Byte

/-- GCM-AES-256 verification of a MACsec frame (R401): the clear frame if the check value is right. (DESIGN CHOICE, log 9). -/
opaque macsecOpen : Word → Nat → List Word → List Word → Word → BitVec 64 → List Byte → Option (List Byte)

end Sys2Proof.Config
end

