-- ==== Sys2Proof/Machine/Regs.lean ====
section
/-! DEFINITION. The register map: where each register of the register pages stands, its access code, its writable bits, its
reset value and the reserved encodings of its fields (R10, R11, R525, R530, R535 and the register tables of the owning
chapters). A register is keyed by page number times 0x4000 plus its offset in the page. -/
namespace Sys2Proof.Machine

/-- Access codes of R10; `rwa` is an alias-capable RW register (R527), `ro` covers RO and W1C (the W1C bits are given apart). -/
inductive Acc where
  | ro | rw | rwa | wo | rc
  deriving DecidableEq, Repr

/-- One row of a register map: `n1` by `n2` registers at `off + s1*i + s2*j`. `bad` lists reserved encodings of a field as
lowest bit, width, first and last reserved value (R11). -/
structure RegRow where
  off   : Nat
  s1    : Nat
  n1    : Nat
  s2    : Nat
  n2    : Nat
  acc   : Acc
  mask  : Nat
  w1c   : Nat
  reset : Nat
  bad   : List (Nat × Nat × Nat × Nat) := []
  deriving DecidableEq, Repr

/-- Does the row hold a register at offset `o`? -/
def RegRow.has (r : RegRow) (o : Nat) : Bool :=
  if o < r.off then false
  else
    let d := o - r.off
    let i := if r.n1 = 1 then 0 else Nat.min (d / r.s1) (r.n1 - 1)
    let d' := d - i * r.s1
    if r.n2 = 1 then d' == 0 else decide (d' % r.s2 = 0) && decide (d' / r.s2 < r.n2)

/-- The key of the register at offset `o` of page `p`. -/
def regKey (p o : Nat) : Nat := p * 0x4000 + o

namespace Reg

/-! GLOBAL R24 -/
abbrev mode : Nat := 0x40
abbrev modeReq : Nat := 0x44
abbrev modeFlags : Nat := 0x48
abbrev blockVer : Nat := 0x4c
abbrev nodeId : Nat := 0x50

/-! POWER R450 -/
abbrev pcfg : Nat := 0x4040
abbrev sleepCmd : Nat := 0x4044
abbrev pwrStat : Nat := 0x4048
abbrev entryTmo : Nat := 0x404c
abbrev wakeAtLo : Nat := 0x4050
abbrev wakeAtHi : Nat := 0x4054
abbrev wakeLast : Nat := 0x4058
abbrev wakeNs : Nat := 0x405c
abbrev droopCnt (i : Nat) : Nat := 0x4060 + 0x4 * i
abbrev sleepCnt : Nat := 0x4070

/-! SAFETY R342 -/
abbrev pairCfg : Nat := 0x8040
abbrev twin : Nat := 0x8044
abbrev action : Nat := 0x8048
abbrev holdCause : Nat := 0x804c
abbrev lastMm : Nat := 0x8050
abbrev lastMmSeq : Nat := 0x8054
abbrev transCnt : Nat := 0x8058
abbrev blockedCnt : Nat := 0x805c
abbrev retNet : Nat := 0x8060
abbrev retSp : Nat := 0x8064

/-! MILESTONE R344 R346 -/
abbrev msCfg : Nat := 0xc040
abbrev stepCap : Nat := 0xc044
abbrev area : Nat := 0xc048
abbrev msStat : Nat := 0xc04c
abbrev msCmd : Nat := 0xc050
abbrev excl (i j : Nat) : Nat := 0xc080 + 0x10 * i + 0x4 * j
abbrev msCount (i : Nat) : Nat := 0xc100 + 0x40 * i
abbrev msTbLo (i : Nat) : Nat := 0xc104 + 0x40 * i
abbrev msTbHi (i : Nat) : Nat := 0xc108 + 0x40 * i
abbrev logUse0 (i : Nat) : Nat := 0xc10c + 0x40 * i
abbrev logUse1 (i : Nat) : Nat := 0xc110 + 0x40 * i
abbrev spcReg (i : Nat) : Nat := 0xc114 + 0x40 * i
abbrev recNs (i : Nat) : Nat := 0xc118 + 0x40 * i
abbrev seqLast (i j : Nat) : Nat := 0xc120 + 0x40 * i + 0x4 * j

/-! MIRROR R366 -/
abbrev mcfgReg : Nat := 0x10040
abbrev mcmd : Nat := 0x10044
abbrev mstat : Nat := 0x10048
abbrev lagCap : Nat := 0x1004c
abbrev lagMax : Nat := 0x10050
abbrev tkoNs : Nat := 0x10054
abbrev resyncCnt : Nat := 0x10058
abbrev cfgDigest : Nat := 0x1005c
abbrev peerDigest : Nat := 0x10060

/-! TIMEBASE R54 -/
abbrev tbCtrl : Nat := 0x14040
abbrev incNs : Nat := 0x14044
abbrev incFrac : Nat := 0x14048
abbrev rateAdj : Nat := 0x1404c
abbrev offsetAdj : Nat := 0x14050
abbrev timeLo : Nat := 0x14054
abbrev timeHi : Nat := 0x14058
abbrev timeSetLo : Nat := 0x1405c
abbrev timeSetHi : Nat := 0x14060
abbrev slewRem : Nat := 0x14064
abbrev stepmeter : Nat := 0x14068
abbrev stepmeterMin : Nat := 0x1406c

/-! ROUTER R217-R220 -/
abbrev quarCount : Nat := 0x40040
abbrev wakeSrc : Nat := 0x40044
abbrev pendSet : Nat := 0x40048
abbrev pendClr : Nat := 0x4004c
abbrev rrIdx : Nat := 0x40050
abbrev rrPtr : Nat := 0x40054
abbrev srcCfg (k : Nat) : Nat := (0x11 + k / 256) * 0x4000 + 0x40 + 8 * (k % 256)
abbrev srcStorm (k : Nat) : Nat := (0x11 + k / 256) * 0x4000 + 0x44 + 8 * (k % 256)
abbrev level (i : Nat) : Nat := 0x54040 + 0x4 * i
abbrev swpend (i : Nat) : Nat := 0x540c0 + 0x4 * i
abbrev pendReg (i : Nat) : Nat := 0x54140 + 0x4 * i
abbrev srcEn (i : Nat) : Nat := 0x58040 + 0x4 * i
abbrev quar (i : Nat) : Nat := 0x580c0 + 0x4 * i
abbrev activeReg (i : Nat) : Nat := 0x58140 + 0x4 * i
abbrev thresh (i : Nat) : Nat := 0x5c040 + 0x4 * i
abbrev estate (i : Nat) : Nat := 0x5c080 + 0x4 * i
abbrev stk (i j : Nat) : Nat := 0x5c100 + 0x40 * i + 0x4 * j

/-! ENGINE R187 R498 -/
abbrev schedStat (e : Nat) : Nat := (0x20 + e) * 0x4000 + 0x40
abbrev taskSel (e : Nat) : Nat := (0x20 + e) * 0x4000 + 0x44
abbrev taskCmd (e : Nat) : Nat := (0x20 + e) * 0x4000 + 0x48
abbrev taskStat (e : Nat) : Nat := (0x20 + e) * 0x4000 + 0x4c
abbrev readyLo (e : Nat) : Nat := (0x20 + e) * 0x4000 + 0x50
abbrev readyHi (e : Nat) : Nat := (0x20 + e) * 0x4000 + 0x54
abbrev waitLo (e : Nat) : Nat := (0x20 + e) * 0x4000 + 0x58
abbrev waitHi (e : Nat) : Nat := (0x20 + e) * 0x4000 + 0x5c
abbrev haltLo (e : Nat) : Nat := (0x20 + e) * 0x4000 + 0x60
abbrev haltHi (e : Nat) : Nat := (0x20 + e) * 0x4000 + 0x64
abbrev lvlmap (e i : Nat) : Nat := (0x20 + e) * 0x4000 + 0x68 + 0x4 * i
abbrev bypmap (e i : Nat) : Nat := (0x20 + e) * 0x4000 + 0x78 + 0x4 * i
abbrev ctxIdx (e : Nat) : Nat := (0x20 + e) * 0x4000 + 0x98
abbrev ctxCmd (e : Nat) : Nat := (0x20 + e) * 0x4000 + 0x9c
abbrev ctxD (e i : Nat) : Nat := (0x20 + e) * 0x4000 + 0xa0 + 0x4 * i
abbrev dstat (e : Nat) : Nat := (0x20 + e) * 0x4000 + 0xb0
abbrev dpc (e : Nat) : Nat := (0x20 + e) * 0x4000 + 0xb4
abbrev bpCtrl (e i : Nat) : Nat := (0x20 + e) * 0x4000 + 0xc0 + 0x10 * i
abbrev bpAddr (e i : Nat) : Nat := (0x20 + e) * 0x4000 + 0xc4 + 0x10 * i
abbrev bpMask (e i : Nat) : Nat := (0x20 + e) * 0x4000 + 0xc8 + 0x10 * i
abbrev pmCfg (e i : Nat) : Nat := (0x20 + e) * 0x4000 + 0x140 + 0x10 * i
abbrev pmThr (e i : Nat) : Nat := (0x20 + e) * 0x4000 + 0x144 + 0x10 * i
abbrev pmCnt (e i : Nat) : Nat := (0x20 + e) * 0x4000 + 0x148 + 0x10 * i
abbrev pmShad (e i : Nat) : Nat := (0x20 + e) * 0x4000 + 0x14c + 0x10 * i
abbrev pmCtrl (e : Nat) : Nat := (0x20 + e) * 0x4000 + 0x1c0
abbrev pmOvf (e : Nat) : Nat := (0x20 + e) * 0x4000 + 0x1c4
abbrev pmSnapTbLo (e : Nat) : Nat := (0x20 + e) * 0x4000 + 0x1c8
abbrev pmSnapTbHi (e : Nat) : Nat := (0x20 + e) * 0x4000 + 0x1cc

/-! SCRATCH R243 -/
abbrev collideAddr : Nat := 0x100040
abbrev collideMst : Nat := 0x100044
abbrev collideCnt : Nat := 0x100048
abbrev eccCeAddr : Nat := 0x10004c
abbrev eccCeCnt : Nat := 0x100050
abbrev eccUeAddr : Nat := 0x100054
abbrev eccUeCnt : Nat := 0x100058
abbrev bankPwr (i : Nat) : Nat := 0x100060 + 0x4 * i
abbrev bankStat (i : Nat) : Nat := 0x100080 + 0x4 * i
abbrev spare (i : Nat) : Nat := 0x1000a0 + 0x4 * i
abbrev faulty (i : Nat) : Nat := 0x1000b0 + 0x4 * i
abbrev pbFaulty : Nat := 0x1000bc

/-! REGIONS R247 -/
abbrev regLo (i j : Nat) : Nat := 0x104040 + 0x80 * i + 0x8 * j
abbrev regHi (i j : Nat) : Nat := 0x104044 + 0x80 * i + 0x8 * j
abbrev denyAddrLo : Nat := 0x104c40
abbrev denyAddrHi : Nat := 0x104c44
abbrev denyInfo : Nat := 0x104c48
abbrev denyCnt : Nat := 0x104c4c

/-! MOVER R307 R308 -/
abbrev chRun (q : Nat) : Nat := (0x50 + q) * 0x4000 + 0x40
abbrev chHalt (q : Nat) : Nat := (0x50 + q) * 0x4000 + 0x44
abbrev chRet (q : Nat) : Nat := (0x50 + q) * 0x4000 + 0x48
abbrev ccfg (ch : Nat) : Nat := (0x50 + ch / 16) * 0x4000 + 0x100 + 0x40 * (ch % 16)
abbrev ccmd (ch : Nat) : Nat := (0x50 + ch / 16) * 0x4000 + 0x104 + 0x40 * (ch % 16)
abbrev chStat (ch : Nat) : Nat := (0x50 + ch / 16) * 0x4000 + 0x108 + 0x40 * (ch % 16)
abbrev desc (ch : Nat) : Nat := (0x50 + ch / 16) * 0x4000 + 0x10c + 0x40 * (ch % 16)
abbrev appendReg (ch : Nat) : Nat := (0x50 + ch / 16) * 0x4000 + 0x110 + 0x40 * (ch % 16)
abbrev posReg (ch : Nat) : Nat := (0x50 + ch / 16) * 0x4000 + 0x114 + 0x40 * (ch % 16)
abbrev doneReg (ch : Nat) : Nat := (0x50 + ch / 16) * 0x4000 + 0x118 + 0x40 * (ch % 16)
abbrev errAddrLo (ch : Nat) : Nat := (0x50 + ch / 16) * 0x4000 + 0x11c + 0x40 * (ch % 16)
abbrev errAddrHi (ch : Nat) : Nat := (0x50 + ch / 16) * 0x4000 + 0x120 + 0x40 * (ch % 16)

/-! DRIVE R279 R280 (group g: page 0x060+g/4, block 0x100+0x80*(g mod 4)) -/
abbrev gctrlReg (g : Nat) : Nat := (0x60 + g / 4) * 0x4000 + 0x100 + 0x80 * (g % 4)
abbrev pcnt (g : Nat) : Nat := (0x60 + g / 4) * 0x4000 + 0x104 + 0x80 * (g % 4)
abbrev startLo (g : Nat) : Nat := (0x60 + g / 4) * 0x4000 + 0x108 + 0x80 * (g % 4)
abbrev startHi (g : Nat) : Nat := (0x60 + g / 4) * 0x4000 + 0x10c + 0x80 * (g % 4)
abbrev dead (g : Nat) : Nat := (0x60 + g / 4) * 0x4000 + 0x110 + 0x80 * (g % 4)
abbrev legcfg (g : Nat) : Nat := (0x60 + g / 4) * 0x4000 + 0x114 + 0x80 * (g % 4)
abbrev trigReg (g : Nat) : Nat := (0x60 + g / 4) * 0x4000 + 0x118 + 0x80 * (g % 4)
abbrev gstat (g : Nat) : Nat := (0x60 + g / 4) * 0x4000 + 0x11c + 0x80 * (g % 4)
abbrev pcount (g : Nat) : Nat := (0x60 + g / 4) * 0x4000 + 0x120 + 0x80 * (g % 4)
abbrev pstampLo (g : Nat) : Nat := (0x60 + g / 4) * 0x4000 + 0x124 + 0x80 * (g % 4)
abbrev pstampHi (g : Nat) : Nat := (0x60 + g / 4) * 0x4000 + 0x128 + 0x80 * (g % 4)
abbrev cmpAct (g j : Nat) : Nat := (0x60 + g / 4) * 0x4000 + 0x12c + 0x80 * (g % 4) + 4 * j
abbrev cmpStg (g j : Nat) : Nat := (0x60 + g / 4) * 0x4000 + 0x138 + 0x80 * (g % 4) + 4 * j
abbrev cmpPend (g j : Nat) : Nat := (0x60 + g / 4) * 0x4000 + 0x144 + 0x80 * (g % 4) + 4 * j

/-! SAMPLE R281 -/
abbrev spCfg (i : Nat) : Nat := 0x188040 + 0x4 * i
abbrev last (i : Nat) : Nat := 0x1880c0 + 0x4 * i
abbrev dselLo (i : Nat) : Nat := 0x188140 + 0x8 * i
abbrev dselHi (i : Nat) : Nat := 0x188144 + 0x8 * i
abbrev ovrFlags : Nat := 0x188240
abbrev ovrCnt : Nat := 0x188244

/-! TRIP R282 -/
abbrev tcfg (i : Nat) : Nat := 0x18c040 + 0x4 * i
abbrev tlatch : Nat := 0x18c0c0
abbrev tlevel : Nat := 0x18c0c4
abbrev tfirst : Nat := 0x18c0c8
abbrev tstampLo : Nat := 0x18c0cc
abbrev tstampHi : Nat := 0x18c0d0

/-! CAPTURE R283 -/
abbrev encCfg (i : Nat) : Nat := 0x190040 + 0x20 * i
abbrev encCpr (i : Nat) : Nat := 0x190044 + 0x20 * i
abbrev encPos (i : Nat) : Nat := 0x190048 + 0x20 * i
abbrev encRev (i : Nat) : Nat := 0x19004c + 0x20 * i
abbrev encEdgeReg (i : Nat) : Nat := 0x190050 + 0x20 * i
abbrev encErr (i : Nat) : Nat := 0x190054 + 0x20 * i
abbrev encZ (i : Nat) : Nat := 0x190058 + 0x20 * i
abbrev capCfg (i : Nat) : Nat := 0x190140 + 0x10 * i
abbrev capLo (i : Nat) : Nat := 0x190144 + 0x10 * i
abbrev capHi (i : Nat) : Nat := 0x190148 + 0x10 * i
abbrev capPop (i : Nat) : Nat := 0x19014c + 0x10 * i
abbrev capStat (i : Nat) : Nat := 0x1901c0 + 0x4 * i

/-! LANE R390 (page 0x070+k) -/
abbrev lctrlReg (k : Nat) : Nat := (0x70 + k) * 0x4000 + 0x40
abbrev lcmd (k : Nat) : Nat := (0x70 + k) * 0x4000 + 0x44
abbrev lstat (k : Nat) : Nat := (0x70 + k) * 0x4000 + 0x48
abbrev lossCfg (k : Nat) : Nat := (0x70 + k) * 0x4000 + 0x4c
abbrev serThr (k : Nat) : Nat := (0x70 + k) * 0x4000 + 0x50
abbrev cwCnt (k : Nat) : Nat := (0x70 + k) * 0x4000 + 0x54
abbrev cwCorr (k : Nat) : Nat := (0x70 + k) * 0x4000 + 0x58
abbrev cwUnc (k : Nat) : Nat := (0x70 + k) * 0x4000 + 0x5c
abbrev symCorr (k : Nat) : Nat := (0x70 + k) * 0x4000 + 0x60
abbrev amSlip (k : Nat) : Nat := (0x70 + k) * 0x4000 + 0x64
abbrev deskew (k : Nat) : Nat := (0x70 + k) * 0x4000 + 0x68
abbrev macCfg (k : Nat) : Nat := (0x70 + k) * 0x4000 + 0x6c
abbrev macAddrLo (k : Nat) : Nat := (0x70 + k) * 0x4000 + 0x70
abbrev macAddrHi (k : Nat) : Nat := (0x70 + k) * 0x4000 + 0x74
abbrev txFrames (k : Nat) : Nat := (0x70 + k) * 0x4000 + 0x78
abbrev rxFrames (k : Nat) : Nat := (0x70 + k) * 0x4000 + 0x7c
abbrev rxErr (k : Nat) : Nat := (0x70 + k) * 0x4000 + 0x80
abbrev rxDrop (k : Nat) : Nat := (0x70 + k) * 0x4000 + 0x84
abbrev phyTxPs (k : Nat) : Nat := (0x70 + k) * 0x4000 + 0x88
abbrev phyRxPs (k : Nat) : Nat := (0x70 + k) * 0x4000 + 0x8c
abbrev mfrCfg (l : Nat) : Nat := (0x74 + l) * 0x4000 + 0x90
abbrev mfrRetx (l : Nat) : Nat := (0x74 + l) * 0x4000 + 0x94

/-! SWITCH R411 -/
abbrev swCtrl : Nat := 0x1e0040
abbrev aging : Nat := 0x1e0044
abbrev cpuMacLo : Nat := 0x1e0048
abbrev cpuMacHi : Nat := 0x1e004c
abbrev cpuBufsz : Nat := 0x1e0050
abbrev cpuQmap : Nat := 0x1e0054
abbrev fdbCmd : Nat := 0x1e0058
abbrev fdbD (i : Nat) : Nat := 0x1e005c + 0x4 * i
abbrev vlanCmd : Nat := 0x1e006c
abbrev vlanD (i : Nat) : Nat := 0x1e0070 + 0x4 * i
abbrev portCfg (i : Nat) : Nat := 0x1e0080 + 0x4 * i
abbrev cpuRing (i : Nat) : Nat := 0x1e0100 + 0x10 * i
abbrev cpuRxht (i : Nat) : Nat := 0x1e0104 + 0x10 * i
abbrev cpuTxring (i : Nat) : Nat := 0x1e0108 + 0x10 * i
abbrev cpuTxpostReg (i : Nat) : Nat := 0x1e010c + 0x10 * i
abbrev swDrop (i : Nat) : Nat := 0x1e0180 + 0x4 * i

/-! TSN R411 -/
abbrev gclBase : Nat := 0x1e4040
abbrev asCfg : Nat := 0x1e4044
abbrev preempt : Nat := 0x1e4048
abbrev strmIdx : Nat := 0x1e404c
abbrev strmCmd : Nat := 0x1e4050
abbrev strmDId : Nat := 0x1e4058
abbrev strmDTop : Nat := 0x1e4060
abbrev strmD (i : Nat) : Nat := 0x1e4054 + 0x4 * i
abbrev operReg (i : Nat) : Nat := 0x1e4100 + 0x20 * i
abbrev cycle (i : Nat) : Nat := 0x1e4104 + 0x20 * i
abbrev baseLo (i : Nat) : Nat := 0x1e4108 + 0x20 * i
abbrev baseHi (i : Nat) : Nat := 0x1e410c + 0x20 * i
abbrev gclStat (i : Nat) : Nat := 0x1e4110 + 0x20 * i

/-! FABRIC R411 -/
abbrev fabCfg : Nat := 0x1e8040
abbrev fabPfxLo : Nat := 0x1e8044
abbrev fabPfxHi : Nat := 0x1e8048
abbrev fabRtoReg : Nat := 0x1e804c
abbrev dbFifoReg : Nat := 0x1e8050
abbrev dbStat : Nat := 0x1e8054
abbrev peerIdx : Nat := 0x1e8058
abbrev peerStat : Nat := 0x1e805c
abbrev fabMisdir : Nat := 0x1e8060
abbrev fabLate : Nat := 0x1e8064
abbrev fabRetx : Nat := 0x1e8068
abbrev fabTimeout : Nat := 0x1e806c
abbrev opAddrLo (i : Nat) : Nat := 0x1e8100 + 0x40 * i
abbrev opAddrHi (i : Nat) : Nat := 0x1e8104 + 0x40 * i
abbrev opArg (i j : Nat) : Nat := 0x1e8108 + 0x40 * i + 0x4 * j
abbrev opCmd (i : Nat) : Nat := 0x1e8118 + 0x40 * i
abbrev opStat (i : Nat) : Nat := 0x1e811c + 0x40 * i
abbrev opRes (i j : Nat) : Nat := 0x1e8120 + 0x40 * i + 0x4 * j

/-! MACSEC R411 -/
abbrev secy (i : Nat) : Nat := 0x1ec040 + 0x4 * i
abbrev saIdx : Nat := 0x1ec0c0
abbrev saCmd : Nat := 0x1ec0c4
abbrev saDSlot : Nat := 0x1ec0c8
abbrev saD (i : Nat) : Nat := 0x1ec0c8 + 0x4 * i
abbrev pnThrLo : Nat := 0x1ec0d8
abbrev pnThrHi : Nat := 0x1ec0dc
abbrev replayWin : Nat := 0x1ec0e0
abbrev inBad (i : Nat) : Nat := 0x1ec0e4 + 0x4 * i

/-! EDGE R411 -/
abbrev ecfgReg (i : Nat) : Nat := 0x1f0040 + 0x20 * i
abbrev plca (i : Nat) : Nat := 0x1f0044 + 0x20 * i
abbrev maxlen (i : Nat) : Nat := 0x1f0048 + 0x20 * i
abbrev ephyTxPs (i : Nat) : Nat := 0x1f004c + 0x20 * i
abbrev ephyRxPs (i : Nat) : Nat := 0x1f0050 + 0x20 * i
abbrev estat (i : Nat) : Nat := 0x1f0054 + 0x20 * i
abbrev erxerr (i : Nat) : Nat := 0x1f0058 + 0x20 * i
abbrev ecoll (i : Nat) : Nat := 0x1f005c + 0x20 * i

/-! MEMPORT R424 R425 -/
abbrev mpCtrlReg : Nat := 0x200040
abbrev mpStat : Nat := 0x200044
abbrev mpTmoReg : Nat := 0x200048
abbrev errCnt (i : Nat) : Nat := 0x20004c + 0x4 * i
abbrev mpErrAddrLo : Nat := 0x200054
abbrev mpErrAddrHi : Nat := 0x200058
abbrev seg (i : Nat) : Nat := 0x200100 + 0x4 * i

/-! HOST R437 -/
abbrev hcfg : Nat := 0x240040
abbrev hcmd : Nat := 0x240044
abbrev hres : Nat := 0x240048
abbrev hattn : Nat := 0x24004c
abbrev hperr : Nat := 0x240050
abbrev doipCtrl : Nat := 0x240054
abbrev doipPm : Nat := 0x240058
abbrev doipIp4 : Nat := 0x24005c
abbrev doipIp6 (i : Nat) : Nat := 0x240060 + 0x4 * i
abbrev mbCtrl (i : Nat) : Nat := 0x240100 + 0x10 * i
abbrev mbInstat (i : Nat) : Nat := 0x240104 + 0x10 * i
abbrev mbOutpostReg (i : Nat) : Nat := 0x240108 + 0x10 * i
abbrev mbOutstat (i : Nat) : Nat := 0x24010c + 0x10 * i
abbrev mbInpostReg (i : Nat) : Nat := 0x240200 + 0x4 * i
abbrev inBuf (i j : Nat) : Nat := 0x240400 + 0x40 * i + 0x4 * j
abbrev outBuf (i j : Nat) : Nat := 0x240800 + 0x40 * i + 0x4 * j

/-! SECURITY R472 -/
abbrev lcReg : Nat := 0x280040
abbrev rstCause : Nat := 0x280044
abbrev rstCnt : Nat := 0x280048
abbrev rstReqReg : Nat := 0x28004c
abbrev bootStat : Nat := 0x280050
abbrev secVer : Nat := 0x280054
abbrev arbCnt : Nat := 0x280058
abbrev fuseIdx : Nat := 0x28005c
abbrev fuseData : Nat := 0x280060
abbrev fuseProgReg : Nat := 0x280064
abbrev lcAdvReg : Nat := 0x280068
abbrev arbSetReg : Nat := 0x28006c
abbrev imgHash (i : Nat) : Nat := 0x280070 + 0x4 * i

/-! KEYS R473 -/
abbrev ksel : Nat := 0x284040
abbrev kcmd : Nat := 0x284044
abbrev kdata (i : Nat) : Nat := 0x284060 + 0x4 * i
abbrev ksalt (i : Nat) : Nat := 0x284080 + 0x4 * i
abbrev kstat (i : Nat) : Nat := 0x284100 + 0x4 * i

/-! DEBUG R499 -/
abbrev dbgCtrl : Nat := 0x2c0040
abbrev dbgStatReg : Nat := 0x2c0044
abbrev haltReqReg : Nat := 0x2c0048
abbrev resumeReqReg : Nat := 0x2c004c
abbrev stepReqReg : Nat := 0x2c0050
abbrev haltedReg : Nat := 0x2c0054
abbrev reformReg : Nat := 0x2c0058
abbrev dbgRstReq : Nat := 0x2c005c
abbrev trcCtrl : Nat := 0x2c0060
abbrev trcBase : Nat := 0x2c0064
abbrev trcSize : Nat := 0x2c0068
abbrev trcWptr : Nat := 0x2c006c
abbrev trcLost : Nat := 0x2c0070
abbrev trcStat : Nat := 0x2c0074
abbrev pmGsnapReg : Nat := 0x2c0078
abbrev mvPmCfg (i : Nat) : Nat := 0x2c0080 + 0x10 * i
abbrev mvPmThr (i : Nat) : Nat := 0x2c0084 + 0x10 * i
abbrev mvPmCnt (i : Nat) : Nat := 0x2c0088 + 0x10 * i
abbrev mvPmShad (i : Nat) : Nat := 0x2c008c + 0x10 * i
abbrev swPmCfg (i : Nat) : Nat := 0x2c0100 + 0x10 * i
abbrev swPmThr (i : Nat) : Nat := 0x2c0104 + 0x10 * i
abbrev swPmCnt (i : Nat) : Nat := 0x2c0108 + 0x10 * i
abbrev swPmShad (i : Nat) : Nat := 0x2c010c + 0x10 * i
abbrev mvPmCtrl : Nat := 0x2c0180
abbrev mvPmOvf : Nat := 0x2c0184
abbrev swPmCtrl : Nat := 0x2c0188
abbrev swPmOvf : Nat := 0x2c018c
abbrev dbgPmTbLo : Nat := 0x2c0190
abbrev dbgPmTbHi : Nat := 0x2c0194

end Reg

def rows000 : List RegRow :=
  [⟨0x40, 0x1, 1, 0x1, 1, .ro, 0x0, 0x0, 0x12, []⟩,
   ⟨0x44, 0x1, 1, 0x1, 1, .wo, 0xf, 0x0, 0x0, []⟩,
   ⟨0x48, 0x1, 1, 0x1, 1, .ro, 0x0, 0x0, 0x0, []⟩,
   ⟨0x4c, 0x1, 1, 0x1, 1, .ro, 0x0, 0x0, 0x20300, []⟩,
   ⟨0x50, 0x1, 1, 0x1, 1, .rw, 0x1ff, 0x0, 0x0, []⟩]

def rows001 : List RegRow :=
  [⟨0x40, 0x1, 1, 0x1, 1, .rw, 0x1f, 0x0, 0x0, [(0, 2, 0x3, 0x3)]⟩,
   ⟨0x44, 0x1, 1, 0x1, 1, .wo, 0x1, 0x0, 0x0, []⟩,
   ⟨0x48, 0x1, 1, 0x1, 1, .ro, 0x0, 0x8, 0x0, []⟩,
   ⟨0x4c, 0x1, 1, 0x1, 1, .rw, 0x3ff, 0x0, 0x14, [(0, 10, 0x0, 0x0), (0, 10, 0x3e9, 0x3ff)]⟩,
   ⟨0x50, 0x1, 1, 0x1, 1, .rw, 0xffffffff, 0x0, 0x0, []⟩,
   ⟨0x54, 0x1, 1, 0x1, 1, .rw, 0xffffffff, 0x0, 0x0, []⟩,
   ⟨0x58, 0x1, 1, 0x1, 1, .ro, 0x0, 0x0, 0x0, []⟩,
   ⟨0x5c, 0x1, 1, 0x1, 1, .ro, 0x0, 0x0, 0x0, []⟩,
   ⟨0x60, 0x4, 4, 0x1, 1, .rc, 0x0, 0x0, 0x0, []⟩,
   ⟨0x70, 0x1, 1, 0x1, 1, .rc, 0x0, 0x0, 0x0, []⟩]

def rows002 : List RegRow :=
  [⟨0x40, 0x1, 1, 0x1, 1, .rw, 0xfff, 0x0, 0xff, []⟩,
   ⟨0x44, 0x1, 1, 0x1, 1, .ro, 0x0, 0x0, 0x0, []⟩,
   ⟨0x48, 0x1, 1, 0x1, 1, .rw, 0x1, 0x0, 0x0, []⟩,
   ⟨0x4c, 0x1, 1, 0x1, 1, .ro, 0x0, 0x0, 0x0, []⟩,
   ⟨0x50, 0x1, 1, 0x1, 1, .ro, 0x0, 0x0, 0x0, []⟩,
   ⟨0x54, 0x1, 1, 0x1, 1, .ro, 0x0, 0x0, 0x0, []⟩,
   ⟨0x58, 0x1, 1, 0x1, 1, .rc, 0x0, 0x0, 0x0, []⟩,
   ⟨0x5c, 0x1, 1, 0x1, 1, .rc, 0x0, 0x0, 0x0, []⟩,
   ⟨0x60, 0x1, 1, 0x1, 1, .ro, 0x0, 0x0, 0x0, []⟩,
   ⟨0x64, 0x1, 1, 0x1, 1, .ro, 0x0, 0x0, 0x0, []⟩]

def rows003a : List RegRow :=
  [⟨0x40, 0x1, 1, 0x1, 1, .rw, 0x3ff, 0x0, 0x14, []⟩,
   ⟨0x44, 0x1, 1, 0x1, 1, .rw, 0xffffff, 0x0, 0x8ca0, []⟩,
   ⟨0x48, 0x1, 1, 0x1, 1, .rw, 0x37f, 0x0, 0x5c, []⟩,
   ⟨0x4c, 0x1, 1, 0x1, 1, .ro, 0x0, 0xff00ff, 0x0, []⟩,
   ⟨0x50, 0x1, 1, 0x1, 1, .wo, 0x107, 0x0, 0x0, []⟩,
   ⟨0x80, 0x10, 8, 0x4, 3, .rw, 0xffffffff, 0x0, 0x0, []⟩,
   ⟨0x100, 0x40, 8, 0x1, 1, .ro, 0x0, 0x0, 0x0, []⟩,
   ⟨0x104, 0x40, 8, 0x1, 1, .ro, 0x0, 0x0, 0x0, []⟩,
   ⟨0x108, 0x40, 8, 0x1, 1, .ro, 0x0, 0x0, 0x0, []⟩,
   ⟨0x10c, 0x40, 8, 0x1, 1, .ro, 0x0, 0x0, 0x0, []⟩,
   ⟨0x110, 0x40, 8, 0x1, 1, .ro, 0x0, 0x0, 0x0, []⟩,
   ⟨0x114, 0x40, 8, 0x1, 1, .ro, 0x0, 0x0, 0x0, []⟩]

def rows003b : List RegRow :=
  [⟨0x118, 0x40, 8, 0x1, 1, .ro, 0x0, 0x0, 0x0, []⟩,
   ⟨0x120, 0x40, 8, 0x4, 6, .ro, 0x0, 0x0, 0x0, []⟩]

def rows004 : List RegRow :=
  [⟨0x40, 0x1, 1, 0x1, 1, .rw, 0xff0f, 0x0, 0x0, []⟩,
   ⟨0x44, 0x1, 1, 0x1, 1, .wo, 0x3, 0x0, 0x0, []⟩,
   ⟨0x48, 0x1, 1, 0x1, 1, .ro, 0x0, 0x0, 0x0, []⟩,
   ⟨0x4c, 0x1, 1, 0x1, 1, .rw, 0x1ffff, 0x0, 0x8ca0, []⟩,
   ⟨0x50, 0x1, 1, 0x1, 1, .rc, 0x0, 0x0, 0x0, []⟩,
   ⟨0x54, 0x1, 1, 0x1, 1, .ro, 0x0, 0x0, 0x0, []⟩,
   ⟨0x58, 0x1, 1, 0x1, 1, .rc, 0x0, 0x0, 0x0, []⟩,
   ⟨0x5c, 0x1, 1, 0x1, 1, .ro, 0x0, 0x0, 0x0, []⟩,
   ⟨0x60, 0x1, 1, 0x1, 1, .ro, 0x0, 0x0, 0x0, []⟩]

def rows005 : List RegRow :=
  [⟨0x40, 0x1, 1, 0x1, 1, .rw, 0x1, 0x0, 0x0, []⟩,
   ⟨0x44, 0x1, 1, 0x1, 1, .rw, 0xff, 0x0, 0x8, []⟩,
   ⟨0x48, 0x1, 1, 0x1, 1, .rw, 0xffffffff, 0x0, 0x0, []⟩,
   ⟨0x4c, 0x1, 1, 0x1, 1, .rw, 0xffffffff, 0x0, 0x0, []⟩,
   ⟨0x50, 0x1, 1, 0x1, 1, .wo, 0xffffffff, 0x0, 0x0, []⟩,
   ⟨0x54, 0x1, 1, 0x1, 1, .ro, 0x0, 0x0, 0x0, []⟩,
   ⟨0x58, 0x1, 1, 0x1, 1, .ro, 0x0, 0x0, 0x0, []⟩,
   ⟨0x5c, 0x1, 1, 0x1, 1, .rw, 0xffffffff, 0x0, 0x0, []⟩,
   ⟨0x60, 0x1, 1, 0x1, 1, .rw, 0xffffffff, 0x0, 0x0, []⟩,
   ⟨0x64, 0x1, 1, 0x1, 1, .ro, 0x0, 0x0, 0x0, []⟩,
   ⟨0x68, 0x1, 1, 0x1, 1, .ro, 0x0, 0x0, 0x0, []⟩,
   ⟨0x6c, 0x1, 1, 0x1, 1, .rc, 0x0, 0x0, 0x0, []⟩]

def rows010 : List RegRow :=
  [⟨0x40, 0x1, 1, 0x1, 1, .rc, 0x0, 0x0, 0x0, []⟩,
   ⟨0x44, 0x1, 1, 0x1, 1, .ro, 0x0, 0x0, 0x0, []⟩,
   ⟨0x48, 0x1, 1, 0x1, 1, .wo, 0x3ff, 0x0, 0x0, []⟩,
   ⟨0x4c, 0x1, 1, 0x1, 1, .wo, 0x3ff, 0x0, 0x0, []⟩,
   ⟨0x50, 0x1, 1, 0x1, 1, .rw, 0x3ff, 0x0, 0x0, []⟩,
   ⟨0x54, 0x1, 1, 0x1, 1, .ro, 0x0, 0x0, 0x0, []⟩]

def rows011 : List RegRow :=
  [⟨0x40, 0x8, 256, 0x1, 1, .rw, 0xfffff, 0x0, 0x0, []⟩,
   ⟨0x44, 0x8, 256, 0x1, 1, .rw, 0xfff, 0x0, 0xa40, []⟩]

def rows015 : List RegRow :=
  [⟨0x40, 0x4, 32, 0x1, 1, .ro, 0x0, 0x0, 0x0, []⟩,
   ⟨0xc0, 0x4, 32, 0x1, 1, .rwa, 0xffffffff, 0x0, 0x0, []⟩,
   ⟨0x140, 0x4, 32, 0x1, 1, .ro, 0x0, 0x0, 0x0, []⟩]

def rows016 : List RegRow :=
  [⟨0x40, 0x4, 32, 0x1, 1, .rwa, 0xffffffff, 0x0, 0x0, []⟩,
   ⟨0xc0, 0x4, 32, 0x1, 1, .ro, 0x0, 0xffffffff, 0x0, []⟩,
   ⟨0x140, 0x4, 32, 0x1, 1, .ro, 0x0, 0x0, 0x0, []⟩]

def rows017 : List RegRow :=
  [⟨0x40, 0x4, 16, 0x1, 1, .rw, 0x1f, 0x0, 0x0, [(0, 5, 0x11, 0x1f)]⟩,
   ⟨0x80, 0x4, 16, 0x1, 1, .ro, 0x0, 0x0, 0x0, []⟩,
   ⟨0x100, 0x40, 16, 0x4, 16, .ro, 0x0, 0x0, 0x0, []⟩]

def rows020a : List RegRow :=
  [⟨0x40, 0x1, 1, 0x1, 1, .ro, 0x0, 0x0, 0x0, []⟩,
   ⟨0x44, 0x1, 1, 0x1, 1, .rw, 0x3f, 0x0, 0x0, []⟩,
   ⟨0x48, 0x1, 1, 0x1, 1, .wo, 0x7, 0x0, 0x0, []⟩,
   ⟨0x4c, 0x1, 1, 0x1, 1, .ro, 0x0, 0x0, 0x0, []⟩,
   ⟨0x50, 0x1, 1, 0x1, 1, .ro, 0x0, 0x0, 0x0, []⟩,
   ⟨0x54, 0x1, 1, 0x1, 1, .ro, 0x0, 0x0, 0x0, []⟩,
   ⟨0x58, 0x1, 1, 0x1, 1, .ro, 0x0, 0x0, 0x0, []⟩,
   ⟨0x5c, 0x1, 1, 0x1, 1, .ro, 0x0, 0x0, 0x0, []⟩,
   ⟨0x60, 0x1, 1, 0x1, 1, .ro, 0x0, 0x0, 0x0, []⟩,
   ⟨0x64, 0x1, 1, 0x1, 1, .ro, 0x0, 0x0, 0x0, []⟩,
   ⟨0x68, 0x4, 4, 0x1, 1, .rw, 0xbfbfbfbf, 0x0, 0x0, []⟩,
   ⟨0x78, 0x4, 8, 0x1, 1, .rw, 0xbfbfbfbf, 0x0, 0x0, []⟩]

def rows020b : List RegRow :=
  [⟨0x98, 0x1, 1, 0x1, 1, .rw, 0xfff, 0x0, 0x0, []⟩,
   ⟨0x9c, 0x1, 1, 0x1, 1, .wo, 0x3, 0x0, 0x0, []⟩,
   ⟨0xa0, 0x4, 4, 0x1, 1, .rw, 0xffffffff, 0x0, 0x0, []⟩,
   ⟨0xb0, 0x1, 1, 0x1, 1, .ro, 0x0, 0x0, 0x0, []⟩,
   ⟨0xb4, 0x1, 1, 0x1, 1, .ro, 0x0, 0x0, 0x0, []⟩,
   ⟨0xc0, 0x10, 8, 0x1, 1, .rw, 0xff003fff, 0x0, 0x0, []⟩,
   ⟨0xc4, 0x10, 8, 0x1, 1, .rw, 0xffffffff, 0x0, 0x0, []⟩,
   ⟨0xc8, 0x10, 8, 0x1, 1, .rw, 0xffffffff, 0x0, 0x0, []⟩,
   ⟨0x140, 0x10, 8, 0x1, 1, .rw, 0x80401fff, 0x0, 0x0, [(0, 8, 0x11, 0xff), (8, 2, 0x3, 0x3)]⟩,
   ⟨0x144, 0x10, 8, 0x1, 1, .rw, 0xffffffff, 0x0, 0x0, []⟩,
   ⟨0x148, 0x10, 8, 0x1, 1, .rw, 0xffffffff, 0x0, 0x0, []⟩,
   ⟨0x14c, 0x10, 8, 0x1, 1, .ro, 0x0, 0x0, 0x0, []⟩]

def rows020c : List RegRow :=
  [⟨0x1c0, 0x1, 1, 0x1, 1, .rw, 0x7, 0x0, 0x0, []⟩,
   ⟨0x1c4, 0x1, 1, 0x1, 1, .ro, 0x0, 0xff, 0x0, []⟩,
   ⟨0x1c8, 0x1, 1, 0x1, 1, .ro, 0x0, 0x0, 0x0, []⟩,
   ⟨0x1cc, 0x1, 1, 0x1, 1, .ro, 0x0, 0x0, 0x0, []⟩]

def rows040 : List RegRow :=
  [⟨0x40, 0x1, 1, 0x1, 1, .ro, 0x0, 0x0, 0x0, []⟩,
   ⟨0x44, 0x1, 1, 0x1, 1, .ro, 0x0, 0x80000000, 0x0, []⟩,
   ⟨0x48, 0x1, 1, 0x1, 1, .rc, 0x0, 0x0, 0x0, []⟩,
   ⟨0x4c, 0x1, 1, 0x1, 1, .ro, 0x0, 0x0, 0x0, []⟩,
   ⟨0x50, 0x1, 1, 0x1, 1, .rc, 0x0, 0x0, 0x0, []⟩,
   ⟨0x54, 0x1, 1, 0x1, 1, .ro, 0x0, 0x0, 0x0, []⟩,
   ⟨0x58, 0x1, 1, 0x1, 1, .rc, 0x0, 0x0, 0x0, []⟩,
   ⟨0x60, 0x4, 6, 0x1, 1, .rwa, 0xffffffff, 0x0, 0x0, [(0, 2, 0x3, 0x3), (2, 2, 0x3, 0x3), (4, 2, 0x3, 0x3), (6, 2, 0x3, 0x3), (8, 2, 0x3, 0x3), (10, 2, 0x3, 0x3), (12, 2, 0x3, 0x3), (14, 2, 0x3, 0x3), (16, 2, 0x3, 0x3), (18, 2, 0x3, 0x3), (20, 2, 0x3, 0x3), (22, 2, 0x3, 0x3), (24, 2, 0x3, 0x3), (26, 2, 0x3, 0x3), (28, 2, 0x3, 0x3), (30, 2, 0x3, 0x3)]⟩,
   ⟨0x80, 0x4, 6, 0x1, 1, .ro, 0x0, 0x0, 0x0, []⟩,
   ⟨0xa0, 0x4, 4, 0x1, 1, .ro, 0x0, 0x0, 0x0, []⟩,
   ⟨0xb0, 0x4, 3, 0x1, 1, .ro, 0x0, 0x0, 0x0, []⟩,
   ⟨0xbc, 0x1, 1, 0x1, 1, .ro, 0x0, 0x0, 0x0, []⟩]

def rows041 : List RegRow :=
  [⟨0x40, 0x80, 24, 0x8, 16, .rw, 0x7fffffff, 0x0, 0x0, [(29, 2, 0x2, 0x2)]⟩,
   ⟨0x44, 0x80, 24, 0x8, 16, .rw, 0x7fffffff, 0x0, 0x0, []⟩,
   ⟨0xc40, 0x1, 1, 0x1, 1, .ro, 0x0, 0x0, 0x0, []⟩,
   ⟨0xc44, 0x1, 1, 0x1, 1, .ro, 0x0, 0x0, 0x0, []⟩,
   ⟨0xc48, 0x1, 1, 0x1, 1, .ro, 0x0, 0x80000000, 0x0, []⟩,
   ⟨0xc4c, 0x1, 1, 0x1, 1, .rc, 0x0, 0x0, 0x0, []⟩]

def rows050 : List RegRow :=
  [⟨0x40, 0x1, 1, 0x1, 1, .ro, 0x0, 0x0, 0x0, []⟩,
   ⟨0x44, 0x1, 1, 0x1, 1, .ro, 0x0, 0x0, 0x0, []⟩,
   ⟨0x48, 0x1, 1, 0x1, 1, .ro, 0x0, 0x0, 0x0, []⟩,
   ⟨0x100, 0x40, 16, 0x1, 1, .rw, 0x7ff01f7, 0x0, 0x0, []⟩,
   ⟨0x104, 0x40, 16, 0x1, 1, .wo, 0x3, 0x0, 0x0, []⟩,
   ⟨0x108, 0x40, 16, 0x1, 1, .ro, 0x0, 0x700, 0x0, []⟩,
   ⟨0x10c, 0x40, 16, 0x1, 1, .rw, 0x1fffff0, 0x0, 0x0, []⟩,
   ⟨0x110, 0x40, 16, 0x1, 1, .wo, 0x1, 0x0, 0x0, []⟩,
   ⟨0x114, 0x40, 16, 0x1, 1, .ro, 0x0, 0x0, 0x0, []⟩,
   ⟨0x118, 0x40, 16, 0x1, 1, .ro, 0x0, 0x0, 0x0, []⟩,
   ⟨0x11c, 0x40, 16, 0x1, 1, .ro, 0x0, 0x0, 0x0, []⟩,
   ⟨0x120, 0x40, 16, 0x1, 1, .ro, 0x0, 0x0, 0x0, []⟩]

def rows060a : List RegRow :=
  [⟨0x100, 0x80, 4, 0x1, 1, .rw, 0xff1f3f, 0x0, 0x0, [(2, 2, 0x3, 0x3)]⟩,
   ⟨0x104, 0x80, 4, 0x1, 1, .rw, 0xfffff, 0x0, 0x61a8, []⟩,
   ⟨0x108, 0x80, 4, 0x1, 1, .rw, 0xffffffff, 0x0, 0x0, []⟩,
   ⟨0x10c, 0x80, 4, 0x1, 1, .rw, 0xffffffff, 0x0, 0x0, []⟩,
   ⟨0x110, 0x80, 4, 0x1, 1, .rw, 0xffffffff, 0x0, 0x0, []⟩,
   ⟨0x114, 0x80, 4, 0x1, 1, .rw, 0x3f3f, 0x0, 0x0, [(0, 2, 0x3, 0x3), (2, 2, 0x3, 0x3), (4, 2, 0x3, 0x3)]⟩,
   ⟨0x118, 0x80, 4, 0x1, 1, .rw, 0x800fffff, 0x0, 0x0, []⟩,
   ⟨0x11c, 0x80, 4, 0x1, 1, .ro, 0x0, 0x60, 0x0, []⟩,
   ⟨0x120, 0x80, 4, 0x1, 1, .ro, 0x0, 0x0, 0x0, []⟩,
   ⟨0x124, 0x80, 4, 0x1, 1, .ro, 0x0, 0x0, 0x0, []⟩,
   ⟨0x128, 0x80, 4, 0x1, 1, .ro, 0x0, 0x0, 0x0, []⟩,
   ⟨0x12c, 0x80, 4, 0x4, 3, .ro, 0x0, 0x0, 0x0, []⟩]

def rows060b : List RegRow :=
  [⟨0x138, 0x80, 4, 0x4, 3, .ro, 0x0, 0x0, 0x0, []⟩,
   ⟨0x144, 0x80, 4, 0x4, 3, .ro, 0x0, 0x0, 0x0, []⟩]

def rows062 : List RegRow :=
  [⟨0x40, 0x4, 32, 0x1, 1, .rw, 0xff, 0x0, 0x0, []⟩,
   ⟨0xc0, 0x4, 32, 0x1, 1, .ro, 0x0, 0x0, 0x0, []⟩,
   ⟨0x140, 0x8, 32, 0x1, 1, .rw, 0x3f3f3f3f, 0x0, 0x3f3f3f3f, [(0, 6, 0x28, 0x3e), (8, 6, 0x28, 0x3e), (16, 6, 0x28, 0x3e), (24, 6, 0x28, 0x3e)]⟩,
   ⟨0x144, 0x8, 32, 0x1, 1, .rw, 0x3f3f3f3f, 0x0, 0x3f3f3f3f, [(0, 6, 0x28, 0x3e), (8, 6, 0x28, 0x3e), (16, 6, 0x28, 0x3e), (24, 6, 0x28, 0x3e)]⟩,
   ⟨0x240, 0x1, 1, 0x1, 1, .ro, 0x0, 0xffffffff, 0x0, []⟩,
   ⟨0x244, 0x1, 1, 0x1, 1, .rc, 0x0, 0x0, 0x0, []⟩]

def rows063 : List RegRow :=
  [⟨0x40, 0x4, 32, 0x1, 1, .rw, 0x3fff, 0x0, 0x0, [(10, 4, 0xd, 0xf)]⟩,
   ⟨0xc0, 0x1, 1, 0x1, 1, .ro, 0x0, 0xffffffff, 0x0, []⟩,
   ⟨0xc4, 0x1, 1, 0x1, 1, .ro, 0x0, 0x0, 0x0, []⟩,
   ⟨0xc8, 0x1, 1, 0x1, 1, .ro, 0x0, 0x0, 0x0, []⟩,
   ⟨0xcc, 0x1, 1, 0x1, 1, .ro, 0x0, 0x0, 0x0, []⟩,
   ⟨0xd0, 0x1, 1, 0x1, 1, .ro, 0x0, 0x0, 0x0, []⟩]

def rows064 : List RegRow :=
  [⟨0x40, 0x20, 8, 0x1, 1, .rw, 0x7f, 0x0, 0x0, []⟩,
   ⟨0x44, 0x20, 8, 0x1, 1, .rw, 0xffffff, 0x0, 0x0, []⟩,
   ⟨0x48, 0x20, 8, 0x1, 1, .ro, 0x0, 0x0, 0x0, []⟩,
   ⟨0x4c, 0x20, 8, 0x1, 1, .ro, 0x0, 0x0, 0x0, []⟩,
   ⟨0x50, 0x20, 8, 0x1, 1, .ro, 0x0, 0x0, 0x0, []⟩,
   ⟨0x54, 0x20, 8, 0x1, 1, .rc, 0x0, 0x0, 0x0, []⟩,
   ⟨0x58, 0x20, 8, 0x1, 1, .ro, 0x0, 0x0, 0x0, []⟩,
   ⟨0x140, 0x10, 8, 0x1, 1, .rw, 0x13f, 0x0, 0x0, []⟩,
   ⟨0x144, 0x10, 8, 0x1, 1, .ro, 0x0, 0x0, 0x0, []⟩,
   ⟨0x148, 0x10, 8, 0x1, 1, .ro, 0x0, 0x0, 0x0, []⟩,
   ⟨0x14c, 0x10, 8, 0x1, 1, .wo, 0x3, 0x0, 0x0, []⟩,
   ⟨0x1c0, 0x4, 8, 0x1, 1, .ro, 0x0, 0x0, 0x0, []⟩]

def rows070a : List RegRow :=
  [⟨0x40, 0x1, 1, 0x1, 1, .rw, 0xf, 0x0, 0x0, [(2, 2, 0x3, 0x3)]⟩,
   ⟨0x44, 0x1, 1, 0x1, 1, .wo, 0x3, 0x0, 0x0, []⟩,
   ⟨0x48, 0x1, 1, 0x1, 1, .ro, 0x0, 0x0, 0x0, []⟩,
   ⟨0x4c, 0x1, 1, 0x1, 1, .rw, 0xff0f03ff, 0x0, 0x100301f4, [(0, 10, 0x0, 0x0), (0, 10, 0x3e9, 0x3ff)]⟩,
   ⟨0x50, 0x1, 1, 0x1, 1, .rw, 0xffffff, 0x0, 0x10000, []⟩,
   ⟨0x54, 0x1, 1, 0x1, 1, .rc, 0x0, 0x0, 0x0, []⟩,
   ⟨0x58, 0x1, 1, 0x1, 1, .rc, 0x0, 0x0, 0x0, []⟩,
   ⟨0x5c, 0x1, 1, 0x1, 1, .rc, 0x0, 0x0, 0x0, []⟩,
   ⟨0x60, 0x1, 1, 0x1, 1, .rc, 0x0, 0x0, 0x0, []⟩,
   ⟨0x64, 0x1, 1, 0x1, 1, .rc, 0x0, 0x0, 0x0, []⟩,
   ⟨0x68, 0x1, 1, 0x1, 1, .ro, 0x0, 0x0, 0x0, []⟩,
   ⟨0x6c, 0x1, 1, 0x1, 1, .rw, 0x3fff, 0x0, 0x5f2, [(0, 14, 0x0, 0x3f), (0, 14, 0x2581, 0x3fff)]⟩]

def rows070b : List RegRow :=
  [⟨0x70, 0x1, 1, 0x1, 1, .rw, 0xffffffff, 0x0, 0x0, []⟩,
   ⟨0x74, 0x1, 1, 0x1, 1, .rw, 0xffff, 0x0, 0x0, []⟩,
   ⟨0x78, 0x1, 1, 0x1, 1, .rc, 0x0, 0x0, 0x0, []⟩,
   ⟨0x7c, 0x1, 1, 0x1, 1, .rc, 0x0, 0x0, 0x0, []⟩,
   ⟨0x80, 0x1, 1, 0x1, 1, .rc, 0x0, 0x0, 0x0, []⟩,
   ⟨0x84, 0x1, 1, 0x1, 1, .rc, 0x0, 0x0, 0x0, []⟩,
   ⟨0x88, 0x1, 1, 0x1, 1, .rw, 0xfffff, 0x0, 0x0, []⟩,
   ⟨0x8c, 0x1, 1, 0x1, 1, .rw, 0xfffff, 0x0, 0x0, []⟩]

def rows074 : List RegRow :=
  [⟨0x90, 0x1, 1, 0x1, 1, .rw, 0xffff, 0x0, 0x88b6, []⟩,
   ⟨0x94, 0x1, 1, 0x1, 1, .rc, 0x0, 0x0, 0x0, []⟩]

def rows078a : List RegRow :=
  [⟨0x40, 0x1, 1, 0x1, 1, .rw, 0x1fffff, 0x0, 0x0, []⟩,
   ⟨0x44, 0x1, 1, 0x1, 1, .rw, 0xfff, 0x0, 0x12c, [(0, 12, 0x0, 0x0)]⟩,
   ⟨0x48, 0x1, 1, 0x1, 1, .rw, 0xffffffff, 0x0, 0x0, []⟩,
   ⟨0x4c, 0x1, 1, 0x1, 1, .rw, 0xffff, 0x0, 0x0, []⟩,
   ⟨0x50, 0x1, 1, 0x1, 1, .rw, 0xf, 0x0, 0x3, [(0, 4, 0x7, 0xf)]⟩,
   ⟨0x54, 0x1, 1, 0x1, 1, .rw, 0xffffffff, 0x0, 0x76543210, []⟩,
   ⟨0x58, 0x1, 1, 0x1, 1, .wo, 0xffff, 0x0, 0x0, []⟩,
   ⟨0x5c, 0x4, 4, 0x1, 1, .rw, 0xffffffff, 0x0, 0x0, []⟩,
   ⟨0x6c, 0x1, 1, 0x1, 1, .wo, 0xfff3, 0x0, 0x0, []⟩,
   ⟨0x70, 0x4, 2, 0x1, 1, .rw, 0x1fffff, 0x0, 0x0, []⟩,
   ⟨0x80, 0x4, 21, 0x1, 1, .rw, 0xffff1fff, 0x0, 0x1, []⟩,
   ⟨0x100, 0x10, 8, 0x1, 1, .rw, 0xff7ffff0, 0x0, 0x0, []⟩]

def rows078b : List RegRow :=
  [⟨0x104, 0x10, 8, 0x1, 1, .rw, 0xffffffff, 0x0, 0x0, []⟩,
   ⟨0x108, 0x10, 8, 0x1, 1, .rw, 0xff7ffff0, 0x0, 0x0, []⟩,
   ⟨0x10c, 0x10, 8, 0x1, 1, .wo, 0xffff, 0x0, 0x0, []⟩,
   ⟨0x180, 0x4, 8, 0x1, 1, .rc, 0x0, 0x0, 0x0, []⟩]

def rows079a : List RegRow :=
  [⟨0x40, 0x1, 1, 0x1, 1, .rw, 0x7f0000, 0x0, 0x0, []⟩,
   ⟨0x44, 0x1, 1, 0x1, 1, .rw, 0xf7fffff, 0x0, 0x0, []⟩,
   ⟨0x48, 0x1, 1, 0x1, 1, .rw, 0xffffff, 0x0, 0x0, []⟩,
   ⟨0x4c, 0x1, 1, 0x1, 1, .rw, 0xff, 0x0, 0x0, []⟩,
   ⟨0x50, 0x1, 1, 0x1, 1, .wo, 0x3, 0x0, 0x0, []⟩,
   ⟨0x58, 0x1, 1, 0x1, 1, .rw, 0xffffffff, 0x0, 0x0, [(28, 2, 0x3, 0x3)]⟩,
   ⟨0x60, 0x1, 1, 0x1, 1, .rw, 0x3ffff, 0x0, 0x0, []⟩,
   ⟨0x54, 0x4, 4, 0x1, 1, .rw, 0xffffffff, 0x0, 0x0, []⟩,
   ⟨0x100, 0x20, 20, 0x1, 1, .rw, 0x800001ff, 0x0, 0x0, []⟩,
   ⟨0x104, 0x20, 20, 0x1, 1, .rw, 0xffffffff, 0x0, 0x0, []⟩,
   ⟨0x108, 0x20, 20, 0x1, 1, .rw, 0xffffffff, 0x0, 0x0, []⟩,
   ⟨0x10c, 0x20, 20, 0x1, 1, .rw, 0xffffffff, 0x0, 0x0, []⟩]

def rows079b : List RegRow :=
  [⟨0x110, 0x20, 20, 0x1, 1, .ro, 0x0, 0x0, 0x0, []⟩]

def rows07Aa : List RegRow :=
  [⟨0x40, 0x1, 1, 0x1, 1, .rw, 0x1ffff, 0x0, 0x88b5, []⟩,
   ⟨0x44, 0x1, 1, 0x1, 1, .rw, 0xfffffe00, 0x0, 0x0, []⟩,
   ⟨0x48, 0x1, 1, 0x1, 1, .rw, 0xffff, 0x0, 0x0, []⟩,
   ⟨0x4c, 0x1, 1, 0x1, 1, .rw, 0xf0fffff, 0x0, 0x3002710, [(0, 20, 0x0, 0x3e7), (0, 20, 0xf4241, 0xfffff), (24, 4, 0x0, 0x0)]⟩,
   ⟨0x50, 0x1, 1, 0x1, 1, .rc, 0x0, 0x0, 0x0, []⟩,
   ⟨0x54, 0x1, 1, 0x1, 1, .ro, 0x0, 0x0, 0x0, []⟩,
   ⟨0x58, 0x1, 1, 0x1, 1, .rw, 0x1ff, 0x0, 0x0, []⟩,
   ⟨0x5c, 0x1, 1, 0x1, 1, .ro, 0x0, 0x1, 0x0, []⟩,
   ⟨0x60, 0x1, 1, 0x1, 1, .rc, 0x0, 0x0, 0x0, []⟩,
   ⟨0x64, 0x1, 1, 0x1, 1, .rc, 0x0, 0x0, 0x0, []⟩,
   ⟨0x68, 0x1, 1, 0x1, 1, .rc, 0x0, 0x0, 0x0, []⟩,
   ⟨0x6c, 0x1, 1, 0x1, 1, .rc, 0x0, 0x0, 0x0, []⟩]

def rows07Ab : List RegRow :=
  [⟨0x100, 0x40, 16, 0x1, 1, .rw, 0xffffffff, 0x0, 0x0, []⟩,
   ⟨0x104, 0x40, 16, 0x1, 1, .rw, 0xffffffff, 0x0, 0x0, []⟩,
   ⟨0x108, 0x40, 16, 0x4, 4, .rw, 0xffffffff, 0x0, 0x0, []⟩,
   ⟨0x118, 0x40, 16, 0x1, 1, .wo, 0xf0fff, 0x0, 0x0, []⟩,
   ⟨0x11c, 0x40, 16, 0x1, 1, .ro, 0x0, 0x0, 0x0, []⟩,
   ⟨0x120, 0x40, 16, 0x4, 2, .ro, 0x0, 0x0, 0x0, []⟩]

def rows07B : List RegRow :=
  [⟨0x40, 0x4, 22, 0x1, 1, .rw, 0x7f, 0x0, 0x0, []⟩,
   ⟨0xc0, 0x1, 1, 0x1, 1, .rw, 0x1ff, 0x0, 0x0, []⟩,
   ⟨0xc4, 0x1, 1, 0x1, 1, .wo, 0x3, 0x0, 0x0, []⟩,
   ⟨0xc8, 0x1, 1, 0x1, 1, .rw, 0x8000001f, 0x0, 0x0, []⟩,
   ⟨0xc8, 0x4, 4, 0x1, 1, .rw, 0xffffffff, 0x0, 0x0, []⟩,
   ⟨0xd8, 0x1, 1, 0x1, 1, .rw, 0xffffffff, 0x0, 0xc0000000, []⟩,
   ⟨0xdc, 0x1, 1, 0x1, 1, .rw, 0xffffffff, 0x0, 0x0, []⟩,
   ⟨0xe0, 0x1, 1, 0x1, 1, .rw, 0x3fffffff, 0x0, 0x0, []⟩,
   ⟨0xe4, 0x4, 3, 0x1, 1, .rc, 0x0, 0x0, 0x0, []⟩]

def rows07C : List RegRow :=
  [⟨0x40, 0x20, 16, 0x1, 1, .rw, 0x3fff, 0x0, 0x0, []⟩,
   ⟨0x44, 0x20, 16, 0x1, 1, .rw, 0xffffffff, 0x0, 0x200808, []⟩,
   ⟨0x48, 0x20, 16, 0x1, 1, .rw, 0x3fff, 0x0, 0x5f2, [(0, 14, 0x0, 0x3f), (0, 14, 0x2581, 0x3fff)]⟩,
   ⟨0x4c, 0x20, 16, 0x1, 1, .rw, 0xfffff, 0x0, 0x0, []⟩,
   ⟨0x50, 0x20, 16, 0x1, 1, .rw, 0xfffff, 0x0, 0x0, []⟩,
   ⟨0x54, 0x20, 16, 0x1, 1, .ro, 0x0, 0x0, 0x0, []⟩,
   ⟨0x58, 0x20, 16, 0x1, 1, .rc, 0x0, 0x0, 0x0, []⟩,
   ⟨0x5c, 0x20, 16, 0x1, 1, .rc, 0x0, 0x0, 0x0, []⟩]

def rows080 : List RegRow :=
  [⟨0x40, 0x1, 1, 0x1, 1, .rw, 0x3, 0x0, 0x0, []⟩,
   ⟨0x44, 0x1, 1, 0x1, 1, .ro, 0x0, 0x0, 0x0, []⟩,
   ⟨0x48, 0x1, 1, 0x1, 1, .rw, 0xfffff, 0x0, 0x2710, [(0, 20, 0x0, 0x3e7), (0, 20, 0xf4241, 0xfffff)]⟩,
   ⟨0x4c, 0x4, 2, 0x1, 1, .rc, 0x0, 0x0, 0x0, []⟩,
   ⟨0x54, 0x1, 1, 0x1, 1, .ro, 0x0, 0x0, 0x0, []⟩,
   ⟨0x58, 0x1, 1, 0x1, 1, .ro, 0x0, 0x0, 0x0, []⟩,
   ⟨0x100, 0x4, 64, 0x1, 1, .rw, 0x77f, 0x0, 0x0, []⟩]

def rows090a : List RegRow :=
  [⟨0x40, 0x1, 1, 0x1, 1, .rw, 0x1f, 0x0, 0x1, [(0, 2, 0x2, 0x2)]⟩,
   ⟨0x44, 0x1, 1, 0x1, 1, .wo, 0xffff0f0f, 0x0, 0x0, []⟩,
   ⟨0x48, 0x1, 1, 0x1, 1, .ro, 0x0, 0x1, 0x0, []⟩,
   ⟨0x4c, 0x1, 1, 0x1, 1, .ro, 0x0, 0x7, 0x0, []⟩,
   ⟨0x50, 0x1, 1, 0x1, 1, .rc, 0x0, 0x0, 0x0, []⟩,
   ⟨0x54, 0x1, 1, 0x1, 1, .rw, 0xffff000f, 0x0, 0x0, []⟩,
   ⟨0x58, 0x1, 1, 0x1, 1, .rw, 0xff, 0x0, 0x0, []⟩,
   ⟨0x5c, 0x1, 1, 0x1, 1, .rw, 0xffffffff, 0x0, 0x0, []⟩,
   ⟨0x60, 0x4, 4, 0x1, 1, .rw, 0xffffffff, 0x0, 0x0, []⟩,
   ⟨0x100, 0x10, 16, 0x1, 1, .rw, 0x3, 0x0, 0x0, []⟩,
   ⟨0x104, 0x10, 16, 0x1, 1, .ro, 0x0, 0x80000000, 0x0, []⟩,
   ⟨0x108, 0x10, 16, 0x1, 1, .wo, 0x7f, 0x0, 0x0, []⟩]

def rows090b : List RegRow :=
  [⟨0x10c, 0x10, 16, 0x1, 1, .ro, 0x0, 0x80000000, 0x0, []⟩,
   ⟨0x200, 0x4, 16, 0x1, 1, .wo, 0x7f, 0x0, 0x0, []⟩,
   ⟨0x400, 0x40, 16, 0x4, 16, .rw, 0xffffffff, 0x0, 0x0, []⟩,
   ⟨0x800, 0x40, 16, 0x4, 16, .rw, 0xffffffff, 0x0, 0x0, []⟩]

def rows0A0a : List RegRow :=
  [⟨0x40, 0x1, 1, 0x1, 1, .ro, 0x0, 0x0, 0x0, []⟩,
   ⟨0x44, 0x1, 1, 0x1, 1, .ro, 0x0, 0x0, 0x1, []⟩,
   ⟨0x48, 0x1, 1, 0x1, 1, .rc, 0x0, 0x0, 0x0, []⟩,
   ⟨0x4c, 0x1, 1, 0x1, 1, .wo, 0xffff, 0x0, 0x0, []⟩,
   ⟨0x50, 0x1, 1, 0x1, 1, .ro, 0x0, 0x0, 0x0, []⟩,
   ⟨0x54, 0x1, 1, 0x1, 1, .ro, 0x0, 0x0, 0x0, []⟩,
   ⟨0x58, 0x1, 1, 0x1, 1, .ro, 0x0, 0x0, 0x0, []⟩,
   ⟨0x5c, 0x1, 1, 0x1, 1, .rw, 0x3f, 0x0, 0x0, []⟩,
   ⟨0x60, 0x1, 1, 0x1, 1, .ro, 0x0, 0x0, 0x0, []⟩,
   ⟨0x64, 0x1, 1, 0x1, 1, .wo, 0xffffffff, 0x0, 0x0, []⟩,
   ⟨0x68, 0x1, 1, 0x1, 1, .wo, 0xffff0007, 0x0, 0x0, []⟩,
   ⟨0x6c, 0x1, 1, 0x1, 1, .wo, 0x3f, 0x0, 0x0, []⟩]

def rows0A0b : List RegRow :=
  [⟨0x70, 0x4, 12, 0x1, 1, .ro, 0x0, 0x0, 0x0, []⟩]

def rows0A1 : List RegRow :=
  [⟨0x40, 0x1, 1, 0x1, 1, .rw, 0x1f, 0x0, 0x0, []⟩,
   ⟨0x44, 0x1, 1, 0x1, 1, .wo, 0x7, 0x0, 0x0, []⟩,
   ⟨0x60, 0x4, 8, 0x1, 1, .wo, 0xffffffff, 0x0, 0x0, []⟩,
   ⟨0x80, 0x4, 3, 0x1, 1, .wo, 0xffffffff, 0x0, 0x0, []⟩,
   ⟨0x100, 0x4, 32, 0x1, 1, .ro, 0x0, 0x0, 0x0, []⟩]

def rows0B0a : List RegRow :=
  [⟨0x40, 0x1, 1, 0x1, 1, .rw, 0xffff0007, 0x0, 0x0, []⟩,
   ⟨0x44, 0x1, 1, 0x1, 1, .ro, 0x0, 0x0, 0x0, []⟩,
   ⟨0x48, 0x1, 1, 0x1, 1, .wo, 0xffff, 0x0, 0x0, []⟩,
   ⟨0x4c, 0x1, 1, 0x1, 1, .wo, 0xffff, 0x0, 0x0, []⟩,
   ⟨0x50, 0x1, 1, 0x1, 1, .wo, 0xffff, 0x0, 0x0, []⟩,
   ⟨0x54, 0x1, 1, 0x1, 1, .ro, 0x0, 0x0, 0x0, []⟩,
   ⟨0x58, 0x1, 1, 0x1, 1, .wo, 0x107, 0x0, 0x0, []⟩,
   ⟨0x5c, 0x1, 1, 0x1, 1, .wo, 0xffff, 0x0, 0x0, []⟩,
   ⟨0x60, 0x1, 1, 0x1, 1, .rw, 0xffff7f03, 0x0, 0x0, []⟩,
   ⟨0x64, 0x1, 1, 0x1, 1, .rw, 0x7ffff0, 0x0, 0x0, []⟩,
   ⟨0x68, 0x1, 1, 0x1, 1, .rw, 0x7ffff0, 0x0, 0x0, []⟩,
   ⟨0x6c, 0x1, 1, 0x1, 1, .ro, 0x0, 0x0, 0x0, []⟩]

def rows0B0b : List RegRow :=
  [⟨0x70, 0x1, 1, 0x1, 1, .rc, 0x0, 0x0, 0x0, []⟩,
   ⟨0x74, 0x1, 1, 0x1, 1, .ro, 0x0, 0x7, 0x0, []⟩,
   ⟨0x78, 0x1, 1, 0x1, 1, .wo, 0x3ffff, 0x0, 0x0, []⟩,
   ⟨0x80, 0x10, 8, 0x1, 1, .rw, 0x807f03ff, 0x0, 0x0, [(0, 8, 0x8, 0xff), (8, 2, 0x3, 0x3)]⟩,
   ⟨0x84, 0x10, 8, 0x1, 1, .rw, 0xffffffff, 0x0, 0x0, []⟩,
   ⟨0x88, 0x10, 8, 0x1, 1, .rw, 0xffffffff, 0x0, 0x0, []⟩,
   ⟨0x8c, 0x10, 8, 0x1, 1, .ro, 0x0, 0x0, 0x0, []⟩,
   ⟨0x100, 0x10, 8, 0x1, 1, .rw, 0x807f03ff, 0x0, 0x0, [(0, 8, 0x7, 0xff), (8, 2, 0x3, 0x3)]⟩,
   ⟨0x104, 0x10, 8, 0x1, 1, .rw, 0xffffffff, 0x0, 0x0, []⟩,
   ⟨0x108, 0x10, 8, 0x1, 1, .rw, 0xffffffff, 0x0, 0x0, []⟩,
   ⟨0x10c, 0x10, 8, 0x1, 1, .ro, 0x0, 0x0, 0x0, []⟩,
   ⟨0x180, 0x1, 1, 0x1, 1, .rw, 0x7, 0x0, 0x0, []⟩]

def rows0B0c : List RegRow :=
  [⟨0x184, 0x1, 1, 0x1, 1, .ro, 0x0, 0xff, 0x0, []⟩,
   ⟨0x188, 0x1, 1, 0x1, 1, .rw, 0x7, 0x0, 0x0, []⟩,
   ⟨0x18c, 0x1, 1, 0x1, 1, .ro, 0x0, 0xff, 0x0, []⟩,
   ⟨0x190, 0x1, 1, 0x1, 1, .ro, 0x0, 0x0, 0x0, []⟩,
   ⟨0x194, 0x1, 1, 0x1, 1, .ro, 0x0, 0x0, 0x0, []⟩]

/-- The rows of page `p` from offset 0x040 on (R535). -/
def pageRows (p : Nat) : List RegRow :=
  if p = 0x0 then rows000
  else if p = 0x1 then rows001
  else if p = 0x2 then rows002
  else if p = 0x3 then rows003a ++ rows003b
  else if p = 0x4 then rows004
  else if p = 0x5 then rows005
  else if p = 0x10 then rows010
  else if 0x11 ≤ p ∧ p ≤ 0x14 then rows011
  else if p = 0x15 then rows015
  else if p = 0x16 then rows016
  else if p = 0x17 then rows017
  else if 0x20 ≤ p ∧ p ≤ 0x2f then rows020a ++ rows020b ++ rows020c
  else if p = 0x40 then rows040
  else if p = 0x41 then rows041
  else if 0x50 ≤ p ∧ p ≤ 0x53 then rows050
  else if 0x60 ≤ p ∧ p ≤ 0x61 then rows060a ++ rows060b
  else if p = 0x62 then rows062
  else if p = 0x63 then rows063
  else if p = 0x64 then rows064
  else if 0x70 ≤ p ∧ p ≤ 0x75 then (if 0x74 ≤ p then rows074 else []) ++ rows070a ++ rows070b
  else if 0x74 ≤ p ∧ p ≤ 0x75 then rows074
  else if p = 0x78 then rows078a ++ rows078b
  else if p = 0x79 then rows079a ++ rows079b
  else if p = 0x7a then rows07Aa ++ rows07Ab
  else if p = 0x7b then rows07B
  else if p = 0x7c then rows07C
  else if p = 0x80 then rows080
  else if p = 0x90 then rows090a ++ rows090b
  else if p = 0xa0 then rows0A0a ++ rows0A0b
  else if p = 0xa1 then rows0A1
  else if p = 0xb0 then rows0B0a ++ rows0B0b ++ rows0B0c
  else []

/-- The page index of R535: first page, number of pages of the class, `PAGE_CAP` and the reset value of `PAGE_PRIV.MINPL`. -/
def pageIndexA : List (Nat × Nat × Nat × Nat) :=
  [(0x0, 1, 0x1, 0), (0x1, 1, 0x5, 3), (0x2, 1, 0x1, 3), (0x3, 1, 0x1, 3), (0x4, 1, 0x1, 3), (0x5, 1, 0x5, 3), (0x10, 1, 0x1, 3), (0x11, 4, 0x300, 3), (0x15, 2, 0x102, 3), (0x17, 1, 0x0, 3), (0x20, 16, 0xf01, 3), (0x40, 1, 0x3, 3), (0x41, 1, 0x1, 3), (0x50, 4, 0x301, 3), (0x60, 2, 0x105, 3)]

def pageIndexB : List (Nat × Nat × Nat × Nat) :=
  [(0x62, 1, 0x5, 3), (0x63, 1, 0x5, 3), (0x64, 1, 0x5, 3), (0x70, 6, 0x501, 3), (0x78, 1, 0x1, 3), (0x79, 1, 0x0, 3), (0x7a, 1, 0x1, 3), (0x7b, 1, 0x1, 3), (0x7c, 1, 0x1, 3), (0x80, 1, 0x1, 3), (0x90, 1, 0x1, 0), (0xa0, 1, 0x1, 3), (0xa1, 1, 0x1, 3), (0xb0, 1, 0x1, 3)]

/-- The index row of a page number, if it has a page (R528, R535). -/
def pageInfo (p : Nat) : Option (Nat × Nat × Nat × Nat) :=
  (pageIndexA ++ pageIndexB).find? fun x => decide (x.1 ≤ p) && decide (p < x.1 + x.2.1)

/-- Has page number `p` a page? -/
def pageExists (p : Nat) : Bool := (pageInfo p).isSome

/-- `PAGE_ID` of R530: CLASS, INSTANCE, LAYOUT. -/
def pageId (p : Nat) : Nat :=
  match pageInfo p with
  | some (c, _, _, _) => c * 0x10000 + (p - c) * 0x100 + 1
  | none => 0

/-- `PAGE_CAP` of R531. -/
def pageCap (p : Nat) : Nat :=
  match pageInfo p with
  | some (_, _, c, _) => c
  | none => 0

/-- The row of the register at offset `o` of page `p`, from 0x040 on. -/
def regRow (p o : Nat) : Option RegRow := (pageRows p).find? fun r => r.has o

/-- Offsets of the common header (R530). -/
abbrev Reg.hLock : Nat := 0x0C
abbrev Reg.hCtrl : Nat := 0x10
abbrev Reg.hStat : Nat := 0x14
abbrev Reg.hEvtRaw : Nat := 0x18
abbrev Reg.hEvtEn : Nat := 0x1C
abbrev Reg.hEvtPend : Nat := 0x20
abbrev Reg.hFault : Nat := 0x24
abbrev Reg.hFaultInfo : Nat := 0x28
abbrev Reg.hPriv : Nat := 0x2C

/-- The reset value of the register at key `k` (R12, R537). -/
def regReset (k : Nat) : Word :=
  let p := k / 0x4000
  let o := k % 0x4000
  if o < 0x40 then
    if o = Reg.hPriv then
      match pageInfo p with
      | some (_, _, _, m) => BitVec.ofNat 32 m
      | none => 0
    else 0
  else
    match regRow p o with
    | some r => BitVec.ofNat 32 r.reset
    | none => 0

end Sys2Proof.Machine
end

