-- ==== Sys2Proof/Machine/Types.lean ====
section
/-! DEFINITION. The parts of the state that no register page holds, for the engines, the tasks, the pairs, the event router,
the timebase and the scratchpad (R57 to R89, R172 to R220, R235 to R241, R313 to R341). -/
namespace Sys2Proof.Machine

/-- Task states of R172. -/
inductive TaskSt where
  | idle | ready | running | waiting | halted
  deriving DecidableEq, Repr

/-- The wait instructions of R120. -/
inductive WaitKind where
  | wfe | wfex | waitt
  deriving DecidableEq, Repr

/-- Why the wait of a task that is no longer Waiting is over (R180): the event flag or the time. -/
inductive Wake where
  | event | time
  deriving DecidableEq, Repr

/-- An entry the scheduler has accepted for a task and not yet pushed (R177, R181, R541); `wait` is the wait that the push
completes, if the task accepted it while Waiting. -/
structure Held where
  entry : Entry128
  wait  : Option WaitKind
  deriving DecidableEq, Repr

/-- One hardware task's context (R73) and scheduler state (R172, R179, R183, R184). Caches are newest entry first. -/
structure TaskCtx where
  ds       : List Entry128 := []
  rs       : List Entry128 := []
  v        : Tab Entry128 := []
  p        : Tab (BitVec 16) := []
  pc       : Word := 0
  tstat    : Word := 0
  astat    : Word := 0
  lc       : Word := 0
  vix      : Word := 0
  vcfg     : Word := 0
  dsp      : Word := 0
  dsbase   : Word := 0
  dslim    : Word := 0
  rsp      : Word := 0
  rsbase   : Word := 0
  rslim    : Word := 0
  ssavePc  : Word := 0
  ssaveStat : Word := 0
  scause   : Word := 0
  sinfo    : Word := 0
  /-- The governing PREC while a write of it is pending (R89). -/
  precLive : Bool := false
  /-- The governing VCFG while a write of it is pending (R89). -/
  vcfgLive : Word := 0
  st       : TaskSt := .idle
  evf      : Bool := false
  byp      : Bool := false
  bypPort  : Nat := 0
  /-- Order stamp of the moment the task became Ready (R174). -/
  readyAt  : Nat := 0
  /-- The wait instruction a Waiting task executes, or whose completion its dispatch performs. -/
  wait     : Option WaitKind := none
  woke     : Option Wake := none
  held     : List Held := []
  /-- Tail-chained entries and their priorities, oldest first (R183, R209). -/
  chain    : List (Entry128 × Nat) := []
  /-- A STOP or HALT (true: HALT) waiting for the Running task's switch point (R173). -/
  req      : Option Bool := none
  dbgHalt  : Bool := false
  deriving DecidableEq, Repr

/-- A pending imprecise `ARITH` (R160): conditions, address of the first raiser, base steps issued since. -/
structure Arith where
  conds  : BitVec 6
  addr   : Nat
  issued : Nat
  deriving DecidableEq, Repr

/-- One entry of an engine's priority stack, or a selection (R204, R206). -/
structure RStk where
  src  : Nat
  task : Nat
  prio : Nat
  deriving DecidableEq, Repr

/-- An atomic of a Twin pair that waits for its release (R540): operation byte, width in bytes, address, new value, expected
value, operands to pop, encoded length, base steps, and the length of the `REP` it is an iteration of (0: none). -/
structure TwinAtomic where
  op    : BitVec 8
  bytes : Nat
  addr  : Nat
  val   : Entry128
  exp   : Entry128
  pops  : Nat
  len   : Nat
  base  : Nat
  rep   : Nat := 0
  deriving DecidableEq, Repr

/-- One engine: machine stacks, engine-scope control words (R84), pending writes (R89), what it executes, its priority stack
and its debug state. A pair in Twin keeps its state at the even engine. -/
structure Engine where
  mds      : List Entry128 := []
  mrs      : List Entry128 := []
  mdsp     : Word := 0x1000
  mrsp     : Word := 0x800
  svec     : Word := 0
  msavePc  : Word := 0
  msaveStat : Word := 0
  mcause   : Word := 0
  minfo    : Word := 0
  mvec     : Word := 0x30000400
  deleg    : Word := 0
  mstk     : Word := 0
  svecLive : Word := 0
  mvecLive : Word := 0x30000400
  delegLive : Word := 0
  /-- Region registers with a pending write and the values that govern until it is applied (R233). -/
  regOld   : List (Nat × Word) := []
  /-- The Running task, or the last one (R188). -/
  cur      : Nat := 0
  run      : Bool := false
  /-- Halted after a double fault (R164). -/
  df       : Bool := false
  arith    : Option Arith := none
  /-- The PC is a vector target (level 1 or 3) whose first fetch has not been checked (R157, R164). -/
  vecFetch : Option Nat := none
  /-- A wait at PL 3 that holds the engine in place (R120). -/
  waitM    : Option WaitKind := none
  atomic   : Option TwinAtomic := none
  /-- The 32 bytes after the executing instruction and their address (R127). -/
  fpc      : Nat := 0
  fbuf     : List Byte := []
  /-- External-memory units this engine waits for, those that have arrived, and a unit whose load failed (R47, R416). -/
  extReq   : List Nat := []
  extGot   : List (Nat × List Byte) := []
  extBad   : Option Nat := none
  /-- The pair's own unreleased stores that such a load saw as it asked (R318). -/
  extOver  : List (Nat × List Byte) := []
  /-- The machine stack area the engine holds (R240). -/
  area     : Option Nat := none
  stack    : List RStk := []
  sel      : Option RStk := none
  /-- Halted by the debug module (R479), a halt asked for (R478), and a single step in progress (R481). -/
  halted   : Bool := false
  haltReq  : Bool := false
  haltWhy  : Nat := 0
  stepping : Bool := false
  /-- An execute breakpoint has halted before the next instruction, which issues without matching again (R485). -/
  bpSkip   : Bool := false
  /-- A data breakpoint with the HALT action matched inside the instruction (R485). -/
  bpHit    : Option Nat := none
  /-- The moment of the engine's own last step (R174). -/
  now      : Nat := 0
  /-- The executing instruction's adders so far: code-fetch lines, slowest region, unaligned access; and the fetch lines of the last
  instruction's bytes (R44, R45). -/
  adF      : Nat := 0
  adR      : Nat := 0
  adU      : Nat := 0
  flines   : List Nat := []
  /-- An instruction stalls: the engine stands inside it, at no switch point (R176). -/
  mid      : Bool := false
  /-- The selection was made at an `EVDONE`, for another task (R183, R209). -/
  selEv    : Bool := false
  /-- The sources that the latest latch step found the engine open for (R199). -/
  seen     : List Nat := []
  deriving DecidableEq, Repr

/-- What the release of one output performs (R317); `stores` is a vector store, whose parts need not adjoin. -/
inductive OutAct where
  | store (addr : Nat) (bytes : List Byte)
  | stores (parts : List (Nat × List Byte))
  | atomic (a : TwinAtomic)
  | page (addr : Nat) (val : Word) (pl : Nat)
  | duty (leg : Nat) (v : Word) (eng : Nat)
  | sev (d : Word)
  | post (q : Nat) (tail : BitVec 16)
  | chan (ch id : Nat) (addr : Nat) (bytes : List Byte)
  | chanRemote (ch id : Nat) (gaddr : Nat) (bytes : List Byte)
  deriving DecidableEq, Repr

/-- Output classes of R317; codes 0 to 5 are the numbered classes. -/
inductive OutCls where
  | priv | duty | shared | control | frame | mailbox | external | fabric
  deriving DecidableEq, Repr

/-- One output of a Twin pair: its class, its effect, the digest's target and data (R321) and the switch-point count of the
instruction that produced it. -/
structure Out where
  cls  : OutCls
  act  : OutAct
  tgt  : Nat
  data : List Byte
  spc  : Nat
  deriving DecidableEq, Repr

/-- One entry of the undo log (R327). -/
structure UndoEnt where
  line  : Nat
  mover : Bool
  data  : List Byte
  deriving DecidableEq, Repr

/-- A Bypass, flag or command input held for a recovering pair (R332). -/
inductive HeldIn where
  | flag (task : Nat)
  | cmd (task : Nat) (c : Nat)
  deriving DecidableEq, Repr

/-- What a Milestone image holds (R323): engine, tasks, release sequence counters, owned mover channels with their registers; the
timebase at the point, the lengths that the logs had there, and the switch-point and step counts at which it was taken. -/
structure Snap (χ : Type) where
  engine : Engine
  tasks  : List (Nat × TaskCtx)
  regs   : List (Nat × Word)
  seq    : Tab Nat
  chans  : List (Nat × χ)
  tb     : BitVec 64
  undoN  : Nat
  mvN    : Nat
  relN   : Nat
  insN   : Nat
  pgN    : Nat
  spcAt  : Nat
  stepAt : Nat
  deriving DecidableEq, Repr

/-- A scratchpad bank's power (R239): state, transition in progress or deferred, accepted request that waits, and the times of
its last corrected errors (R237). 0 on, 1 retention, 2 off. -/
structure Bank where
  cur    : Nat := 0
  going  : Option Nat := none
  begun  : Bool := false
  next   : Option Nat := none
  ces    : List Nat := []
  deriving DecidableEq, Repr

/-- The event router's own state (R194 to R212): external levels, rotation pointers and storm counts by source. -/
structure Router where
  ext   : Tab Bool := []
  rr    : Tab Nat := []
  storm : Tab Nat := []
  deriving DecidableEq, Repr

/-- The timebase (R48 to R51, R55): counter, fraction and remaining slew in units of 2^-32 ns, `TIME_HI` latch by master,
the Ready order counter of R174 and the loss of `tb_refclk` (R503). -/
structure Timebase where
  cnt  : BitVec 64 := 0
  frac : BitVec 32 := 0
  slew : Int := 0
  hi   : Tab Word := []
  lost : Bool := false
  /-- The last interpolated value shown, which no later one lies below (R251). -/
  last : BitVec 64 := 0
  /-- A step-meter window that has ended, with the highest pacing level in force in it (R43); a second that has been passed (R508). -/
  due  : Option Nat := none
  pps  : Bool := false
  deriving DecidableEq, Repr

/-- For whom the memory port makes a transfer (R412, R416). -/
inductive MpFor where
  | engine (e : Nat) | mover (ch id : Nat) | job (id : Nat)
  deriving DecidableEq, Repr

/-- One 64-byte unit transfer of the memory port (R412, R420): master, direction, window address, byte enables, data, attempts
made, for whom, tag once sent. -/
structure MpReq where
  mst   : Nat
  write : Bool
  addr  : Nat
  be    : BitVec 64
  data  : List Byte
  tries : Nat
  who   : MpFor
  tag   : Nat
  deriving DecidableEq, Repr

/-- One memory channel (R412, R413): enable, `ctl_rdy`, credits, requests waiting and outstanding in order, next tag. -/
structure MpChan where
  en     : Bool := false
  rdy    : Bool := false
  reqCrd : Nat := 0
  wdCrd  : Nat := 0
  q      : List MpReq := []
  outst  : List MpReq := []
  tag    : Nat := 0
  deriving DecidableEq, Repr

/-- Records of the Causeway (R350). -/
inductive CwRec where
  | hello (role : Bool) (ver digest : BitVec 32)
  | input (p : Nat) (e : InEntry)
  | release (p : Nat) (e : RelEntry)
  | horizon (p spc : Nat)
  | msmark (p spc : Nat) (count : BitVec 32) (tb : BitVec 64) (digest : BitVec 32)
  | line (p addr : Nat) (data : List Byte)
  | image (p off : Nat) (data : List Byte)
  | time (tb : BitVec 64)
  | ack (p spc : Nat) (count : BitVec 32)
  | resync (p : Nat)
  deriving DecidableEq, Repr

/-- The trace unit (R490): records waiting in the FIFO, the last TIME record's value, and whether a record was dropped since the
last one written. -/
structure Trace where
  fifo : List (BitVec 128) := []
  hi   : Option Word := none
  lost : Bool := false
  deriving DecidableEq, Repr

/-- The block's mode conditions (R19 to R22): the mode it holds apart from Safe Hold, Debug and Recovery, whether Safe Hold is
in force, and whether it has reached a running mode since reset. -/
structure Sys where
  base : Nat := 2
  hold : Bool := false
  ran  : Bool := false
  deriving DecidableEq, Repr

/-- One leg of the drive unit (R252, R253): switching signal, whether it has risen and fallen in this period, its two outputs,
the ticks of this period, negative in an earlier one, of its last edge and of the last turn-on, and the edges still placed in this
period, each with its direction and tick. -/
structure Leg where
  s      : Bool := false
  rose   : Bool := false
  fell   : Bool := false
  hi     : Bool := false
  lo     : Bool := false
  since  : Int := 0
  on     : Int := 0
  plan   : List (Bool × Int) := []
  deriving DecidableEq, Repr

/-- One group of the drive unit (R250 to R260): periods running, number of the current period and of the next where the grid was
re-established, cycles added by steering, the top passed, watchdog count, a commit in this period, outputs shown, and the latest
tick of this period that an event has reached. -/
structure Grp where
  going  : Bool := false
  k      : Nat := 0
  next   : Option Nat := none
  adj    : Int := 0
  top    : Bool := false
  idle   : Nat := 0
  commit : Bool := false
  shown  : Bool := false
  now    : Int := 0
  deriving DecidableEq, Repr

/-- The drive unit, the sample ports and the encoders (R248 to R283): groups, legs, loss of `drv_refclk`, the sample ports whose
`sp_req` is high, the transfer held back under `OVR` = WAIT (port, data, tag), the encoder levels and the capture FIFOs, oldest stamp first. -/
structure Drive where
  grps  : Tab Grp := []
  legs  : Tab Leg := []
  lost  : Bool := false
  req   : List Nat := []
  wait  : Option (Nat × BitVec 16 × BitVec 4) := none
  enc   : Tab (Bool × Bool) := []
  caps  : Tab (List (BitVec 64 × Bool)) := []
  deriving DecidableEq, Repr

/-- What a mover channel does next (R286, R297): load a descriptor, move data, read the LINK word, or re-read it (R299). -/
inductive ChPhase where
  | load | data | link | relink
  deriving DecidableEq, Repr

/-- A mover channel's own state (R284 to R306): what comes next, the loaded descriptor, the bytes staged, whether a burst is in
flight and the scratchpad banks it touches, whether a read or a write transfer is outstanding, and the number of the last transfer, by
which the answers of one that the channel no longer waits for are known (R302). -/
structure Chan where
  phase : ChPhase := .load
  src   : Nat := 0
  dst   : Nat := 0
  xcnt  : Nat := 0
  ycnt  : Nat := 0
  sstr  : Int := 0
  dstr  : Int := 0
  flags : Word := 0
  buf   : List Byte := []
  burst : Bool := false
  banks : List Nat := []
  outR  : Bool := false
  outW  : Bool := false
  xfer  : Nat := 0
  deriving DecidableEq, Repr

/-- The mover's paths (R291): the channels that hold one, at most four, and the channel granted last. -/
structure Paths where
  held : List Nat := []
  last : Nat := 63
  deriving DecidableEq, Repr

/-- The content of a Talloth frame apart from its link fields (R405): operation, tag, address, width and status byte, length
field, payload. -/
structure TalMsg where
  op      : Nat
  tag     : Nat
  addr    : Nat
  ws      : Nat
  len     : Nat
  payload : List Byte
  deriving DecidableEq, Repr

/-- The link to one peer node (R407): next number to send, unacknowledged frames, frames beyond the 64 that wait, whether an ACK
has arrived, next number expected, resends made, an acknowledgement owed, PEER_DOWN. -/
structure Peer where
  txNext : Nat := 1
  unack  : List (Nat × TalMsg) := []
  wait   : List TalMsg := []
  acked  : Bool := false
  rxNext : Nat := 1
  resend : Nat := 0
  ackDue : Bool := false
  down   : Bool := false
  deriving DecidableEq, Repr

/-- Who asked for a remote operation (R293, R408). -/
inductive FabWho where
  | slot (e : Nat) | mover (ch id : Nat)
  deriving DecidableEq, Repr

/-- An outstanding remote operation: tag, node, operation, width code, requester. -/
structure FabOp where
  tag  : Nat
  node : Nat
  op   : Nat
  ws   : Nat
  who  : FabWho
  deriving DecidableEq, Repr

/-- The fabric unit (R405 to R408). -/
structure Fab where
  peers : Tab Peer := []
  ops   : List FabOp := []
  db    : List (Word × Nat) := []
  deriving DecidableEq, Repr

/-- For whom a job of the memory port runs, and how it goes on: a host request (R429), a received Talloth operation (R406), an
operation that an engine's slot names at its own node (R35), or a debug access (R476). A host request without a tag has its response
discarded (R432). -/
inductive JobWho where
  | host (tag : Option Nat)
  | fabric (src : Nat) (msg : TalMsg)
  | slot (e : Nat) (msg : TalMsg)
  | debug
  deriving DecidableEq, Repr

/-- A multi-unit transfer with external memory for a master that waits for all of it: number, requester, direction, address,
bytes, units still outstanding, units read, a failure. -/
structure Job where
  id    : Nat
  who   : JobWho
  write : Bool
  addr  : Nat
  len   : Nat
  left  : List Nat
  data  : List (Nat × List Byte)
  bad   : Option Nat
  deriving DecidableEq, Repr

/-- A frame in an egress queue (R393): its bytes from DA on without FCS, and the transmit descriptor it came from. -/
structure QFrame where
  data : List Byte
  desc : Option Nat
  deriving DecidableEq, Repr

/-- A port's gate control (R399): in force, list B, length, cycle, base, position, the counter when the present
entry began, and a pending swap (list B, length, cycle, base). -/
structure Gate where
  on    : Bool := false
  listB : Bool := false
  len   : Nat := 0
  cycle : Nat := 0
  base  : Nat := 0
  idx   : Nat := 0
  since : Nat := 0
  swap  : Option (Bool × Nat × Nat × Nat) := none
  deriving DecidableEq, Repr

/-- The recovery function of a stream (R400): started, highest sequence number, history bits. -/
structure Recov where
  on   : Bool := false
  seq  : Nat := 0
  hist : Nat := 0
  deriving DecidableEq, Repr

/-- The switch and its services (R392 to R411): tables reached through windows, egress queues by port times 8 plus queue, cells in
use, kept transmit tails, gates, sequence generation and recovery, the time-sync port state, DoIP announcements left, the edge ports whose
`irq` is high (R403). -/
structure Sw where
  fdb    : Tab (BitVec 128) := []
  vlan   : Tab (BitVec 64) := []
  strm   : Tab (BitVec 128) := []
  sa     : Tab (BitVec 128) := []
  queues : Tab (List QFrame) := []
  cells  : Nat := 0
  tails  : Tab Nat := []
  gates  : Tab Gate := []
  gen    : Tab Nat := []
  recov  : Tab Recov := []
  slave  : Bool := false
  gm     : Bool := false
  ann    : Nat := 0
  irq    : List Nat := []
  deriving DecidableEq, Repr

/-- The search for alignment markers on one sublane (R378), by the number of bits received on it: matches seen while no lock is held, AM
lock, the place of the last marker that stood where it was expected, its count AMC, expected markers in a row that did not match. -/
structure AmLock where
  cand  : List Nat := []
  lock  : Bool := false
  last  : Nat := 0
  amc   : BitVec 16 := 0
  miss  : Nat := 0
  deriving DecidableEq, Repr

/-- A lane's bring-up, PCS and counters (R372 to R383): step of the attempt (0 disabled, 1 to 7 as R381 numbers them, 8 UP, 9
retired), `sig_det` and `rx_lock`, failures in a row with the signal present, the marker search by sublane, uncorrectable
codewords and corrected symbols of the AM period, the level of `phy_irq` (R379), the training command outstanding (0 none), the number of
the transmitter's next codeword and its scrambler (R373, R372), the place in the AM period of the receiver's next codeword and its
descrambler, and the blocks of the last codeword as the receiver's MAC takes them. -/
structure Lane where
  step  : Nat := 0
  sig   : Bool := false
  rxl   : Bool := false
  fails : Nat := 0
  am0   : AmLock := {}
  am1   : AmLock := {}
  unc   : Nat := 0
  ser   : Nat := 0
  irq   : Bool := false
  tr    : Nat := 0
  txN   : Nat := 0
  scr   : BitVec 58 := 0
  rxN   : Nat := 0
  dscr  : BitVec 58 := 0
  blocks : List (BitVec 66) := []
  deriving DecidableEq, Repr

/-- The mirror frames of a block (R387, R388): record bytes not yet framed, next number, unacknowledged frames with the lane each
was last sent on, an acknowledgement received, next number expected, frames held out of order, last number received intact by
lane, received bytes of a record that is not whole. -/
structure Mfr where
  tx     : List Byte := []
  txNext : Nat := 1
  unack  : List (Nat × Nat × List Byte) := []
  acked  : Bool := false
  rxNext : Nat := 1
  held   : List (Nat × List Byte) := []
  intact : Tab Nat := []
  rx     : List Byte := []
  deriving DecidableEq, Repr

/-- A slot of the key store (R469): key words and salt words; its attributes stand in `KSTAT`. -/
structure KeySlot where
  key  : List Word := []
  salt : List Word := []
  deriving DecidableEq, Repr

/-- The mirror unit (R347 to R365): the peer's HELLO, a takeover in progress, a takeover of the peer seen, the heartbeat's level. -/
structure Mir where
  hello   : Option (Bool × Word × Word) := none
  taking  : Bool := false
  deposed : Bool := false
  hb      : Bool := false
  deriving DecidableEq, Repr

/-- The fields of a mirror frame of R387 that the receiver acts on. -/
structure MirFrame where
  etype   : BitVec 16
  fseq    : Word
  aseq    : Word
  ackOnly : Bool
  nak     : Bool
  start   : Bool
  nlane   : Bool
  nseq    : Word
  payload : List Byte
  deriving DecidableEq, Repr

/-- Reset, fuses and boot (R452 to R466, R509, R510): 0 held in reset, 1 fuses being loaded, 2 beyond; `rst_n`, `por_n` and `fuse_prog_ok` low; the fuse shadow,
the next word to load and a fuse error; the boot ROM's progress: READY posted, a candidate being verified, candidates presented,
verified and failed, the timeout elapsed, the accepted image's DEBUG flag; a program cycle in progress; a key command not yet
complete; test mode, its readiness, the memory test's array and outcome. -/
structure Sec where
  phase   : Nat := 2
  rstLow  : Bool := false
  porLow  : Bool := false
  progLow : Bool := false
  shadow  : Tab Word := []
  next    : Nat := 64
  fuseErr : Bool := false
  ready   : Bool := false
  busy    : Bool := false
  count   : Nat := 0
  checked : Nat := 0
  fails   : Nat := 0
  tmo     : Bool := false
  dbg     : Bool := false
  prog    : Option (Nat × Word) := none
  keyCmd  : Bool := false
  test    : Bool := false
  tstOk   : Bool := false
  mbist   : Option Nat := none
  mbDone  : Option Bool := none
  deriving DecidableEq, Repr

/-- The power controller (R441 to R449): 0 awake, 1 asleep, 2 waking, 3 banks on again; the mode held before Sleep; the droop input
and the droop bits held; `pwr_cap`; `pwr_vack`; a wake whose `pwr_vack` is late; the banks that Sleep put in retention; the highest pacing
level in force since the last microsecond boundary (R43). -/
structure Pow where
  phase : Nat := 0
  prior : Nat := 4
  code  : BitVec 4 := 0
  held  : BitVec 4 := 0
  cap   : Nat := 0
  vack  : Bool := true
  late  : Bool := false
  slept : List Nat := []
  peak  : Nat := 0
  deriving DecidableEq, Repr

/-- A request that the host port has accepted (R427): address as sent, beats asked for or written (data, byte enables, beat CRC),
tag (none: its response is discarded, R432), request CRC. -/
structure HostReq where
  write : Bool
  addr  : BitVec 40
  beats : Nat
  data  : List (BitVec 128 × BitVec 16 × BitVec 16)
  tag   : BitVec 6
  crc   : BitVec 16
  muted : Bool := false
  deriving DecidableEq, Repr

/-- The host port (R426 to R437): `hp_port_rst_n` low; an executing command with the status it will report and whether it was
performed; the accepted requests that wait for the one being performed, oldest first. -/
structure Hst where
  low : Bool := false
  cmd : Option (Nat × Bool) := none
  q   : List HostReq := []
  deriving DecidableEq, Repr

/-- The debug module's access port (R476) and the pair being re-formed (R489): access in progress (address, write, data), its transfer
with external memory outstanding, status and data of the last completed one. -/
structure Tap where
  acc    : Option (Nat × Bool × Word) := none
  late   : Bool := false
  ref    : Option Nat := none
  sts    : Nat := 0
  data   : Word := 0
  deriving DecidableEq, Repr

/-- A Twin pair's phase (R330 to R333); a mirrored pair of a follower follows the records it receives (R353). -/
inductive PairPh where
  | live | rollback | replay | follow
  deriving DecidableEq, Repr

end Sys2Proof.Machine
end

