-- ==== Sys2Proof/Machine/State.lean ====
section
/-! DEFINITION. The whole state of the block as plain data, its faults and refusals, and the state right after reset. -/
namespace Sys2Proof.Machine

/-- No command of the block ends in a fault: every row of the table has an effect the spec gives. The one constructor is kept
for a command on an engine number that does not exist; no meaning raises it. -/
inductive Fault where
  /-- Raised by no meaning; safe. -/
  | noSuchUnit
  deriving DecidableEq, Repr

/-- Refusals. -/
inductive Refusal where
  /-- Raised by `exec` for a command whose meaning is not written yet; safe. -/
  | notModelled (mnemonic : String)
  deriving DecidableEq, Repr

/-- Things the block has put out at its ports, newest first in `Blk.out`. -/
inductive OutEvent where
  /-- A pulse on an output pin. -/
  | pulse (pin : String) (i : Nat)
  /-- An Ethernet frame sent on a switch port at a time, DA to the last payload byte. -/
  | frame (port : Nat) (data : List Byte) (ts : BitVec 64)
  /-- A gPTP Sync frame sent as grandmaster: the counter at its stamp and the PHY's delay in ps that the service adds (R385, R402). -/
  | sync (port : Nat) (tb : BitVec 64) (ps : Nat)
  /-- A message of the DoIP service (R409): payload type and user data; `0` an ARP or neighbour answer. -/
  | doip (type : Nat) (data : List Byte)
  /-- A training command to a lane's PHY (R380): 1 TRAIN, 2 ABORT. -/
  | train (k cmd : Nat)
  /-- A codeword on the parallel interface of a lane, in words of `txd`, by sublane (R377). -/
  | line (k sub : Nat) (words : List (BitVec 160))
  /-- A mirror frame sent on a mirror lane (R387), as it leaves for the PCS, without FCS. -/
  | mirror (lane : Nat) (data : List Byte)
  /-- A response of the host port (R427 to R429): tag, the status, and the read beats with status, data and beat CRC each (none for
  a write). -/
  | host (tag sts : Nat) (beats : List (Nat × BitVec 128 × BitVec 16))
  /-- A fuse program cycle (R457): word and bits. -/
  | fuse (word : Nat) (bits : Word)
  /-- The TAP shifts out a data register (R475): instruction code and value. -/
  | tap (ir : Nat) (v : BitVec 128)
  /-- A request on a memory channel: write, device address, tag, priority, master, data, byte enables, CRC. -/
  | mpReq (c : Nat) (write : Bool) (addr tag prio mst : Nat) (data : List Byte) (be : BitVec 64) (crc : BitVec 16)
  deriving DecidableEq, Repr

/-- A Twin pair's release and Milestone state (R313 to R341). Lists are oldest first, `undo` and `mv` newest first. -/
structure Pair where
  q       : List Out := []
  /-- Release sequence counters by class (R320). -/
  seq     : Tab Nat := []
  spc     : Nat := 0
  steps   : Nat := 0
  undo    : List UndoEnt := []
  /-- Lines that an owned mover channel has written (R329). -/
  mv      : List Nat := []
  rels    : List RelEntry := []
  ins     : List InEntry := []
  img     : Option (Snap Chan) := none
  pend    : Option (Snap Chan) := none
  /-- Outputs at the front of the queue that were made before the pending point (R324). -/
  older   : Nat := 0
  /-- The segment in use where it is not the pair's own (R338), the positions of the logs' oldest entries in it, and whether the free
  image is B (R326). -/
  seg     : Option Nat := none
  undoAt  : Nat := 0
  relAt   : Nat := 0
  inAt    : Nat := 0
  imgB    : Bool := false
  /-- A trigger has come that a point must answer: an interval's end, `MS_CMD.TAKE`, the first entry into a running mode, RESUMED, the entry
  of Sleep (R322, R445). -/
  take    : Bool := false
  phase   : PairPh := .live
  detSpc  : Nat := 0
  cursor  : List InEntry := []
  /-- Words of the FABRIC slots and of the OUT buffers that the pair's released writes replaced since the rollback target, newest
  first; and in a replay the words as the replayed pair has them: the message of a chaff output is formed from these (R321, R332). -/
  pg      : List (Nat × Word) := []
  shad    : List (Nat × Word) := []
  heldIn  : List HeldIn := []
  /-- Milestones committed since the RESUMED of the last mismatch, if one was met (R336). -/
  since   : Option Nat := none
  /-- Progress of the join (R349): 0 not joined, 1 wanted, 2 image and lines being sent, 3 streaming or in step. -/
  join    : Nat := 0
  /-- Primary: lines written since the last commit of a join. -/
  marked  : List Nat := []
  /-- Primary: the lag, steps issued beyond what the follower has acknowledged (Milestone count, SPC), that acknowledgement, the
  count, SPC and steps at each switch point beyond it, and a stop under R355. -/
  total   : Nat := 0
  acked   : Nat × Nat := (0, 0)
  hist    : List (Nat × Nat × Nat) := []
  lagStop : Bool := false
  /-- Follower: the latest SPC known, inputs and release entries of the interval after the next point and the latest SPC known of it,
  whether that interval has begun in the stream, the next point (SPC, count, timebase, digest), the image bytes received. -/
  hor     : Nat := 0
  nextIns : List InEntry := []
  nextRel : List RelEntry := []
  nextHor : Nat := 0
  nextOn  : Bool := false
  mark    : Option (Nat × BitVec 32 × BitVec 64 × BitVec 32) := none
  /-- Follower: the primary's digest of the point that is pending here (R353). -/
  digest  : Option (BitVec 32) := none
  imgBuf  : List (Nat × List Byte) := []
  deriving DecidableEq, Repr

/-- The block, but for the queue of waiting commands. -/
structure Blk where
  regs    : Tab Word := []
  mem     : Tab Byte := []
  /-- Condition of a 16-byte word: 0 sound, 1 correctable error, 2 corrected and waiting for its write-back, 3 uncorrectable. -/
  ecc     : Tab (BitVec 2) := []
  banks   : Tab Bank := []
  /-- The bank that each spare is being filled for (R237). -/
  copying : Tab Nat := []
  engines : Tab Engine := []
  tasks   : Tab TaskCtx := []
  pairs   : Tab Pair := []
  router  : Router := {}
  drive   : Drive := {}
  chans   : Tab Chan := []
  paths   : Paths := {}
  fab     : Fab := {}
  sw      : Sw := {}
  lanes   : Tab Lane := []
  mir     : Mir := {}
  sec     : Sec := {}
  pow     : Pow := {}
  hst     : Hst := {}
  tap     : Tap := {}
  mfr     : Mfr := {}
  keys    : Tab KeySlot := []
  jobs    : List Job := []
  jobNext : Nat := 0
  tb      : Timebase := {}
  sys     : Sys := {}
  trc     : Trace := {}
  /-- Causeway records that wait for a mirror frame (R387, R388). -/
  cwq     : List CwRec := []
  mp      : Tab MpChan := []
  mpRst   : Bool := true
  /-- Counter of the free values (an opaque function of it answers them). -/
  free    : Nat := 0
  /-- Counter of the moments at which tasks become Ready (R174). -/
  stamp   : Nat := 0
  out     : List OutEvent := []
  deriving DecidableEq, Repr

/-- The block and the commands that wait, first in, first out. -/
structure State where
  pending : List Instr := []
  blk     : Blk := {}
  deriving DecidableEq, Repr

/-- The default of a task that is not listed: its state after reset, where task 0 of each engine is at PL 3 (R79). (DESIGN CHOICE, log 4). (DEDUCED, log 25). -/
def taskReset (k : Nat) : TaskCtx := if k % 64 = 0 then { tstat := 3 } else {}

/-- The state after reset: Boot, with task 0 of engine 0 Running for pair P0 at PL 3 in the boot ROM (R25, R79, R186, R455). (DESIGN CHOICE, log 8). -/
def State.reset : State :=
  { blk := { engines := [(0, { run := true, cur := 0 })]
             tasks := [(0, { tstat := 3, pc := 0x30000000, st := .running })] } }

/-- Every meaning answers through this: the block's next state, the queue untouched. -/
def State.done (s : State) (b : Blk) : Host.Outcome State Fault Refusal := .next { s with blk := b }

end Sys2Proof.Machine
end

