-- ==== Sys2Proof/Machine/Ops.lean ====
section
/-! DEFINITION. The named operations over registers, memory, modes and numbered units that the meanings are written with. -/
namespace Sys2Proof.Machine

/-! Fields of words. -/

/-- The `n`-bit field of `w` whose lowest bit is `lo`. -/
def fld (w : Word) (lo n : Nat) : Nat := w.toNat / 2 ^ lo % 2 ^ n

/-- `w` with the `n`-bit field at `lo` holding `v`. -/
def putFld (w : Word) (lo n v : Nat) : Word :=
  BitVec.ofNat 32 (w.toNat - fld w lo n * 2 ^ lo + v % 2 ^ n * 2 ^ lo)

/-- Bit `i` of a word. -/
def tbit (w : Word) (i : Nat) : Bool := w.toNat.testBit i

/-- The word with bit `i` set. -/
def orBit (w : Word) (i : Nat) : Word := w ||| BitVec.ofNat 32 (2 ^ i)

/-- The word with bit `i` clear. -/
def andBit (w : Word) (i : Nat) : Word := w &&& ~~~ (BitVec.ofNat 32 (2 ^ i))

/-- The little-endian value of a byte string (R6). -/
def leNat : List Byte → Nat
  | [] => 0
  | b :: t => b.toNat + 256 * leNat t

/-- The `n` bytes of a value, least significant first (R6). -/
def toLe : Nat → Nat → List Byte
  | 0, _ => []
  | n + 1, v => BitVec.ofNat 8 v :: toLe n (v / 256)

/-- The big-endian value of a byte string. -/
def beNat (l : List Byte) : Nat := leNat l.reverse

/-- The `n` bytes of a value, most significant first. -/
def toBe (n v : Nat) : List Byte := (toLe n v).reverse

/-! Registers of the pages. -/

/-- The word stored for the register at key `k`. -/
def Blk.reg (b : Blk) (k : Nat) : Word := Tab.get regReset b.regs k

/-- Store a register's word. -/
def Blk.setReg (b : Blk) (k : Nat) (v : Word) : Blk := { b with regs := Tab.set regReset b.regs k v }

/-- A field of a stored register. -/
def Blk.rf (b : Blk) (k lo n : Nat) : Nat := fld (b.reg k) lo n

/-- A bit of a stored register. -/
def Blk.rb (b : Blk) (k i : Nat) : Bool := tbit (b.reg k) i

/-- Write a field of a stored register. -/
def Blk.setF (b : Blk) (k lo n v : Nat) : Blk := b.setReg k (putFld (b.reg k) lo n v)

/-- Set a bit of a stored register. -/
def Blk.setBit (b : Blk) (k i : Nat) : Blk := b.setReg k (orBit (b.reg k) i)

/-- Clear a bit of a stored register. -/
def Blk.clrBit (b : Blk) (k i : Nat) : Blk := b.setReg k (andBit (b.reg k) i)

/-- Set bit `i` of the page's `EVT_RAW` (R530). -/
def Blk.event (b : Blk) (page i : Nat) : Blk := b.setBit (regKey page Reg.hEvtRaw) i

/-- Set bit `i` of the page's `FAULT` (R530). -/
def Blk.flt (b : Blk) (page i : Nat) : Blk := b.setBit (regKey page Reg.hFault) i

/-- Add 1 to the `n`-bit counter field at `lo` of a register, saturating. -/
def Blk.count (b : Blk) (k lo n : Nat) : Blk :=
  if b.rf k lo n + 1 < 2 ^ n then b.setF k lo n (b.rf k lo n + 1) else b

/-- `EVT_PEND` of a page (R530). -/
def Blk.evtPend (b : Blk) (page : Nat) : Word := b.reg (regKey page Reg.hEvtRaw) &&& b.reg (regKey page Reg.hEvtEn)

/-- Something leaves the block at its ports. -/
def Blk.emit (b : Blk) (o : OutEvent) : Blk := { b with out := o :: b.out }

/-- A fresh free value (a value the spec leaves open). (DESIGN CHOICE, log 5). -/
def Blk.freeVal (b : Blk) : BitVec 128 := Config.freeWord b.free

/-- Move on to the next free value. (DESIGN CHOICE, log 5). -/
def Blk.freeNext (b : Blk) : Blk := { b with free := b.free + 1 }

/-! Memory bytes. -/

/-- The byte held at a local address. (DESIGN CHOICE, log 3). -/
def Blk.byte (b : Blk) (a : Nat) : Byte := Tab.get (fun _ => (0 : Byte)) b.mem a

/-- Write one byte. -/
def Blk.setByte (b : Blk) (a : Nat) (v : Byte) : Blk := { b with mem := Tab.set (fun _ => (0 : Byte)) b.mem a v }

/-- The `n` bytes from address `a` on. -/
def Blk.bytes (b : Blk) (a : Nat) : Nat → List Byte
  | 0 => []
  | n + 1 => b.byte a :: b.bytes (a + 1) n

/-- Write a byte string at address `a`. -/
def Blk.setBytes (b : Blk) (a : Nat) : List Byte → Blk
  | [] => b
  | v :: t => (b.setByte a v).setBytes (a + 1) t

/-! Engines, tasks, pairs, banks, channels. -/

/-- Engine `e`'s record. -/
def Blk.eng (b : Blk) (e : Nat) : Engine := Tab.get (fun _ => {}) b.engines e

/-- Replace engine `e`'s record. -/
def Blk.setEng (b : Blk) (e : Nat) (x : Engine) : Blk := { b with engines := Tab.put b.engines e x }

/-- Task `t` of engine `e`. -/
def Blk.task (b : Blk) (e t : Nat) : TaskCtx := Tab.get taskReset b.tasks (e * 64 + t)

/-- Replace task `t` of engine `e`. -/
def Blk.setTask (b : Blk) (e t : Nat) (x : TaskCtx) : Blk := { b with tasks := Tab.put b.tasks (e * 64 + t) x }

/-- Pair `p`'s record. -/
def Blk.pair (b : Blk) (p : Nat) : Pair := Tab.get (fun _ => {}) b.pairs p

/-- Replace pair `p`'s record. -/
def Blk.setPair (b : Blk) (p : Nat) (x : Pair) : Blk := { b with pairs := Tab.put b.pairs p x }

/-- Scratchpad bank `k`'s power record. -/
def Blk.bank (b : Blk) (k : Nat) : Bank := Tab.get (fun _ => {}) b.banks k

/-- Replace bank `k`'s power record. -/
def Blk.setBank (b : Blk) (k : Nat) (x : Bank) : Blk := { b with banks := Tab.put b.banks k x }

/-- Memory channel `c`. -/
def Blk.chan (b : Blk) (c : Nat) : MpChan := Tab.get (fun _ => {}) b.mp c

/-- Replace memory channel `c`. -/
def Blk.setChan (b : Blk) (c : Nat) (x : MpChan) : Blk := { b with mp := Tab.put b.mp c x }

/-- Is pair `p` in Twin (R313)? -/
def Blk.twin (b : Blk) (p : Nat) : Bool := b.rb Reg.pairCfg p

/-- `SAFETY.TWIN` bits of pair `p` (R343). -/
def Blk.broken (b : Blk) (p : Nat) : Bool := b.rb Reg.twin p
def Blk.recovering (b : Blk) (p : Nat) : Bool := b.rb Reg.twin (8 + p)
def Blk.retired (b : Blk) (p : Nat) : Bool := b.rb Reg.twin (16 + p)

/-- Do the two engines of pair `p` run as one: in Twin and not broken by the debugger (R313, R488)? (DESIGN CHOICE, log 18). -/
def Blk.joined (b : Blk) (p : Nat) : Bool := b.twin p && !(b.broken p)

/-- The engine whose record holds engine `e`'s state: the even one of a pair that runs as one. (DESIGN CHOICE, log 18). -/
def Blk.lead (b : Blk) (e : Nat) : Nat := if b.joined (e / 2) then e / 2 * 2 else e

/-! Modes (R19 to R30). -/

/-- The pages' numbers used most. -/
abbrev pgGlobal : Nat := 0x000
abbrev pgSafety : Nat := 0x002
abbrev pgScratch : Nat := 0x040

/-- `GLOBAL.MODE.CUR`. -/
def Blk.mode (b : Blk) : Nat := b.rf Reg.mode 0 4

/-- Is a resource retired (R27 DEGRADED, R337)? -/
def Blk.degraded (b : Blk) : Bool :=
  decide (b.rf Reg.twin 16 8 ≠ 0) || decide (b.reg Reg.retNet ≠ 0) || decide (b.reg Reg.retSp ≠ 0) ||
  decide (b.reg (Reg.faulty 0) ≠ 0) || decide (b.reg (Reg.faulty 1) ≠ 0) || decide (b.reg (Reg.faulty 2) ≠ 0) ||
  decide (b.reg Reg.pbFaulty ≠ 0) || decide (b.reg (Reg.chRet 0) ≠ 0) || decide (b.reg (Reg.chRet 1) ≠ 0) ||
  decide (b.reg (Reg.chRet 2) ≠ 0) || decide (b.reg (Reg.chRet 3) ≠ 0)

/-- Is a pair rolling back or replaying? -/
def Blk.anyRecovering (b : Blk) : Bool := decide (b.rf Reg.twin 8 8 ≠ 0)

/-- Is an engine halted by the debug module? -/
def Blk.anyHalted (b : Blk) : Bool := b.engines.any fun x => x.2.halted

/-- The mode that R20 displays. (DEDUCED, log 160). -/
def Blk.shownMode (b : Blk) : Nat :=
  if b.sys.base = 0 ∨ b.sys.base = 1 then b.sys.base
  else if b.sys.hold then 9
  else if b.sys.base = 0xA then b.sys.base
  else if b.anyHalted then 0xB
  else if b.sys.base = 2 ∨ b.sys.base = 3 then b.sys.base
  else if b.anyRecovering && decide (b.sys.base ≠ 7) then 8
  else if b.sys.base = 4 ∧ b.degraded then 5
  else b.sys.base

/-- Bring `GLOBAL.MODE` to the displayed mode, keeping the mode before in PREV and raising MODE_CHG (R20, R25, R30,
R435). -/
def Blk.showMode (b : Blk) : Blk :=
  let m := b.shownMode
  if m = b.mode then b
  else (((b.setF Reg.mode 4 4 b.mode).setF Reg.mode 0 4 m).event pgGlobal 0).setBit Reg.hattn 0

/-- A transient fault is counted (R337, R342). -/
def Blk.transient (b : Blk) : Blk := b.count Reg.transCnt 0 16

/-- Sleep entry in progress is abandoned for a reason of R445. (DEDUCED, log 102). -/
def Blk.sleepAbort (b : Blk) (why : Nat) : Blk :=
  if b.rb Reg.pwrStat 8 then ((b.clrBit Reg.pwrStat 8).setBit Reg.pwrStat 3).setF Reg.pwrStat 4 4 why else b

/-- A permanent fault retires a resource, whose own bit the caller has set (R337, R435, R445). -/
def Blk.permanent (b : Blk) : Blk := (((((b.flt pgSafety 1).event pgSafety 1).setBit Reg.hattn 1).sleepAbort 5)).showMode

/-! Lifecycle (R456, R458, R459, R477). -/

/-- A word of the fuse shadow. (DESIGN CHOICE, log 6). -/
def Blk.fuse (b : Blk) (i : Nat) : Word := Tab.get (fun _ => (0 : Word)) b.sec.shadow i

/-- The lifecycle state: 0 BLANK, 1 DEVELOPMENT, 2 PRODUCTION, 3 RETURNED. -/
def Blk.lifecycle (b : Blk) : Nat :=
  if b.sec.fuseErr then 2
  else if tbit (b.fuse 8) 2 then 3 else if tbit (b.fuse 8) 1 then 2 else if tbit (b.fuse 8) 0 then 1 else 0

/-- Is debug open? -/
def Blk.dbgOpen (b : Blk) : Bool := decide (b.lifecycle ≠ 2) || b.sec.dbg

/-- May sequenced outputs leave: in a running mode, not as follower, not in Safe Hold (R14, R19, R317, R339)? (DEDUCED, log 24). -/
def Blk.seqOpen (b : Blk) : Bool := decide (4 ≤ b.sys.base) && decide (b.sys.base ≠ 7) && !b.sys.hold

/-- A sequenced output is discarded; in Safe Hold it is counted (R339). (DEDUCED, log 24). -/
def Blk.seqDrop (b : Blk) : Blk := if b.sys.hold then b.count Reg.blockedCnt 0 16 else b

/-! Addresses (R31 to R34, R221, R229). -/

/-- What an address names. -/
inductive Place where
  | scratch | setAlias | clrAlias | packet | page | rom | ext | nowhere
  deriving DecidableEq, Repr

/-- The part of the address map that address `a` lies in. -/
def place (a : Nat) : Place :=
  if a < 0x1800000 then .scratch
  else if 0x4000000 ≤ a ∧ a < 0x5800000 then .setAlias
  else if 0x8000000 ≤ a ∧ a < 0x9800000 then .clrAlias
  else if 0x10000000 ≤ a ∧ a < 0x10800000 then .packet
  else if 0x20000000 ≤ a ∧ a < 0x20400000 then (if pageExists ((a - 0x20000000) / 0x4000) then .page else .nowhere)
  else if 0x30000000 ≤ a ∧ a < 0x30040000 then .rom
  else if 0x2000000000 ≤ a ∧ a < 0x4000000000 then .ext
  else .nowhere

/-- The scratchpad address that an address names, itself or through an alias. -/
def unalias (a : Nat) : Nat :=
  match place a with
  | .setAlias => a - 0x4000000
  | .clrAlias => a - 0x8000000
  | _ => a

/-- The first bank and the number of banks of the Milestone reserved area (R326). -/
def Blk.areaBase (b : Blk) : Nat := b.rf Reg.area 0 7
def Blk.areaBanks (b : Blk) : Nat := 4 * 2 ^ b.rf Reg.area 8 2

/-- Does scratchpad bank `k` hold a part of the reserved area? -/
def Blk.inArea (b : Blk) (k : Nat) : Bool := decide (b.areaBase ≤ k) && decide (k < b.areaBase + b.areaBanks)

/-- Is bank `k` named exclusive to pair `p` (R315)? -/
def Blk.exclBit (b : Blk) (p k : Nat) : Bool := b.rb (Reg.excl p (k / 32)) (k % 32)

/-- Has a spare taken over pair `p` (R338)? -/
def Blk.migrated (b : Blk) (p : Nat) : Bool := b.rb Reg.twin 27 && decide (b.rf Reg.twin 24 3 = p)

/-- The pair in Twin to which bank `k` is exclusive; none until the block first enters a running mode (R315, R466). The masks of a pair
whose tasks a spare has taken over are the spare's (R338). -/
def Blk.owner (b : Blk) (k : Nat) : Option Nat :=
  if b.sys.ran then (List.range 8).find? fun p => b.twin p && !(b.migrated p) && b.exclBit p k else none

/-- Is scratchpad bank `k` on: neither in retention, nor off, nor in a transition that has begun (R239, R241)? -/
def Blk.bankOn (b : Blk) (k : Nat) : Bool :=
  decide ((b.bank k).cur = 0) && !((b.bank k).begun)

/-! Regions (R231 to R234). -/

/-- The governing value of a region register of master `m` (R233). -/
def Blk.regionReg (b : Blk) (m k : Nat) : Word :=
  if m < 16 then
    match (b.eng (b.lead m)).regOld.find? fun x => x.1 == k with
    | some x => x.2
    | none => b.reg k
  else b.reg k

/-- The kinds of access that a region grants. -/
inductive Acs where
  | load | store | atomic | fetch
  deriving DecidableEq, Repr

/-- Does region `r` of master `m` grant the access to the 4 KiB granule `gr` at level `pl`? -/
def Blk.regionGrants (b : Blk) (m pl : Nat) (k : Acs) (gr r : Nat) : Bool :=
  let mm := if m < 16 ∧ b.twin (m / 2) = true then m / 2 * 2 else m
  let lo := b.regionReg mm (Reg.regLo mm r)
  let hi := b.regionReg mm (Reg.regHi mm r)
  tbit lo 28 && decide (fld lo 0 28 ≤ gr) && decide (gr ≤ fld hi 0 28) &&
  (decide (16 ≤ mm) || decide (fld lo 29 2 ≤ pl)) &&
  (match k with
   | .load => tbit hi 28
   | .store => tbit hi 29
   | .atomic => tbit hi 28 && tbit hi 29
   | .fetch => tbit hi 30)

/-- Some region of master `m` grants the access to the byte at `a`. -/
def Blk.granted (b : Blk) (m pl : Nat) (k : Acs) (a : Nat) : Bool :=
  (List.range 16).any fun r => b.regionGrants m pl k (unalias a / 4096) r

/-- Check 2 of R113 for one byte, for master `m` at level `pl`; `own` is the pair whose exclusive banks the master may write
(an engine's or a mover channel's pair). -/
def Blk.admits (b : Blk) (m pl : Nat) (own : Option Nat) (k : Acs) (a : Nat) : Bool :=
  let u := unalias a
  let wr := decide (k = .store) || decide (k = .atomic)
  match place a with
  | .page | .rom | .nowhere => true
  | .packet | .ext => (decide (m < 16) && decide (pl = 3) && decide (k ≠ .fetch)) || b.granted m pl k a
  | _ =>
    !(b.inArea (u / 0x40000)) &&
    (match b.owner (u / 0x40000) with
     | none => true
     | some p => !wr || decide (own = some p) || (decide (m = 20) && b.broken p)) &&
    ((decide (m < 16) && decide (pl = 3) && decide (k ≠ .fetch)) || b.granted m pl k a)

/-- A denial of a non-engine master is recorded (R234). -/
def Blk.deny (b : Blk) (m : Nat) (wr : Bool) (a : Nat) : Blk :=
  let b := if b.rb Reg.denyInfo 31 then b
    else ((b.setReg Reg.denyAddrLo (BitVec.ofNat 32 a)).setReg Reg.denyAddrHi (BitVec.ofNat 32 (a / 2 ^ 32))).setReg
      Reg.denyInfo (BitVec.ofNat 32 (2 ^ 31 + (if wr then 256 else 0) + m))
  (b.count Reg.denyCnt 0 16).event 0x041 0

end Sys2Proof.Machine
end

