-- ==== Sys2Proof/Machine/Codes.lean ====
section
/-! DEFINITION. The cyclic codes the spec names: the 16-bit code of the memory and host ports (R415, R428) and CRC-32C (R321). -/
namespace Sys2Proof.Machine

/-- One bit of the code with polynomial 0x8BB7, most significant bit first. -/
def crc16Bit (c : BitVec 16) : BitVec 16 := if c.msb then (c <<< 1) ^^^ 0x8BB7 else c <<< 1

/-- Eight bits of it. -/
def crc16Byte (c : BitVec 16) (v : Byte) : BitVec 16 :=
  let c := c ^^^ (v.setWidth 16 <<< 8)
  crc16Bit (crc16Bit (crc16Bit (crc16Bit (crc16Bit (crc16Bit (crc16Bit (crc16Bit c)))))))

/-- The code of a byte string, initial value 0, no final XOR (R415). -/
def crc16 (l : List Byte) : BitVec 16 := l.foldl crc16Byte 0

/-- One bit of CRC-32C, reflected. -/
def crc32cBit (c : Word) : Word := if c.getLsbD 0 then (c >>> 1) ^^^ 0x82F63B78 else c >>> 1

/-- Eight bits of it. -/
def crc32cByte (c : Word) (v : Byte) : Word :=
  let c := c ^^^ v.setWidth 32
  crc32cBit (crc32cBit (crc32cBit (crc32cBit (crc32cBit (crc32cBit (crc32cBit (crc32cBit c)))))))

/-- CRC-32C of a byte string (R321). -/
def crc32c (l : List Byte) : Word := l.foldl crc32cByte 0xFFFFFFFF ^^^ 0xFFFFFFFF

end Sys2Proof.Machine
end

