-- ==== Sys2Proof/Machine/Encoding.lean ====
section
/-! DEFINITION. The byte form of an engine's instructions (R90 to R94, R101 to R106, R139, R142): prefixes in their order, the lead
byte, the page opcode, the operand bytes, the 12-byte bound, and the fields that must be zero. -/
namespace Sys2Proof.Machine

/-- The opcode pages: the core table, the page of lead byte 0xF0, and those of the prefixes 0xE6 and 0xE7 (R91, R92). -/
inductive EncPage where
  | core | float | vector | system
  deriving DecidableEq, Repr

/-- One row of the opcode tables: page, first and last opcode, the width prefixes accepted as bits 0 to 4 for `.B` to `.Q`, operand
bytes, whether it is a literal (1: `LXH` accepted, 2: `LX` too), and for each operand byte the bits that must be zero. -/
structure EncRow where
  page   : EncPage
  lo     : Nat
  hi     : Nat
  widths : Nat := 0
  nops   : Nat := 0
  lit    : Nat := 0
  zero   : List Nat := []
  deriving DecidableEq, Repr

/-- R101 to R103: `B` to `Q` is 31, `W` `D` `Q` 28, `B` to `D` 15. -/
def coreRows : List EncRow :=
  [{ page := .core, lo := 0x00, hi := 0x0F }, { page := .core, lo := 0x10, hi := 0x2F, widths := 31 },
   { page := .core, lo := 0x30, hi := 0x31 }, { page := .core, lo := 0x32, hi := 0x37, widths := 31 },
   { page := .core, lo := 0x38, hi := 0x38 }, { page := .core, lo := 0x39, hi := 0x39, widths := 31 },
   { page := .core, lo := 0x40, hi := 0x4E }, { page := .core, lo := 0x50, hi := 0x52, widths := 28 },
   { page := .core, lo := 0x58, hi := 0x5D },
   { page := .core, lo := 0x80, hi := 0x80, nops := 1, lit := 1 }, { page := .core, lo := 0x81, hi := 0x81, nops := 1 },
   { page := .core, lo := 0x82, hi := 0x86, widths := 31, nops := 1 }, { page := .core, lo := 0x87, hi := 0x8A, nops := 1 },
   { page := .core, lo := 0xC0, hi := 0xC0, nops := 2, lit := 1 }, { page := .core, lo := 0xC1, hi := 0xC1, nops := 4, lit := 2 },
   { page := .core, lo := 0xC2, hi := 0xC5, nops := 2 }, { page := .core, lo := 0xC6, hi := 0xC7, nops := 4 },
   { page := .core, lo := 0xC8, hi := 0xC9, nops := 2, zero := [0, 0xF0] },
   { page := .core, lo := 0xCA, hi := 0xCA, widths := 31, nops := 2 }, { page := .core, lo := 0xCB, hi := 0xCB, widths := 15, nops := 2 },
   { page := .core, lo := 0xCC, hi := 0xCC, widths := 31, nops := 2 }]

/-- R105 and R106: `H` `W` `D` is 14. -/
def pageRowsFS : List EncRow :=
  [{ page := .float, lo := 0x00, hi := 0x0C, widths := 14 }, { page := .float, lo := 0x0D, hi := 0x0D, nops := 1 },
   { page := .float, lo := 0x0E, hi := 0x0E, widths := 14 }, { page := .system, lo := 0x00, hi := 0x08 }]

/-- R139 and R142, each opcode range with its form: A, B, I, M, G, C, X, D, P, Q. -/
def vectorRows : List EncRow :=
  let a := fun lo hi => ({ page := .vector, lo := lo, hi := hi, nops := 2 } : EncRow)
  let b := fun lo hi => ({ page := .vector, lo := lo, hi := hi, nops := 2, zero := [0, 0xF0] } : EncRow)
  let m := fun lo hi => ({ page := .vector, lo := lo, hi := hi, nops := 1 } : EncRow)
  let g := fun lo hi => ({ page := .vector, lo := lo, hi := hi, nops := 2, zero := [0, 0x0F] } : EncRow)
  let c := fun lo hi => ({ page := .vector, lo := lo, hi := hi, nops := 2, zero := [0, 0x80] } : EncRow)
  let p := fun lo hi z => ({ page := .vector, lo := lo, hi := hi, nops := 2, zero := [0x88, z] } : EncRow)
  [m 0x00 0x06, g 0x07 0x08, a 0x10 0x14, b 0x15 0x17, a 0x18 0x20,
   { page := .vector, lo := 0x21, hi := 0x23, nops := 3, zero := [0, 0xF0, 0] }, b 0x24 0x24, a 0x25 0x25, a 0x28 0x2B, a 0x30 0x35,
   b 0x36 0x36, a 0x37 0x38, b 0x39 0x3C, c 0x40 0x46, m 0x50 0x50,
   { page := .vector, lo := 0x51, hi := 0x52, nops := 1, zero := [0x0F] }, a 0x53 0x53, m 0x54 0x57, p 0x60 0x62 0x8F,
   p 0x63 0x63 0xFF, { page := .vector, lo := 0x64, hi := 0x68, nops := 1, zero := [0x8F] }]

/-- The row of an opcode, none where it is reserved. -/
def encRow (p : EncPage) (op : Nat) : Option EncRow :=
  (coreRows ++ pageRowsFS ++ vectorRows).find? fun r => decide (r.page = p) && decide (r.lo ≤ op) && decide (op ≤ r.hi)

/-- The prefixes read so far: bytes, place in the order of R92, `REP`, width (1 to 5), `LXH`, `LX`. -/
structure EncPre where
  count : Nat := 0
  order : Nat := 0
  rep   : Bool := false
  width : Nat := 0
  lxh   : Bool := false
  lx    : Bool := false
  deriving DecidableEq, Repr

/-- An instruction as its bytes spell it: prefixes, page, opcode, operand bytes, length. -/
structure Enc where
  pre  : EncPre
  page : EncPage
  op   : Nat
  args : List Byte
  len  : Nat
  deriving DecidableEq, Repr

/-- A prefix byte joins those before it: none where it is reserved, repeated or out of order (R92, R94). -/
def EncPre.add (x : EncPre) (v : Nat) : Option EncPre :=
  let n := x.count + 1
  if v = 0xE0 ∧ x.order < 1 then some { x with count := n, order := 1, rep := true }
  else if 0xE1 ≤ v ∧ v ≤ 0xE5 ∧ x.order < 2 then some { x with count := n, order := 2, width := v - 0xE0 }
  else if v = 0xE9 ∧ x.order < 3 then some { x with count := n, order := 3, lxh := true }
  else if v = 0xE8 ∧ x.order < 4 then some { x with count := n, order := 4, lx := true }
  else none

/-- An opcode behind its prefixes and `k` bytes of page and opcode, with the bytes after it (R91, R93, R94). -/
def encOp (x : EncPre) (p : EncPage) (op k : Nat) (l : List Byte) : Option Enc :=
  match encRow p op with
  | none => none
  | some r =>
    let n := if x.lx then 8 else r.nops
    let args := l.take n
    let len := x.count + k + n
    if (x.width ≠ 0 ∧ r.widths.testBit (x.width - 1) = false) ∨ (x.lxh = true ∧ r.lit = 0) ∨ (x.lx = true ∧ r.lit < 2) ∨ 12 < len ∨
        args.length < n ∨ (List.zipWith (fun (v : Byte) z => v.toNat &&& z) args r.zero).any (fun v => v != 0) = true then none
    else some ⟨x, p, op, args, len⟩

/-- The instruction that a string of bytes begins with, none where R94 refuses it; `k` bounds the prefixes. -/
def encBytes (x : EncPre) (l : List Byte) : Nat → Option Enc
  | 0 => none
  | k + 1 =>
    match l with
    | [] => none
    | v :: t =>
      let bare := decide (x.width = 0) && !x.lxh && !x.lx
      if v = 0xE6 ∨ v = 0xE7 then
        match t with
        | o :: t => if bare then encOp x (if v = 0xE6 then .vector else .system) o.toNat 2 t else none
        | [] => none
      else if 0xE0 ≤ v ∧ v ≤ 0xEF then
        match x.add v.toNat with
        | some y => encBytes y t k
        | none => none
      else if v = 0xF0 then
        match t with
        | o :: t => encOp x .float o.toNat 2 t
        | [] => none
      else if 0xF0 < v then none
      else encOp x .core v.toNat 1 t

/-- The instruction that the bytes at the PC spell (R90). -/
def encDecode (l : List Byte) : Option Enc := encBytes {} (l.take 12) 5

end Sys2Proof.Machine
end

