-- ==== Sys2Proof/Machine/TimeOps.lean ====
section
/-! DEFINITION. The timebase: one edge of its clock, loads, slews and rate corrections (R48 to R53), and the interpolated
timebase (R251, R515). -/
namespace Sys2Proof.Machine

/-- The increment INC in units of 2^-32 ns (R48). -/
def Blk.incUnits (b : Blk) : Nat := b.rf Reg.incNs 0 8 * 2 ^ 32 + (b.reg Reg.incFrac).toNat

/-- The effective increment E (R48): INC × (1 + `RATE_ADJ` / 2^32), rounded down. -/
def Blk.effInc (b : Blk) : Nat := ((b.incUnits : Int) * (2 ^ 32 + (b.reg Reg.rateAdj).toInt) / 2 ^ 32).toNat

/-- The slew step of one edge (R49). -/
def Blk.slewStep (b : Blk) : Int :=
  let s : Int := (b.incUnits / 16 : Nat)
  let m : Int := (b.tb.slew.natAbs : Int)
  let k := if s ≤ m then s else m
  if b.tb.slew < 0 then -k else k

/-- Counter and fraction as one value, after one edge. -/
def Blk.nextTb (b : Blk) : Nat :=
  (((b.tb.cnt.toNat * 2 ^ 32 + b.tb.frac.toNat + b.effInc : Nat) : Int) + b.slewStep).toNat

/-- One rising edge of `tb_refclk` (R48, R49). -/
def Blk.tbEdge (b : Blk) : Blk :=
  { b with tb := { b.tb with
    cnt := BitVec.ofNat 64 (b.nextTb / 2 ^ 32), frac := BitVec.ofNat 32 b.nextTb, slew := b.tb.slew - b.slewStep } }

/-- The interpolated timebase (R251): the counter plus 2 ns for each `drv_refclk` edge since the last `tb_refclk` edge, a number
that the phase of the two clocks fixes and the spec leaves open, below the counter's next value and never decreasing. Without
`drv_refclk` it is the counter (R515). (DESIGN CHOICE, log 59). -/
def Blk.interp (b : Blk) : BitVec 64 :=
  if b.drive.lost then b.tb.cnt
  else
    let room := (b.nextTb / 2 ^ 32 - b.tb.cnt.toNat + 1) / 2
    let v := b.tb.cnt.toNat + 2 * (b.freeVal.toNat % Nat.max 1 room)
    BitVec.ofNat 64 (Nat.max v (if b.tb.cnt.toNat ≤ b.tb.last.toNat then b.tb.last.toNat else 0))

/-- The interpolated timebase has been read. (DESIGN CHOICE, log 59). -/
def Blk.noteInterp (b : Blk) : Blk := { b with tb := { b.tb with last := b.interp }, free := b.free + 1 }

end Sys2Proof.Machine
end

