-- ==== Sys2Proof/Machine/DriveOps.lean ====
section
/-! DEFINITION. The drive timing unit, the sample ports, trips, encoders and captures (R248 to R283), and changes of the held
mode, which the drive unit follows at once (R260, R264). -/
namespace Sys2Proof.Machine

/-! Groups and legs. -/

/-- Group `g`'s record. -/
def Blk.grp (b : Blk) (g : Nat) : Grp := Tab.get (fun _ => {}) b.drive.grps g

/-- Replace group `g`'s record. -/
def Blk.setGrp (b : Blk) (g : Nat) (x : Grp) : Blk :=
  { b with drive := { b.drive with grps := Tab.put b.drive.grps g x } }

/-- Leg `n`'s record. -/
def Blk.leg (b : Blk) (n : Nat) : Leg := Tab.get (fun _ => {}) b.drive.legs n

/-- Replace leg `n`'s record. -/
def Blk.setLeg (b : Blk) (n : Nat) (x : Leg) : Blk :=
  { b with drive := { b.drive with legs := Tab.put b.drive.legs n x } }

/-- `GSTAT.STATE` of group `g`: 0 DISABLED, 1 RUN, 2 SAFE, 3 ARMING (R260). -/
def Blk.gState (b : Blk) (g : Nat) : Nat := b.rf (Reg.gstat g) 0 2

/-- `GCTRL.EN` of group `g`. -/
def Blk.gEn (b : Blk) (g : Nat) : Bool := b.rb (Reg.gctrlReg g) 0

/-- `START` of group `g`. -/
def Blk.gStart (b : Blk) (g : Nat) : Nat := (b.reg (Reg.startLo g)).toNat + (b.reg (Reg.startHi g)).toNat * 2 ^ 32

/-- The grid point of period `k` (R251). -/
def Blk.gridAt (b : Blk) (g k : Nat) : Nat := b.gStart g + k * 2 * b.rf (Reg.pcnt g) 0 20

/-- The period in ticks (R250). -/
def Blk.gP (b : Blk) (g : Nat) : Nat := 25 * b.rf (Reg.pcnt g) 0 20

/-- The active compare value of leg `n`. -/
def Blk.legC (b : Blk) (n : Nat) : Nat := b.rf (Reg.cmpAct (n / 3) (n % 3)) 0 25

/-- The length of the current period in ticks, steering included (R251). -/
def Blk.gLen (b : Blk) (g : Nat) : Int := (b.gP g : Int) + 25 * (b.grp g).adj

/-- The tick of the top (R250). -/
def Blk.gTop (b : Blk) (g : Nat) : Nat := b.gP g / 2

/-- Where the switching signal rises and falls under compare value `c` (R252). -/
def Blk.risePos (b : Blk) (n c : Nat) : Nat := if b.rb (Reg.gctrlReg (n / 3)) 1 then (b.gP (n / 3) - c) / 2 else 0
def Blk.fallPos (b : Blk) (n c : Nat) : Nat := if b.rb (Reg.gctrlReg (n / 3)) 1 then (b.gP (n / 3) - c) / 2 + c else c

/-- Is the switching signal high from the period's start under compare value `c` (R252)? -/
def Blk.startsHigh (b : Blk) (n c : Nat) : Bool :=
  if b.rb (Reg.gctrlReg (n / 3)) 1 then decide (b.gP (n / 3) ≤ c) else decide (0 < c)

/-- Does latched trip input `k` name group `g` (R261)? -/
def Blk.tripNames (b : Blk) (g : Nat) : Bool :=
  (List.range 32).any fun k => b.rb Reg.tlatch k && b.rb (Reg.tcfg k) g

/-- The safe pattern of leg `n` (R261). -/
def Blk.safePat (b : Blk) (n : Nat) : Nat := b.rf (Reg.legcfg (n / 3)) (2 * (n % 3)) 2

/-- Turn off the outputs of a leg that its safe pattern turns off. -/
def Blk.legSafe (b : Blk) (n : Nat) : Blk :=
  let x := b.leg n
  b.setLeg n { x with hi := x.hi && decide (b.safePat n = 1), lo := x.lo && decide (b.safePat n = 2) }

/-- Turn both outputs of a leg off. -/
def Blk.legOff (b : Blk) (n : Nat) : Blk := b.setLeg n { b.leg n with hi := false, lo := false }

/-- Discard the staged and pending values of leg `j` of group `g`. -/
def Blk.dropValues (b : Blk) (g j : Nat) : Blk := (b.setReg (Reg.cmpStg g j) 0).setReg (Reg.cmpPend g j) 0

/-- The three legs of group `g` take `f`. -/
def Blk.eachLeg (b : Blk) (g : Nat) (f : Blk → Nat → Blk) : Blk := f (f (f b (3 * g)) (3 * g + 1)) (3 * g + 2)

/-- The group becomes DISABLED (R260, R265): outputs off, values discarded, periods stopped. -/
def Blk.gDisable (b : Blk) (g : Nat) : Blk :=
  let b := b.eachLeg g fun b n => (b.setLeg n {}).setReg (Reg.cmpAct g (n % 3)) 0
  let b := (((b.dropValues g 0).dropValues g 1).dropValues g 2).setGrp g {}
  (((b.setF (Reg.gstat g) 0 2 0).setF (Reg.gstat g) 7 4 0))

/-- Entry to SAFE (R261). -/
def Blk.gSafe (b : Blk) (g : Nat) : Blk :=
  let b := ((b.dropValues g 0).dropValues g 1).dropValues g 2
  let b := (b.eachLeg g Blk.legSafe).setF (Reg.gstat g) 0 2 2
  (b.setGrp g { b.grp g with shown := false }).event (0x060 + g / 4) (4 + g % 4)

/-- ARMING begins (R260). -/
def Blk.gArm (b : Blk) (g : Nat) : Blk := ((b.setF (Reg.gstat g) 0 2 3).setF (Reg.gstat g) 8 3 0).eachLeg g Blk.legSafe

/-- The live safe causes of group `g` as `GSTAT` shows them (R261). -/
def Blk.gCauses (b : Blk) (g : Nat) : Blk :=
  let b := b.setF (Reg.gstat g) 2 1 (bit (b.tripNames g))
  let b := b.setF (Reg.gstat g) 3 1 (bit b.sys.hold)
  b.setF (Reg.gstat g) 4 1 (bit (b.rb (Reg.gctrlReg g) 5))

/-- Bring group `g` to the state its enable and its causes give it (R260, R261); in Safe Hold every group is SAFE, enabled or not
(R264). -/
def Blk.gUpdate (b : Blk) (g : Nat) : Blk :=
  let b := b.gCauses g
  if !(b.gEn g) && !b.sys.hold then (if b.gState g = 0 then b else b.gDisable g)
  else if b.rf (Reg.gstat g) 2 5 ≠ 0 then (if b.gState g = 2 then b.eachLeg g Blk.legSafe else b.gSafe g)
  else if b.gState g = 0 ∨ b.gState g = 2 then b.gArm g
  else if b.gState g = 3 then b.eachLeg g Blk.legSafe
  else b

/-- Bring every group up to date. -/
def Blk.driveAll (b : Blk) : Blk := (List.range 8).foldl Blk.gUpdate b

/-- May the block's mode show duties (R260, R275)? -/
def Blk.showsDuty (b : Blk) : Bool := decide (4 ≤ b.sys.base) && decide (b.sys.base ≠ 7)

/-- In Boot, Configure and Mirror Follower a group in RUN shows the off pattern (R260). -/
def Blk.driveDark (b : Blk) : Blk :=
  if b.showsDuty then b
  else (List.range 8).foldl (fun b g =>
    if (b.grp g).shown then (b.setGrp g { b.grp g with shown := false }).eachLeg g Blk.legOff else b) b

/-- Change the held mode (R20). -/
def Blk.setBase (b : Blk) (m : Nat) : Blk := { b with sys := { b.sys with base := m } }.showMode.driveDark

/-- Safe Hold is left (R261): `EN` is cleared on every group. -/
def Blk.leaveHold (b : Blk) : Blk :=
  let b := { b with sys := { b.sys with hold := false } }
  ((List.range 8).foldl (fun b g => b.clrBit (Reg.gctrlReg g) 0) b).driveAll

/-! The edges of the switching signal. -/

/-- Do the outputs of leg `n` follow its switching signal (R260)? -/
def Blk.follows (b : Blk) (n : Nat) : Bool := decide (b.gState (n / 3) = 1) && (b.grp (n / 3)).shown

/-- The earliest tick at which the pulse that is on may end: `MINPW` after its start (R253). -/
def Blk.pulseMin (b : Blk) (n : Nat) : Int :=
  let x := b.leg n
  if b.follows n && (if x.s then x.hi else x.lo) then x.on + (b.rf (Reg.dead (n / 3)) 16 16 : Nat) else 0

/-- The edges that a signal at level `s` makes of the wanted ones, in their order: none to the level it has, none before the tick `m`,
and none where the next wanted edge takes it back at the same tick or before (R253, R257). (DEDUCED, log 60). -/
def planOf : Bool → Int → List (Bool × Int) → List (Bool × Int)
  | _, _, [] => []
  | s, m, [(d, p)] => if d = s then [] else [(d, max p m)]
  | s, m, (d, p) :: (d2, p2) :: r =>
    if d = s then planOf s m ((d2, p2) :: r)
    else if d2 = s ∧ p2 ≤ max p m then planOf s m r
    else (d, max p m) :: planOf d (max p m) ((d2, p2) :: r)

/-- The edges of a whole period under the active value, none beyond a shortened period's end (R251, R252). -/
def Blk.ownEdges (b : Blk) (n : Nat) : List (Bool × Int) :=
  let c := b.legC n
  let l := b.gLen (n / 3)
  (b.startsHigh n c, 0) ::
    (if 0 < c ∧ c < b.gP (n / 3) then
      (if b.rb (Reg.gctrlReg (n / 3)) 1 then [(true, min (b.risePos n c : Int) l)] else []) ++ [(false, min (b.fallPos n c : Int) l)]
     else [])

/-- Place the edges of the period that starts (R252). -/
def Blk.legPlan (b : Blk) (n : Nat) : Blk :=
  let x := b.leg n
  b.setLeg n { x with rose := b.startsHigh n (b.legC n), fell := false, plan := planOf x.s (b.pulseMin n) (b.ownEdges n) }

/-- One edge of a signal: its level, and whether it has risen and fallen in this period. -/
def Leg.edge (x : Leg) (d : Bool) : Leg := { x with s := d, rose := x.rose || d, fell := x.fell || (!d && x.rose) }

/-- Place the edges from tick `cut` on anew under the active value; those placed before it stay (R252, R257). -/
def Blk.legReplan (b : Blk) (n : Nat) (cut : Int) : Blk :=
  let x := b.leg n
  let c := b.legC n
  let p := b.gP (n / 3)
  let kept := x.plan.takeWhile fun e => decide (e.2 < cut)
  let y := kept.foldl (fun y e => y.edge e.1) x
  let l := max cut (b.gLen (n / 3))
  let at' := fun (k : Nat) => max cut (min (k : Int) l)
  let want : List (Bool × Int) :=
    if y.s then (if !y.fell && decide (c < p) then [(false, at' (b.fallPos n c))] else [])
    else if !y.rose && decide (0 < c) then
      (true, at' (b.risePos n c)) :: (if c < p then [(false, at' (b.fallPos n c))] else [])
    else []
  b.setLeg n { x with plan := kept ++ planOf y.s (if kept.isEmpty then b.pulseMin n else cut) want }

/-- The next edge placed on leg `n` takes place: the output that the signal leaves turns off at once (R253). -/
def Blk.legEdge (b : Blk) (n : Nat) : Blk :=
  let x := b.leg n
  match x.plan with
  | [] => b
  | (d, p) :: r =>
    let f := b.follows n
    let b := b.setLeg n { x.edge d with since := p, plan := r, hi := x.hi && !(f && !d), lo := x.lo && !(f && d) }
    let g := b.grp (n / 3)
    b.setGrp (n / 3) { g with now := max g.now p }

/-- The edges of leg `n` that lie no later than tick `t` have taken place. -/
def Blk.legPast (b : Blk) (t : Int) (n : Nat) : Blk :=
  ((b.leg n).plan.takeWhile fun e => decide (e.2 ≤ t)).foldl (fun b _ => b.legEdge n) b

/-! Commits. -/

/-- Is leg `n` granted to engine `e` (R258)? -/
def Blk.legGranted (b : Blk) (n e : Nat) : Bool :=
  let w := b.reg (Reg.gctrlReg (n / 3))
  tbit w 12 && (decide (fld w 8 4 = e) || (b.twin (e / 2) && decide (fld w 8 4 / 2 = e / 2)))

/-- Leg `j`'s staged value moves to pending, or to active under UPD = IMMEDIATE (R255, R257). -/
def Blk.commitLeg (b : Blk) (g j : Nat) : Blk :=
  let s := b.reg (Reg.cmpStg g j)
  if tbit s 31 then
    let b := (b.setReg (Reg.cmpStg g j) 0).setBit (Reg.gstat g) (8 + j)
    if b.rf (Reg.gctrlReg g) 2 2 = 2 then
      let b := (b.setReg (Reg.cmpAct g j) (BitVec.ofNat 32 (fld s 0 25))).setReg (Reg.cmpPend g j) 0
      if (b.grp g).going then b.legReplan (3 * g + j) ((b.grp g).now + 50) else b
    else b.setReg (Reg.cmpPend g j) s
  else b

/-- The commit point of an IMMEDIATE commit as a tick of the period (R257): no command names it, so it is free between the last event of
the period and the next one placed. (DESIGN CHOICE, log 145). -/
def Blk.commitAt (b : Blk) (g : Nat) : Blk :=
  let x := b.grp g
  if b.rf (Reg.gctrlReg g) 2 2 = 2 ∧ x.going = true then
    let ends := [3 * g, 3 * g + 1, 3 * g + 2].filterMap fun n => (b.leg n).plan.head?.map (·.2)
    let top : List Int := if b.rb (Reg.gctrlReg g) 1 && !x.top then [(b.gTop g : Int)] else []
    let room := ((ends ++ top).foldl min (b.gLen g) - x.now).toNat + 1
    (b.setGrp g { x with now := x.now + (b.freeVal.toNat % room : Nat) }).freeNext
  else b

/-- A released `DUTY` of engine `e` (R255, R258). -/
def Blk.dutyCommit (b : Blk) (n e : Nat) (v : Word) : Blk :=
  let g := n / 3
  if !(b.legGranted n e) then
    (b.flt (0x060 + g / 4) 1).setF (regKey (0x060 + g / 4) Reg.hFaultInfo) 0 5 n
  else
    let b := b.setReg (Reg.cmpStg g (n % 3)) (BitVec.ofNat 32 (fld v 0 25 + 2 ^ 31))
    if tbit v 25 then b
    else
      let b := b.commitAt g
      let b := ((b.commitLeg g 0).commitLeg g 1).commitLeg g 2
      (b.setGrp g { b.grp g with idle := 0, commit := true }).emit (.pulse "drv_commit" g)

/-! Periods. -/

/-- Leg `j`'s pending value becomes active (R256). -/
def Blk.updateLeg (b : Blk) (g j : Nat) : Blk :=
  let v := b.reg (Reg.cmpPend g j)
  if tbit v 31 then (b.setReg (Reg.cmpAct g j) (BitVec.ofNat 32 (fld v 0 25))).setReg (Reg.cmpPend g j) 0 else b

/-- An update point of group `g` (R250, R256); `late` marks the legs committed less than 4.0 ns before it. (DEDUCED, log 138). -/
def Blk.updatePoint (b : Blk) (g : Nat) (late : BitVec 3) : Blk :=
  let due := (List.range 3).filter fun j => tbit (b.reg (Reg.cmpPend g j)) 31 && !(late.getLsbD j)
  let b := due.foldl (fun b j => b.updateLeg g j) b
  if due.isEmpty then b else b.emit (.pulse "drv_upd" g)

/-- The period that starts next, and the grid point that must have been reached first, if one must (R251). -/
def Blk.nextPeriod (b : Blk) (g : Nat) : Nat × Option Nat :=
  let x := b.grp g
  match x.next with
  | some k => (k, some (b.gridAt g k))
  | none => if x.going then (x.k + 1, none) else (0, some (b.gStart g))

/-- May a period of group `g` start now? -/
def Blk.mayStart (b : Blk) (g : Nat) : Bool :=
  b.gEn g && !b.drive.lost &&
  (match (b.nextPeriod g).2 with
   | some a => decide (a < b.nextTb / 2 ^ 32)
   | none => true)

/-- A leg's ticks in the frame of the period that starts, `gone` ticks after the last one's start. -/
def Blk.legShift (b : Blk) (gone : Int) (n : Nat) : Blk :=
  let x := b.leg n
  b.setLeg n { x with since := x.since - gone, on := x.on - gone }

/-- The outputs of a leg come to follow the signal at a period's start (R260): one that does not match it turns off, and a pulse that
begins later begins at the period's start at the earliest. -/
def Blk.legShow (b : Blk) (n : Nat) : Blk :=
  let x := b.leg n
  b.setLeg n { x with hi := x.hi && x.s, lo := x.lo && !x.s, since := max x.since (-(b.rf (Reg.dead (n / 3)) 0 16 : Int)) }

/-- What a group in RUN shows from a period's start on (R260, R275). -/
def Blk.gShow (b : Blk) (g : Nat) : Blk :=
  if b.gState g = 1 ∧ (b.grp g).shown = false then
    if b.showsDuty then (b.setGrp g { b.grp g with shown := true }).eachLeg g Blk.legShow else b.eachLeg g Blk.legOff
  else b

/-- Start the period `k` with the stamp `st` (R250, R251, R259, R260). The edges that the last period still had placed have taken
place, unless the clock's loss stopped it. -/
def Blk.startPeriod (b : Blk) (g k st : Nat) (late : BitVec 3) : Blk :=
  let b := if (b.grp g).next.isNone then b.eachLeg g (Blk.legPast · (b.gLen g)) else b
  let x := b.grp g
  let grid := b.gridAt g k
  let adj : Int := if grid + 2 ≤ st then -1 else if st + 2 ≤ grid then 1 else 0
  let gone : Int := if x.going then ((k : Int) - x.k) * b.gP g + 25 * x.adj else 0
  let b := b.setGrp g { x with going := true, k := k, next := none, adj := adj, top := false, commit := false, now := 0,
                               idle := if x.going && !x.commit then x.idle + 1 else 0 }
  let b := ((b.setReg (Reg.pstampLo g) (BitVec.ofNat 32 st)).setReg (Reg.pstampHi g) (BitVec.ofNat 32 (st / 2 ^ 32))).setReg
    (Reg.pcount g) (BitVec.ofNat 32 k)
  let b := ((b.setF (Reg.gstat g) 7 1 (bit (adj ≠ 0))).event (0x060 + g / 4) (g % 4)).emit (.pulse "drv_pstart" g)
  let b := b.updatePoint g late
  let b := if b.gState g = 3 ∧ b.rf (Reg.gstat g) 8 3 = 7 then b.setF (Reg.gstat g) 0 2 1 else b
  ((b.eachLeg g (Blk.legShift · gone)).gShow g).eachLeg g Blk.legPlan

/-- The stamp of the period that starts (R251): the first period's lies less than 2 ns after `START` where the counter has not passed it,
since it starts at the first clock edge at which the interpolated timebase has reached it. -/
def Blk.startStamp (b : Blk) (g : Nat) : Nat :=
  match (b.nextPeriod g).2 with
  | some a =>
    if b.tb.cnt.toNat ≤ a then Nat.max (a + b.freeVal.toNat % 2) (if b.tb.cnt.toNat ≤ b.tb.last.toNat then b.tb.last.toNat else 0)
    else b.interp.toNat
  | none => b.interp.toNat

/-- A period of group `g` starts. -/
def Blk.periodStart (b : Blk) (g : Nat) (late : BitVec 3) : Blk :=
  if b.mayStart g then
    let st := b.startStamp g
    { b with tb := { b.tb with last := BitVec.ofNat 64 st }, free := b.free + 1 }.startPeriod g (b.nextPeriod g).1 st late
  else b

/-- The top of a period in centre mode (R250). -/
def Blk.periodTop (b : Blk) (g : Nat) (late : BitVec 3) : Blk :=
  if b.gEn g && b.rb (Reg.gctrlReg g) 1 && (b.grp g).going && !(b.grp g).top && !b.drive.lost then
    let b := b.eachLeg g (Blk.legPast · ((b.gTop g : Int) - 1))
    let x := b.grp g
    let b := (b.setGrp g { x with top := true, now := max x.now (b.gTop g) }).emit (.pulse "drv_top" g)
    if b.rf (Reg.gctrlReg g) 2 2 = 1 then (b.updatePoint g late).eachLeg g (Blk.legReplan · · (b.gTop g)) else b
  else b

/-- An edge of leg `n`'s switching signal, the next one placed (R252, R253, R257). -/
def Blk.switchEdge (b : Blk) (n : Nat) (rise : Bool) : Blk :=
  match (b.leg n).plan with
  | [] => b
  | (d, p) :: _ =>
    if b.gEn (n / 3) && (b.grp (n / 3)).going && !b.drive.lost && decide (d = rise) && decide (p ≤ b.gLen (n / 3)) then b.legEdge n else b

/-- The tick of this period at which a pulse of leg `n` begins that begins now: `DT` after the last edge of the signal (R253). -/
def Blk.pulseAt (b : Blk) (n : Nat) : Int := (b.leg n).since + (b.rf (Reg.dead (n / 3)) 0 16 : Nat)

/-- Is the end of a pulse that would begin now already placed less than `MINPW` ticks after its start (R253)? -/
def Blk.tooShort (b : Blk) (n : Nat) : Bool :=
  match (b.leg n).plan with
  | [] => false
  | (_, p) :: _ => decide (p < b.pulseAt n + (b.rf (Reg.dead (n / 3)) 16 16 : Nat))

/-- An output of leg `n` turns on, at tick `t`. -/
def Blk.legOn (b : Blk) (n : Nat) (high : Bool) (t : Int) : Blk :=
  let x := b.leg n
  b.setLeg n { x with hi := x.hi || high, lo := x.lo || !high, on := t }

/-- The dead time of an output of leg `n` is over (R253, R261): it turns on where the signal, or the safe pattern, says so. A group that is
not enabled turns no output on (R249). (DEDUCED, log 146). -/
def Blk.deadOver (b : Blk) (n : Nat) (high : Bool) : Blk :=
  let x := b.leg n
  if (if high then x.hi || x.lo else x.lo || x.hi) || !(b.gEn (n / 3)) || decide (b.gState (n / 3) = 0) then b
  else if b.gState (n / 3) = 1 then
    if b.follows n && decide (x.s = high) && !(b.tooShort n) then b.legOn n high (b.pulseAt n) else b
  else if b.safePat n = (if high then 1 else 2) then b.legOn n high (b.grp (n / 3)).now else b

/-- The ADC trigger of group `g` (R254). -/
def Blk.trigger (b : Blk) (g : Nat) : Blk :=
  if b.rb (Reg.trigReg g) 31 && (b.grp g).going && b.gEn g && !b.drive.lost &&
      decide ((b.rf (Reg.trigReg g) 0 20 : Int) < (b.rf (Reg.pcnt g) 0 20 : Int) + (b.grp g).adj) then
    b.emit (.pulse "drv_trig" g)
  else b

/-- The group's watchdog has counted out (R259). -/
def Blk.watchdog (b : Blk) (g : Nat) : Blk :=
  let n := b.rf (Reg.gctrlReg g) 16 8
  if b.gEn g && decide (n ≠ 0) && decide (n ≤ (b.grp g).idle) then
    ((b.setBit (Reg.gstat g) 5).setGrp g { b.grp g with idle := 0 }).gUpdate g
  else b

/-- `clk_req_drv` (R515): it rises at the wake event. -/
def Blk.clkReq (b : Blk) : Bool :=
  !(decide (b.sys.base = 0xA) && decide (b.pow.phase = 1) && (List.range 8).all fun g => decide (b.gState g = 0) || decide (b.gState g = 2))

/-- No `drv_refclk` edge for 10 ns (R261, R515): periods stop (R251), and the edges they had placed do not take place. -/
def Blk.clkLoss (b : Blk) : Blk :=
  let b := { b with drive := { b.drive with lost := true } }
  let b := (List.range 24).foldl (fun b n => if (b.leg n).plan.isEmpty then b else b.setLeg n { b.leg n with plan := [] }) b
  if b.clkReq then
    (List.range 8).foldl (fun b g => if b.gEn g then (b.setBit (Reg.gstat g) 6).gUpdate g else b) b
  else b

/-- The smallest period of group `g` whose grid point lies at or after now (R251). -/
def Blk.regrid (b : Blk) (g : Nat) : Nat :=
  let d := 2 * b.rf (Reg.pcnt g) 0 20
  (b.tb.cnt.toNat - b.gStart g + (d - 1)) / Nat.max 1 d

/-- `drv_refclk` returns (R251). -/
def Blk.clkReturn (b : Blk) : Blk :=
  if b.drive.lost then
    let b := { b with drive := { b.drive with lost := false } }
    (List.range 8).foldl (fun b g =>
      if (b.grp g).going then b.setGrp g { b.grp g with next := some (b.regrid g) } else b) b
  else b

/-! Trips. -/

/-- A filtered assertion of trip input `k` (R262, R263). -/
def Blk.tripOn (b : Blk) (k : Nat) : Blk :=
  if b.rb (Reg.tcfg k) 8 && decide (2 ≤ b.sys.base) then
    let b := if b.reg Reg.tlatch = 0 then
        let st := b.interp
        let b := b.noteInterp
        ((b.setReg Reg.tfirst (BitVec.ofNat 32 (k + 2 ^ 31))).setReg Reg.tstampLo (st.setWidth 32)).setReg Reg.tstampHi
          ((st >>> 32).setWidth 32)
      else b
    (((b.setBit Reg.tlevel k).setBit Reg.tlatch k).event 0x063 0).driveAll
  else b

/-- Trip input `k` deasserts. -/
def Blk.tripOff (b : Blk) (k : Nat) : Blk := b.clrBit Reg.tlevel k

/-- A write to `TLATCH` (R263): bits whose input is deasserted are cleared. -/
def Blk.tlatchWrite (b : Blk) (v : Word) : Blk :=
  let l := b.reg Reg.tlatch &&& ~~~ (v &&& ~~~ (b.reg Reg.tlevel))
  let b := b.setReg Reg.tlatch l
  (if l = 0 then b.clrBit Reg.tfirst 31 else b).driveAll

/-! Sample ports. -/

/-- Is sample port `n` in use: enabled and not retired (R267, R337)? -/
def Blk.spOn (b : Blk) (n : Nat) : Bool := b.rb (Reg.spCfg n) 0 && !(b.rb Reg.retSp n)

/-- A capture on port `n` (R267). -/
def Blk.spCapture (b : Blk) (n : Nat) (d : BitVec 16) (tag : BitVec 4) : Blk :=
  let w : Word := BitVec.ofNat 32 (d.toNat + tag.toNat * 2 ^ 16)
  if !(b.spOn n) then b
  else if !(b.rb (Reg.spCfg n) 1) then (b.setReg (Reg.last n) w).event 0x062 n
  else if !(b.rb (Reg.last n) 31) then b.setReg (Reg.last n) (orBit w 31)
  else if !(b.rb (Reg.spCfg n) 2) then
    ((((b.setReg (Reg.last n) (orBit w 31)).setBit Reg.ovrFlags n).count Reg.ovrCnt 0 16).flt 0x062 0)
  else { b with drive := { b.drive with wait := some (n, d, tag) } }

/-- A transfer held back under WAIT is captured once nothing holds it (R267). -/
def Blk.spRetry (b : Blk) : Blk :=
  match b.drive.wait with
  | none => b
  | some (n, d, tag) => { b with drive := { b.drive with wait := none } }.spCapture n d tag

/-- `sp_ack[n]` (R266): high from the capture or the discard until the request falls. -/
def Blk.spAck (b : Blk) (n : Nat) : Bool :=
  b.drive.req.contains n && (match b.drive.wait with
    | some (k, _, _) => decide (k ≠ n)
    | none => true)

/-- A transfer of R266 is acknowledged and its sample discarded: a transient fault of its port (R337). -/
def Blk.spDiscard (b : Blk) : Blk := { b with drive := { b.drive with wait := none } }.transient

/-- `sp_req[n]` rises or falls (R266). A rise while another request or acknowledge is high, or while a transfer is held back, breaks the
rule: it is discarded, and with it the transfer that is not captured yet; one captured before stands. The fall of a request that is
held back withdraws nothing. (DESIGN CHOICE, log 147). -/
def Blk.spTransfer (b : Blk) (n : Nat) (d : BitVec 16) (tag : BitVec 4) (rise : Bool) : Blk :=
  if rise then
    if b.drive.req.contains n then b
    else
      let clean := b.drive.req.isEmpty && b.drive.wait.isNone
      let b := { b with drive := { b.drive with req := b.drive.req ++ [n] } }
      if clean then b.spCapture n d tag
      else (if b.drive.wait.isSome then b.spDiscard else b).spDiscard
  else { b with drive := { b.drive with req := b.drive.req.filter (· ≠ n) } }

/-- `sp_req` stays high 4 µs after the acknowledge (R337). -/
def Blk.spStuck (b : Blk) (n : Nat) : Blk :=
  if b.rb Reg.retSp n || !(b.spAck n) then b else (b.setBit Reg.retSp n).permanent

/-- What selector `s` of a deposit names (R269). -/
def Blk.depSel (b : Blk) (s : Nat) : Nat :=
  if s < 0x20 then b.rf (Reg.last s) 0 16
  else if s < 0x28 then b.rf (Reg.encPos (s - 0x20)) 0 16
  else 0

/-- The deposit into V15 that an acceptance on port `n` makes (R269). -/
def Blk.deposit (b : Blk) (n : Nat) : Entry128 :=
  BitVec.ofNat 128 ((List.range 8).foldl (fun a j =>
    let s := if j < 4 then b.rf (Reg.dselLo n) (8 * j) 6 else b.rf (Reg.dselHi n) (8 * (j - 4)) 6
    a + b.depSel s * 2 ^ (16 * j)) 0)

/-- The entry that a sample pushes (R181). -/
def Blk.sampleEntry (b : Blk) (n : Nat) : Entry128 :=
  BitVec.ofNat 128 (b.rf (Reg.last n) 0 20 + n * 2 ^ 24 + 2 ^ 31)

/-! Encoders and captures. -/

/-- The step a quadrature change makes (R277): the direction that counts up is not fixed by the spec. -/
def quadStep (old new : Bool × Bool) : Int :=
  let up : Int := if Config.encForward then 1 else -1
  match old, new with
  | (false, false), (true, false) => up
  | (true, false), (true, true) => up
  | (true, true), (false, true) => up
  | (false, true), (false, false) => up
  | (true, false), (false, false) => -up
  | (true, true), (true, false) => -up
  | (false, true), (true, true) => -up
  | (false, false), (false, true) => -up
  | _, _ => 0

/-- Move encoder `k`'s position by `d` (R277): modulo `ENCCPR` with wraps counted, or free-running. -/
def Blk.encMove (b : Blk) (k : Nat) (d : Int) : Blk :=
  let n := b.rf (Reg.encCpr k) 0 24
  let p := b.reg (Reg.encPos k)
  if n = 0 then b.setReg (Reg.encPos k) (p + BitVec.ofInt 32 d)
  else
    let q := (p.toNat : Int) + d
    if q < 0 then (b.setReg (Reg.encPos k) (BitVec.ofInt 32 (n - 1))).setReg (Reg.encRev k) (b.reg (Reg.encRev k) - 1)
    else if (n : Int) ≤ q then (b.setReg (Reg.encPos k) 0).setReg (Reg.encRev k) (b.reg (Reg.encRev k) + 1)
    else b.setReg (Reg.encPos k) (BitVec.ofInt 32 q)

/-- A filtered change of encoder `k`'s inputs (R277). -/
def Blk.encEdge (b : Blk) (k : Nat) (new : Bool × Bool) : Blk :=
  let old := Tab.get (fun _ => (false, false)) b.drive.enc k
  let b := { b with drive := { b.drive with enc := Tab.set (fun _ => (false, false)) b.drive.enc k new } }
  if !(b.rb (Reg.encCfg k) 0) || decide (old = new) then b
  else if old.1 ≠ new.1 ∧ old.2 ≠ new.2 then b.count (Reg.encErr k) 0 16
  else
    let d := quadStep old new
    let st := b.interp
    (b.noteInterp.encMove k (if b.rb (Reg.encCfg k) 1 then -d else d)).setReg (Reg.encEdgeReg k) (st.setWidth 32)

/-- A rise of `enc_z[k]` (R277, R283). -/
def Blk.encIndex (b : Blk) (k : Nat) : Blk :=
  if b.rb (Reg.encCfg k) 0 then
    let b := (b.setReg (Reg.encZ k) (b.reg (Reg.encPos k))).event 0x064 (8 + k)
    if b.rb (Reg.encCfg k) 2 then b.setReg (Reg.encPos k) 0 else b
  else b

/-- Capture `c`'s FIFO. -/
def Blk.cap (b : Blk) (c : Nat) : List (BitVec 64 × Bool) := Tab.get (fun _ => []) b.drive.caps c

/-- Put a FIFO back and show its oldest entry (R278, R283). (DEDUCED, log 104). -/
def Blk.setCap (b : Blk) (c : Nat) (l : List (BitVec 64 × Bool)) : Blk :=
  let b := { b with drive := { b.drive with caps := Tab.put b.drive.caps c l } }
  let h := l.headD (0, false)
  let b := (b.setReg (Reg.capLo c) (h.1.setWidth 32)).setReg (Reg.capHi c) ((h.1 >>> 32).setWidth 32)
  let b := (b.setF (Reg.capStat c) 0 3 l.length).setF (Reg.capStat c) 3 1 (bit h.2)
  if l.isEmpty then b else b.event 0x064 c

/-- A filtered edge of `cap_in[c]` (R278). -/
def Blk.capEdge (b : Blk) (c : Nat) (rise : Bool) : Blk :=
  if b.rb (Reg.capCfg c) 8 && b.rb (Reg.capCfg c) (if rise then 0 else 1) then
    if 4 ≤ (b.cap c).length then b.setBit (Reg.capStat c) 4
    else
      let st := b.interp - BitVec.ofNat 64 (2 * b.rf (Reg.capCfg c) 2 4)
      b.noteInterp.setCap c (b.cap c ++ [(st, rise)])
  else b

end Sys2Proof.Machine
end

