-- ==== Sys2Proof/Machine/Access.lean ====
section
/-! DEFINITION. Memory accesses as the units perform them: error correction, the undo log, stores through the aliases, the checks
of R113 and the values an engine's loads see. -/
namespace Sys2Proof.Machine

/-! Error correction (R235 to R238). -/

/-- The condition of the 16-byte word that holds address `a`. (DESIGN CHOICE, log 55). -/
def Blk.eccAt (b : Blk) (a : Nat) : BitVec 2 := Tab.get (fun _ => (0 : BitVec 2)) b.ecc (a / 16 * 16)

/-- Change the condition of the word that holds address `a`. -/
def Blk.setEcc (b : Blk) (a : Nat) (v : BitVec 2) : Blk :=
  { b with ecc := Tab.set (fun _ => (0 : BitVec 2)) b.ecc (a / 16 * 16) v }

/-- Spare `k` is free: not in service and not being filled. -/
def Blk.spareFree (b : Blk) (k : Nat) : Bool :=
  !(b.rb (Reg.spare k) 7) && !(b.copying.any fun x => x.1 == k)

/-- The bank of a scratchpad address or a packet-buffer address becomes permanent-faulty (R237, R238). A bank that already is,
or whose spare is being filled, stays as it is. -/
def Blk.bankFaulty (b : Blk) (a : Nat) : Blk :=
  if a < 0x1800000 then
    let k := a / 0x40000
    if b.rb (Reg.faulty (k / 32)) (k % 32) || (b.copying.any fun x => x.2 == k) then b
    else
      match (List.range 4).find? fun i => b.spareFree i with
      | some i => ({ b with copying := Tab.put b.copying i k }.flt pgSafety 1).event pgSafety 1
      | none => ((b.setBit (Reg.faulty (k / 32)) (k % 32)).flt pgScratch 1).permanent
  else
    let k := (a - 0x10000000) / 0x40000
    if b.rb Reg.pbFaulty k then b else (b.setBit Reg.pbFaulty k).permanent

/-- The corrected errors of a bank within the last second, this one included, and whether it is the third (R237). -/
def Blk.noteCeTime (b : Blk) (a : Nat) : Blk :=
  let k := if a < 0x1800000 then a / 0x40000 else 96 + (a - 0x10000000) / 0x40000
  let now := b.tb.cnt.toNat
  let l := ((b.bank k).ces ++ [now]).filter fun t => decide (now ≤ t + 1000000000)
  let b := b.setBank k { b.bank k with ces := l }
  if 3 ≤ l.length then b.bankFaulty a else b

/-- A read finds a correctable error in the word at `a` (R235): recorded once, and the word waits for its write-back. -/
def Blk.noteCe (b : Blk) (a : Nat) : Blk :=
  ((((b.setEcc a 2).setReg Reg.eccCeAddr (BitVec.ofNat 32 (a / 16 * 16))).count Reg.eccCeCnt 0 16).event pgScratch 1).transient
    |>.noteCeTime a

/-- A read finds an uncorrectable error in the word at `a` (R236, R237). -/
def Blk.noteUe (b : Blk) (a : Nat) : Blk :=
  (((b.setReg Reg.eccUeAddr (BitVec.ofNat 32 (a / 16 * 16))).count Reg.eccUeCnt 0 16).event pgScratch 3).bankFaulty a

/-- The effect on the error state of reading the word at `a` of the scratchpad or the packet buffer. -/
def Blk.eccRead (b : Blk) (a : Nat) : Blk :=
  if b.eccAt a = 1 then b.noteCe a else if b.eccAt a = 3 then b.noteUe a else b

/-- The effect on the error state of writing `n` bytes at `a`, all in one word: a whole word replaces what stood there, a part
merges with the word it reads (R235, R236). -/
def Blk.eccWrite (b : Blk) (a n : Nat) : Blk :=
  if a % 16 = 0 ∧ n = 16 then (if b.eccAt a = 0 then b else b.setEcc a 0)
  else if b.eccAt a = 1 then (b.noteCe a).setEcc a 0
  else if b.eccAt a = 2 then b.setEcc a 0
  else b

/-! The undo log (R326, R327). -/

/-- Entries that each log of a pair's segment holds (R326). -/
def Blk.logCap (b : Blk) : Nat :=
  match b.rf Reg.area 8 2 with
  | 0 => 256
  | 1 => 1280
  | _ => 3328

/-- A write to a line of pair `p`'s exclusive banks is noted: lines that an owned channel writes (R329), lines written during a
join (R349). -/
def Blk.noteLine (b : Blk) (p : Nat) (mover : Bool) (line : Nat) : Blk :=
  let x := b.pair p
  let x := if mover && !(x.mv.contains line) then { x with mv := line :: x.mv } else x
  let x := if x.join = 2 ∧ x.marked.contains line = false then { x with marked := line :: x.marked } else x
  if x = b.pair p then b else b.setPair p x

/-- Before the first write since the last point to a line of pair `p`'s exclusive banks, its old contents enter the undo log. -/
def Blk.undoLine (b : Blk) (p : Nat) (mover : Bool) (a : Nat) : Blk :=
  let x := b.pair p
  let line := a / 64
  let kept := match x.pend with
    | some s => s.undoN
    | none => 0
  if (x.img.isNone && x.pend.isNone) || (x.undo.take (x.undo.length - kept)).any (fun u => u.line == line) then b
  else b.setPair p { x with undo := ⟨line, mover, b.bytes (line * 64) 64⟩ :: x.undo }

/-! Performing a store (R115, R227, R229). -/

/-- The byte a write of `v` at address `a` leaves: plain, set alias or clear alias. -/
def mergeByte (a : Nat) (old v : Byte) : Byte :=
  match place a with
  | .setAlias => old ||| v
  | .clrAlias => old &&& ~~~ v
  | _ => v

/-- Write a byte string at `a` through its alias, if any. -/
def Blk.mergeBytes (b : Blk) (a : Nat) : List Byte → Blk
  | [] => b
  | v :: t => (b.setByte (unalias a) (mergeByte a (b.byte (unalias a)) v)).mergeBytes (a + 1) t

/-- Write within one 16-byte word of the scratchpad or the packet buffer, with the word's error state and, for an exclusive
bank, the undo log of the pair that owns it. -/
def Blk.writeWord (b : Blk) (own : Option Nat) (mover : Bool) (a : Nat) (l : List Byte) : Blk :=
  let u := unalias a
  let b := match own with
    | some p => if u < 0x1800000 && decide (b.owner (u / 0x40000) = some p) then (b.undoLine p mover u).noteLine p mover (u / 64) else b
    | none => b
  (b.eccWrite u (if u = a then l.length else 0)).mergeBytes a l

/-- The number of bytes from `a` to the end of its 16-byte word, at most `n`. -/
def toWordEnd (a n : Nat) : Nat := Nat.min (16 - a % 16) n

/-- Write a byte string word by word; `k` bounds the number of words. -/
def Blk.writeMem (b : Blk) (own : Option Nat) (mover : Bool) (a : Nat) (l : List Byte) : Nat → Blk
  | 0 => b
  | k + 1 =>
    if l.isEmpty then b
    else
      let n := toWordEnd a l.length
      (b.writeWord own mover a (l.take n)).writeMem own mover (a + n) (l.drop n) k

/-! The memory port's queue (R417, R420). -/

/-- Window offset, segment and channel choice of a window address (R417). -/
def segOf (a : Nat) : Nat := (a - 0x2000000000) / 2 ^ 31

/-- Has channel `c` been retired (R423)? -/
def Blk.chanRet (b : Blk) (c : Nat) : Bool := b.rb Reg.retNet (6 + c)

/-- The channel that serves a window address, if any. -/
def Blk.chanFor (b : Blk) (a : Nat) : Option Nat :=
  let c : Option Nat := match b.rf (Reg.seg (segOf a)) 8 2 with
    | 0 => none
    | 1 => some 0
    | 2 => some 1
    | _ => some ((a - 0x2000000000) / 256 % 2)
  match c with
  | none => none
  | some c => if b.chanRet c then (if b.chanRet (1 - c) then none else some (1 - c)) else some c

/-- May a window address be read, or written (check 3 of R113 for the window)? -/
def Blk.extOk (b : Blk) (wr : Bool) (a : Nat) : Bool :=
  (b.chanFor a).isSome && !(wr && b.rb (Reg.seg (segOf a)) 10)

/-- A transfer of master `mst` joins the queue of the channel that serves it. (DEDUCED, log 73). -/
def Blk.mpAsk (b : Blk) (r : MpReq) : Blk :=
  match b.chanFor r.addr with
  | none => b.flt 0x080 1
  | some c => b.setChan c { b.chan c with q := (b.chan c).q ++ [r] }

/-- The byte enables of `n` bytes at `a` within its 64-byte unit. -/
def unitMask (a n : Nat) : BitVec 64 := BitVec.ofNat 64 ((2 ^ n - 1) * 2 ^ (a % 64))

/-- Ask for a write of a byte string to the window, unit by unit; `k` bounds the number of units. -/
def Blk.mpStore (b : Blk) (mst : Nat) (who : MpFor) (a : Nat) (l : List Byte) : Nat → Blk
  | 0 => b
  | k + 1 =>
    if l.isEmpty then b
    else
      let n := Nat.min (64 - a % 64) l.length
      let d := List.replicate (a % 64) (0 : Byte) ++ l.take n
      (b.mpAsk { mst := mst, write := true, addr := a / 64 * 64, be := unitMask a n,
                 data := d ++ List.replicate (64 - d.length) 0, tries := 0, who := who, tag := 0 }).mpStore
        mst who (a + n) (l.drop n) k

/-- Does a master have writes that the port has not seen acknowledged (R114, R420)? -/
def Blk.mpBusy (b : Blk) (mst : Nat) : Bool :=
  b.mp.any fun x => (x.2.q ++ x.2.outst).any fun r => r.write && r.mst == mst

/-- Perform an engine's or a pair's store at its target: memory at once, the window through the port. -/
def Blk.performStore (b : Blk) (m : Nat) (own : Option Nat) (a : Nat) (l : List Byte) : Blk :=
  match place a with
  | .ext => b.mpStore m (.engine m) a l 4
  | _ => b.writeMem own false a l 10

/-! Exceptions as data. -/

/-- An exception: cause code, SUB, INFO and ADDR_HI of R150 to R152. -/
structure Exc where
  cause : Nat
  sub   : Nat := 0
  info  : Nat := 0
  hi    : Nat := 0
  deriving DecidableEq, Repr

/-- An exception that names a 40-bit address (R151). -/
def excAt (cause sub a : Nat) : Exc := ⟨cause, sub, a % 2 ^ 32, a / 2 ^ 32 % 256⟩

/-! The checks of R113. -/

/-- The cause that a refused access of a kind raises. -/
def accessCause (k : Acs) : Nat := if k = .load then 0x06 else 0x07

/-- The halves of an access of `n` bytes at `a` (R115). -/
def halves (a n : Nat) : List (Nat × Nat) :=
  if a % n = 0 then [(a, n)] else [(a, n - a % n), (a + (n - a % n), a % n)]

/-- Check 2 for one half: every byte lies in one granule and one bank, or in two at most, so first and last byte decide. -/
def Blk.half2 (b : Blk) (m pl : Nat) (own : Option Nat) (k : Acs) (h : Nat × Nat) : Bool :=
  b.admits m pl own k h.1 && b.admits m pl own k (h.1 + h.2 - 1)

/-- `PAGE_PRIV.MINPL` of a page (R529). -/
def Blk.minPl (b : Blk) (p : Nat) : Nat := b.rf (regKey p Reg.hPriv) 0 2

/-- Registers readable at every level (R529). -/
def openHeader (o : Nat) : Bool := o % 0x1000 == 0 || o % 0x1000 == 4 || o % 0x1000 == 8 || o % 0x1000 == 0x2C

/-- Registers whose maps mark them machine only (R530, R535). -/
def machineOnly (p o : Nat) : Bool :=
  o % 0x1000 == 0x0C || o % 0x1000 == 0x2C || (p == 0 && (o % 0x1000 == 0x44 || o % 0x1000 == 0x50))

/-- Does page `p` admit a read or write at slot offset `o` at level `pl` (R529)? -/
def Blk.pageAdmits (b : Blk) (p o pl : Nat) (wr : Bool) : Bool :=
  if wr then decide (b.minPl p ≤ pl) && (!(machineOnly p o) || decide (pl = 3))
  else openHeader o || decide (b.minPl p ≤ pl)

/-- Check 2 of R113 for a register-page address. -/
def Blk.page2 (b : Blk) (pl : Nat) (k : Acs) (a : Nat) : Bool :=
  match place a with
  | .page => b.pageAdmits ((a - 0x20000000) / 0x4000) ((a - 0x20000000) % 0x4000) pl (decide (k ≠ .load))
  | _ => true

/-- Check 3 of R113: may an access of kind `k` and width `n` go to address `a`? `vec` marks a vector access (R143). -/
def Blk.target3 (b : Blk) (vec : Bool) (k : Acs) (a n : Nat) : Bool :=
  match place a with
  | .scratch | .packet => decide (k ≠ .atomic) || (decide (4 ≤ n) && decide (a % n = 0))
  | .setAlias | .clrAlias => decide (k ≠ .atomic)
  | .page => !vec && decide (k ≠ .atomic) && decide (n = 4) && decide (a % 4 = 0)
  | .rom => decide (k = .load)
  | .ext => decide (k ≠ .atomic) && b.extOk (decide (k = .store)) a
  | .nowhere => false

/-- Check 4 of R113: the scratchpad bank is on. -/
def Blk.bank4 (b : Blk) (a : Nat) : Bool :=
  match place a with
  | .scratch | .setAlias | .clrAlias => b.bankOn (unalias a / 0x40000)
  | _ => true

/-- Check 5 of R113: the word that the half reads has no uncorrectable error. A whole-word plain store reads nothing (R236). -/
def Blk.ecc5 (b : Blk) (k : Acs) (h : Nat × Nat) : Bool :=
  match place h.1 with
  | .scratch | .packet =>
    (decide (k = .store) && decide (h.1 % 16 = 0) && decide (h.2 = 16)) || decide (b.eccAt h.1 ≠ 3)
  | .setAlias | .clrAlias => decide (b.eccAt (unalias h.1) ≠ 3)
  | _ => true

/-- Check 5 of R113 for an access made of the parts `hs`: INFO is the failing word's address (R150). -/
def Blk.eccOn (b : Blk) (k : Acs) (hs : List (Nat × Nat)) : Option Exc :=
  match hs.find? fun h => !(b.ecc5 k h) with
  | some h => some (excAt 0x0E 0 (unalias h.1 / 16 * 16))
  | none => none

/-- Checks 2 to 4 of R113 for an access made of the parts `hs`, of operand width `n` at the 40-bit address `a`, by master `m` at level
`pl`: the exception of the first check that fails, naming the lowest part where that fails it (R167). -/
def Blk.reachOn (b : Blk) (m pl : Nat) (own : Option Nat) (vec : Bool) (k : Acs) (hs : List (Nat × Nat)) (a n : Nat) : Option Exc :=
  match hs.find? fun h => !(b.half2 m pl own k h && b.page2 pl k h.1) with
  | some h => some (excAt (accessCause k) 2 h.1)
  | none =>
    match hs.find? fun h => !(b.target3 vec k (if place h.1 = .page then a else h.1) n) with
    | some h => some (excAt (accessCause k) 3 h.1)
    | none =>
      match hs.find? fun h => !(b.bank4 h.1) with
      | some h => some (excAt 0x0F 0 h.1)
      | none => none

/-- Checks 2 to 5 of R113 for an access made of the parts `hs`. -/
def Blk.checkOn (b : Blk) (m pl : Nat) (own : Option Nat) (vec : Bool) (k : Acs) (hs : List (Nat × Nat)) (a n : Nat) : Option Exc :=
  (b.reachOn m pl own vec k hs a n).orElse fun _ => b.eccOn k hs

/-- The checks of a scalar access of `n` bytes at `a`. -/
def Blk.check (b : Blk) (m pl : Nat) (own : Option Nat) (vec : Bool) (k : Acs) (a n : Nat) : Option Exc :=
  b.checkOn m pl own vec k (halves a n) a n

/-- What the reads of an access of kind `k` do to the error state: corrected errors are noted, an uncorrectable one is recorded
before its exception. -/
def Blk.notesOn (b : Blk) (k : Acs) (hs : List (Nat × Nat)) : Blk :=
  hs.foldl (fun b h =>
    match place h.1 with
    | .scratch | .packet | .setAlias | .clrAlias =>
      if k = .store ∧ ¬ (place h.1 = .setAlias ∨ place h.1 = .clrAlias) ∧ h.1 % 16 = 0 ∧ h.2 = 16 then b
      else if k = .store then (if b.eccAt (unalias h.1) = 3 then b.noteUe (unalias h.1) else b)
      else b.eccRead (unalias h.1)
    | _ => b) b

/-! What an engine's load sees. -/

/-- The byte that a store of `d` at `s` leaves at memory address `a` over the byte `v`. -/
def overByte (s : Nat) (d : List Byte) (a : Nat) (v : Byte) : Byte :=
  let u := unalias s
  if u ≤ a && decide (a < u + d.length) then mergeByte s v (d.getD (a - u) 0) else v

/-- The byte that a pair's unreleased stores leave at memory address `a` over the byte `v` (R318). -/
def overlay (q : List Out) (a : Nat) (v : Byte) : Byte :=
  q.foldl (fun v o =>
    match o.act with
    | .store s d => overByte s d a v
    | .stores ps => ps.foldl (fun v x => overByte x.1 x.2 a v) v
    | _ => v) v

/-- The byte that engine `l` (the one holding the state) loads from a memory or ROM address. -/
def Blk.view (b : Blk) (l a : Nat) : Byte :=
  match place a with
  | .rom => Config.bootRom (a - 0x30000000)
  | _ =>
    let u := unalias a
    if b.twin (l / 2) then overlay (b.pair (l / 2)).q u (b.byte u) else b.byte u

/-- The `n` bytes that engine `l` loads from `a` on. -/
def Blk.viewN (b : Blk) (l a : Nat) : Nat → List Byte
  | 0 => []
  | n + 1 => b.view l a :: b.viewN l (a + 1) n

end Sys2Proof.Machine
end

