-- ==== Sys2Proof/Machine/LogOps.lean ====
section
/-! DEFINITION. The reserved area (R17, R326): the layout of a pair's segment, the bytes of its logs' entries (R327 to R329) and of its
context images (R323), and when they stand in memory. -/
namespace Sys2Proof.Config

/-- The content of a context image (R323), 48 KiB, whose layout the spec does not give, as the bytes that an IMAGE record carries. (DESIGN CHOICE, log 10). -/
opaque imageBytes : Machine.Snap Machine.Chan → List Byte

/-- What a received image holds. (DESIGN CHOICE, log 10). -/
opaque imageState : List Byte → Option (Machine.Snap Machine.Chan)

end Sys2Proof.Config

namespace Sys2Proof.Machine

/-! Entries. -/

/-- The 80 bytes of an undo entry (R327). -/
def undoBytes (u : UndoEnt) : List Byte := toLe 16 (u.line + bit u.mover * 2 ^ 19) ++ u.data

/-- The 16 bytes of a release entry (R328). -/
def relBytes (e : RelEntry) : List Byte :=
  toLe 4 e.seq.toNat ++ toLe 4 e.cls.toNat ++ toLe 4 e.digest.toNat ++ toLe 4 e.spc.toNat

/-- The 32 bytes of an input entry (R329). -/
def inBytes (e : InEntry) : List Byte :=
  toLe 6 e.spc ++ toLe 2 e.kind.toNat ++ toLe 8 e.aux.toNat ++ toLe 16 e.data.toNat

/-! The segment. -/

/-- Bytes of a pair's segment (R326). -/
def Blk.segSize (b : Blk) : Nat := b.areaBanks * 0x40000 / 8

/-- The address of the segment that pair `p` uses: its own, or the retired pair's after a migration (R326, R338). -/
def Blk.segAt (b : Blk) (p : Nat) : Nat := b.areaBase * 0x40000 + (b.pair p).seg.getD p * b.segSize

/-- The offset in a segment at which eighth `k` of its logs' room begins (R326). -/
def Blk.logAt (b : Blk) (k : Nat) : Nat := 0x18000 + k * ((b.segSize - 0x18000) / 8)

/-- Bytes written into the area: whole words. -/
def Blk.areaPut (b : Blk) (a : Nat) (l : List Byte) : Blk :=
  { b with mem := l.zipIdx.foldl (fun m x => Tab.set (fun _ => (0 : Byte)) m (a + x.2) x.1) b.mem
           ecc := b.ecc.filter fun e => decide (e.1 < a) || decide (a + l.length ≤ e.1) }

/-- Entries of `size` bytes written at positions `at'` on of a log at address `a`, which is filled in a circle. (DESIGN CHOICE, log 151). -/
def Blk.ringPut (b : Blk) (a size at' : Nat) (l : List (List Byte)) : Blk :=
  l.zipIdx.foldl (fun b x => b.areaPut (a + (at' + x.2) % b.logCap * size) x.1) b

/-- The oldest `u`, `r` and `i` entries of the logs of pair `p` stand in its segment. No access reaches the area (R17), so they are put
into memory as they leave the logs, or as the area moves. (DESIGN CHOICE, log 151). -/
def Blk.logsPut (b : Blk) (p u r i : Nat) : Blk :=
  let x := b.pair p
  let a := b.segAt p
  let b := b.ringPut (a + b.logAt 0) 80 x.undoAt ((x.undo.reverse.take u).map undoBytes)
  let b := b.ringPut (a + b.logAt 5) 16 x.relAt ((x.rels.take r).map relBytes)
  b.ringPut (a + b.logAt 6) 32 x.inAt ((x.ins.take i).map inBytes)

/-- They leave the logs: the next entries follow. The lists are the caller's to shorten. -/
def Blk.logsLeave (b : Blk) (p u r i : Nat) : Blk :=
  let b := b.logsPut p u r i
  let x := b.pair p
  b.setPair p { x with undoAt := (x.undoAt + u) % b.logCap, relAt := (x.relAt + r) % b.logCap, inAt := (x.inAt + i) % b.logCap }

/-- All of them leave. -/
def Blk.logsOut (b : Blk) (p : Nat) : Blk :=
  let x := b.pair p
  b.logsLeave p x.undo.length x.rels.length x.ins.length

/-- The area is about to move: what stands in it can be read from then on. The logs go on at the start of the new segments. -/
def Blk.areaLeave (b : Blk) : Blk :=
  (List.range 8).foldl (fun b p =>
    let x := b.pair p
    if x.undo.isEmpty && x.rels.isEmpty && x.ins.isEmpty then b
    else
      let b := b.logsPut p x.undo.length x.rels.length x.ins.length
      b.setPair p { b.pair p with undoAt := 0, relAt := 0, inAt := 0 }) b

/-- Bytes of a context image written at offset `off` of the free one of pair `p`'s two (R323, R326). -/
def Blk.imagePut (b : Blk) (p off : Nat) (l : List Byte) : Blk :=
  b.areaPut (b.segAt p + (if (b.pair p).imgB then 0xC000 else 0) + off) l

end Sys2Proof.Machine
end

