-- ==== Sys2Proof/Machine/Perf.lean ====
section
/-! DEFINITION. The interpolated timebase, performance counters and trace records (R251, R490 to R497). -/
namespace Sys2Proof.Machine

/-- The bit that enables a level in a PLMASK (R493, R500). -/
def plBit (pl : Nat) : Nat := if pl = 3 then 2 else pl

/-- What a counter with configuration `cfg` and threshold `thr` adds for an occurrence of amount `amt` (R493). -/
def pmAdd (cfg thr : Word) (amt : Nat) : Nat :=
  match fld cfg 8 2 with
  | 0 => 1
  | 1 => amt
  | _ => if thr.toNat ≤ amt then 1 else 0

/-- Add to a counter of a unit, with its wrap (R494). `kc` counter, `ko` overflow register, `pg` and `ev` the event bit. -/
def Blk.pmBump (b : Blk) (kc ko c pg ev n : Nat) : Blk :=
  let v := (b.reg kc).toNat + n
  let b := b.setReg kc (BitVec.ofNat 32 v)
  if 2 ^ 32 ≤ v then (b.setBit ko c).event pg ev else b

/-- Is some counter configuration of the page listed (a page whose counters are all at reset counts nothing)? -/
def Blk.pmAny (b : Blk) (lo hi : Nat) : Bool := b.regs.any fun x => decide (lo ≤ x.1) && decide (x.1 < hi)

/-- Counter `c` of engine `e` meets an occurrence of event `sel`. -/
def Blk.pmOne (b : Blk) (e pl sel amt : Nat) (c : Nat) : Blk :=
  let cfg := b.reg (Reg.pmCfg e c)
  if tbit cfg 31 && decide (fld cfg 0 8 = sel) && tbit cfg (10 + plBit pl) then
    b.pmBump (Reg.pmCnt e c) (Reg.pmOvf e) c (0x20 + e) 0 (pmAdd cfg (b.reg (Reg.pmThr e c)) amt)
  else b

/-- Are the counters of engine `e` held (R493)? -/
def Blk.pmHeld (b : Blk) (e : Nat) : Bool :=
  b.rb (Reg.pmCtrl e) 1 || ((b.eng (b.lead e)).halted && !(b.eng (b.lead e)).stepping && b.rb Reg.dbgCtrl 2)

/-- Engine `e`'s own counters meet an occurrence of an event of R496, unless they are held. -/
def Blk.pmEng (b : Blk) (e pl sel amt : Nat) : Blk :=
  if b.pmAny (Reg.pmCfg e 0) (Reg.pmCtrl e) && !(b.pmHeld e) then
    (List.range 8).foldl (fun b c => b.pmOne e pl sel amt c) b
  else b

/-- An event of R496 on engine `l`; each engine of a pair that runs as one counts its own. -/
def Blk.pm (b : Blk) (l pl sel amt : Nat) : Blk :=
  if b.joined (l / 2) then (b.pmEng l pl sel amt).pmEng (l + 1) pl sel amt else b.pmEng l pl sel amt

/-- Events whose count follows timing that the model leaves out: steps, contention, stalls, gaps, latch steps of a
resting engine and blocking steps. (DESIGN CHOICE, log 103). -/
def timingEvent (sel : Nat) : Bool :=
  sel == 0x01 || sel == 0x03 || sel == 0x0A || sel == 0x0B || sel == 0x0E || sel == 0x0F

/-- A counter whose count the model does not hold takes a free value, and may have wrapped (R494): `kc` counter, `ko` overflow register,
`pg` and `ev` the event bit. (DESIGN CHOICE, log 103). -/
def Blk.pmFreeOne (b : Blk) (kc ko c pg ev : Nat) : Blk :=
  let v := b.freeVal
  let b := (b.setReg kc (v.setWidth 32)).freeNext
  if v.getLsbD 32 then (b.setBit ko c).event pg ev else b

/-- The timing counters of unit `u` now: of an engine those of `timingEvent`, of the mover (16) slots not granted, of the switch (17)
preemption fragments. -/
def Blk.pmFreeUnit (b : Blk) (u : Nat) : Blk :=
  if u < 16 then
    if b.pmAny (Reg.pmCfg u 0) (Reg.pmCtrl u) && !(b.pmHeld u) then
      (List.range 8).foldl (fun b c =>
        let cfg := b.reg (Reg.pmCfg u c)
        if tbit cfg 31 && timingEvent (fld cfg 0 8) && decide (fld cfg 10 3 ≠ 0) then
          b.pmFreeOne (Reg.pmCnt u c) (Reg.pmOvf u) c (0x20 + u) 0 else b) b
    else b
  else if u = 16 then
    if b.pmAny (Reg.mvPmCfg 0) (Reg.mvPmCfg 8) && !(b.rb Reg.mvPmCtrl 1) then
      (List.range 8).foldl (fun b c =>
        let cfg := b.reg (Reg.mvPmCfg c)
        if tbit cfg 31 && decide (fld cfg 0 8 = 5) then b.pmFreeOne (Reg.mvPmCnt c) Reg.mvPmOvf c 0x0B0 3 else b) b
    else b
  else
    if b.pmAny (Reg.swPmCfg 0) (Reg.swPmCfg 8) && !(b.rb Reg.swPmCtrl 1) then
      (List.range 8).foldl (fun b c =>
        let cfg := b.reg (Reg.swPmCfg c)
        if tbit cfg 31 && decide (fld cfg 0 8 = 5) then b.pmFreeOne (Reg.swPmCnt c) Reg.swPmOvf c 0x0B0 3 else b) b
    else b

/-- The timing counters of engine `l` after an instruction. -/
def Blk.pmFree (b : Blk) (l : Nat) : Blk :=
  if b.joined (l / 2) then (b.pmFreeUnit l).pmFreeUnit (l + 1) else b.pmFreeUnit l

/-- A counter register is about to be read: its unit's timing counters as they stand by then. -/
def Blk.pmFresh (b : Blk) (p r : Nat) : Blk :=
  if 0x020 ≤ p ∧ p < 0x030 ∧ 0x140 ≤ r ∧ r < 0x1C0 ∧ r % 0x10 = 8 then b.pmFreeUnit (p - 0x020)
  else if p = 0x0B0 ∧ 0x80 ≤ r ∧ r < 0x180 ∧ r % 0x10 = 8 then b.pmFreeUnit (if r < 0x100 then 16 else 17)
  else b

/-- The mover's counters meet an event of R497 on channel `ch`. -/
def Blk.pmMover (b : Blk) (sel ch : Nat) : Blk :=
  if b.pmAny (Reg.mvPmCfg 0) (Reg.mvPmCfg 8) && !(b.rb Reg.mvPmCtrl 1) then
    (List.range 8).foldl (fun b c =>
      let cfg := b.reg (Reg.mvPmCfg c)
      if tbit cfg 31 && decide (fld cfg 0 8 = sel) && (tbit cfg 22 || decide (fld cfg 16 6 = ch)) then
        b.pmBump (Reg.mvPmCnt c) Reg.mvPmOvf c 0x0B0 3 (pmAdd cfg (b.reg (Reg.mvPmThr c)) 1)
      else b) b
  else b

/-- The switch's counters meet an event of R497 on a port. -/
def Blk.pmSwitch (b : Blk) (sel port amt : Nat) : Blk :=
  if b.pmAny (Reg.swPmCfg 0) (Reg.swPmCfg 8) && !(b.rb Reg.swPmCtrl 1) then
    (List.range 8).foldl (fun b c =>
      let cfg := b.reg (Reg.swPmCfg c)
      if tbit cfg 31 && decide (fld cfg 0 8 = sel) && (tbit cfg 22 || decide (fld cfg 16 6 = port)) then
        b.pmBump (Reg.swPmCnt c) Reg.swPmOvf c 0x0B0 3 (pmAdd cfg (b.reg (Reg.swPmThr c)) amt)
      else b) b
  else b

/-! Trace. -/

/-- The 16 bytes of a record as one value (R491). -/
def trcRec (ts : Word) (e t kind pl aux addr data : Nat) : BitVec 128 :=
  BitVec.ofNat 128 (ts.toNat + e % 16 * 2 ^ 32 + t % 64 * 2 ^ 36 + kind % 16 * 2 ^ 42 + pl % 4 * 2 ^ 46 +
    aux % 2 ^ 16 * 2 ^ 48 + addr % 2 ^ 32 * 2 ^ 64 + data % 2 ^ 32 * 2 ^ 96)

/-- A record enters the FIFO, or is dropped and counted where it is full; the next record written after a drop is preceded by an
OVERFLOW record (R490). -/
def Blk.trcPush (b : Blk) (r : BitVec 128) : Blk :=
  if 32 ≤ b.trc.fifo.length then
    ({ b with trc := { b.trc with lost := true } }.count Reg.trcLost 0 16).event 0x0B0 2
  else if b.trc.lost then
    let l := (b.trc.fifo ++ [trcRec (r.setWidth 32) 0 0 0xF 0 0 0 (b.rf Reg.trcLost 0 16), r]).take 32
    { b with trc := { b.trc with lost := false, fifo := l } }
  else { b with trc := { b.trc with fifo := b.trc.fifo ++ [r] } }

/-- Note the value of the last TIME record. -/
def Blk.trcTime (b : Blk) (hi : Word) : Blk := { b with trc := { b.trc with hi := some hi } }

/-- An event of engine `l` is traced if its kind and engine are enabled (R490 to R492). -/
def Blk.trace (b : Blk) (l t kind pl aux addr data : Nat) : Blk :=
  if b.rb Reg.trcCtrl 0 && b.rb Reg.trcCtrl (7 + kind) && b.rb Reg.trcCtrl (16 + l) && decide (b.sys.base ≠ 0xA) &&
      !(b.rb Reg.trcStat 1) && !(b.rb Reg.trcStat 2) then
    let now := b.interp
    let b := b.noteInterp
    let hi : Word := BitVec.ofNat 32 (now.toNat / 2 ^ 32)
    let b := if b.trc.hi = some hi then b else
      (b.trcPush (trcRec (now.setWidth 32) 0 0 8 0 0 0 hi.toNat)).trcTime hi
    b.trcPush (trcRec (now.setWidth 32) l t kind pl aux addr data)
  else b

end Sys2Proof.Machine
end

