-- ==== Sys2Proof/Machine/Sched.lean ====
section
/-! DEFINITION. Tasks and exceptions: priority and rank (R174), readiness and acceptance (R172 to R184), the input log of a pair
(R329), pending writes (R89), exception entry (R153 to R157), stack spills and fills (R59 to R71, R539) and dispatch (R177). -/
namespace Sys2Proof.Machine

/-! Logs of a pair. -/

/-- Is the pair captured: joined, in a block that has reached a running mode (R322, R466)? -/
def Blk.captured (b : Blk) (p : Nat) : Bool := b.joined p && b.sys.ran

/-- The mirrored pair whose tasks pair `q` runs: its own number, or for the spare of a migration the retired pair's (R338, R364). (DESIGN
CHOICE, log 119). -/
def Blk.mirName (b : Blk) (q : Nat) : Nat := if b.rb Reg.twin 27 && decide (b.rf Reg.pairCfg 8 3 = q) then b.rf Reg.twin 24 3 else q

/-- The pair that runs mirrored pair `p`. -/
def Blk.mirHome (b : Blk) (p : Nat) : Nat := if b.rb Reg.twin 27 && decide (b.rf Reg.twin 24 3 = p) then b.rf Reg.pairCfg 8 3 else p

/-- Does pair `q` run a mirrored pair (R347)? -/
def Blk.mirPair (b : Blk) (q : Nat) : Bool :=
  b.rb Reg.mcfgReg 0 && b.rb Reg.mcfgReg (8 + b.mirName q) && b.joined q && decide (b.mirHome (b.mirName q) = q)

/-- Does the primary stream pair `p` to the peer: mirrored, its join complete (R349, R351)? -/
def Blk.mirrored (b : Blk) (p : Nat) : Bool := decide (b.sys.base = 6) && b.mirPair p && decide ((b.pair p).join = 3)

/-- A Causeway record is handed to the mirror unit. -/
def Blk.cwSend (b : Blk) (r : CwRec) : Blk := { b with cwq := b.cwq ++ [r] }

/-- An input of pair `p` enters its log, and the stream of a mirrored pair (R329, R351). Inputs of a replay come from the log and
are not logged again. -/
def Blk.logIn (b : Blk) (p kind : Nat) (aux : Nat) (data : Nat) : Blk :=
  if b.captured p && decide ((b.pair p).phase = .live) then
    let x := b.pair p
    let e : InEntry := ⟨x.spc, BitVec.ofNat 4 kind, BitVec.ofNat 64 aux, BitVec.ofNat 128 data⟩
    let b := b.setPair p { x with ins := x.ins ++ [e] }
    if b.mirrored p then b.cwSend (.input (b.mirName p) e) else b
  else b

/-- Is the word at `a` one whose loads a pair's log records always: not in a bank of its own (R329)? -/
def Blk.loggedWord (b : Blk) (p a : Nat) : Bool :=
  match place a with
  | .rom => false
  | .scratch | .setAlias | .clrAlias =>
    !(decide (b.owner (unalias a / 0x40000) = some p)) || (b.pair p).mv.contains (unalias a / 64)
  | _ => true

/-- Log the words that a load has read; `f` gives the value of the word at an address. (DEDUCED, log 127). -/
def Blk.logWords (b : Blk) (p : Nat) (ws : List (Nat × Nat)) (f : Nat → Nat) : Blk :=
  ws.foldl (fun b h => if b.loggedWord p h.1 then b.logIn p 1 (h.1 / 16 * 16) (f (h.1 / 16 * 16)) else b) b

/-! Priority, rank, readiness. -/

/-- `TSTAT.PRIO` of task `t` of engine `l` without the bypass mark (R174, R183). -/
def Blk.basePrio (b : Blk) (l t : Nat) : Nat :=
  let c := b.task l t
  let k := c.chain.foldl (fun a x => Nat.max a x.2) 0
  ((b.eng l).stack.foldl (fun a s => if s.task = t then Nat.max a s.prio else a) (Nat.max (fld c.tstat 16 4) k))

/-- A task's rank: bypass rank stands above every priority (R174). -/
def Blk.rank (b : Blk) (l t : Nat) : Nat := if (b.task l t).byp then 16 else b.basePrio l t

/-- `TSTAT` as it reads, PRIO computed (R79, R174, R184). -/
def Blk.tstatRead (b : Blk) (l t : Nat) : Word := putFld (b.task l t).tstat 12 4 (Nat.min 15 (b.rank l t))

/-- The level at which engine `l` executes. -/
def Blk.pl (b : Blk) (l : Nat) : Nat := fld (b.task l (b.eng l).cur).tstat 0 2

/-- Does the engine execute at PL 3? -/
def Blk.atMach (b : Blk) (l : Nat) : Bool := (b.eng l).run && decide (b.pl l = 3)

/-- An engine takes a step of its own grid: an issue, a dispatch or an entry (R174). -/
def Blk.stepOn (b : Blk) (l : Nat) : Blk := { b.setEng l { b.eng l with now := b.stamp + 1 } with stamp := b.stamp + 1 }

/-- The step at which the scheduler of engine `l` registers a cause that reaches it now (R174): the one that follows the engine's own
last step; on a resting engine, whose ring steps no command shows, the one that follows the last step of any engine. (DESIGN CHOICE, log 140). -/
def Blk.moment (b : Blk) (l : Nat) : Nat := if (b.eng l).run then (b.eng l).now else b.stamp

/-- A task becomes Ready at the present moment (R174). -/
def Blk.makeReady (b : Blk) (l t : Nat) : Blk := b.setTask l t { b.task l t with st := .ready, readyAt := b.moment l }

/-! Steps (R37, R44, R45). -/

/-- Is scratchpad bank `k` a home bank of engine `l` (R222)? -/
def Blk.homeBank (b : Blk) (l k : Nat) : Bool :=
  if b.twin (l / 2) then decide (k / 12 = l / 2) else decide (k / 6 = l)

/-- The region adder of an access to address `a` by engine `l` (R44). -/
def Blk.regionAdder (b : Blk) (l a : Nat) : Nat :=
  match place a with
  | .scratch | .setAlias | .clrAlias => if b.homeBank l (unalias a / 0x40000) then 0 else 2
  | .packet => 4
  | .page => 6
  | .rom => 2
  | .ext | .nowhere => 0

/-- The unaligned adder of an access of `n` bytes at `a` that is split: +1 within one bank, +2 across two (R44, R115). -/
def splitAdder (a n : Nat) : Nat :=
  if place a = .ext ∨ place a = .nowhere then 0
  else if unalias a / 0x40000 = (unalias a + n - 1) / 0x40000 then 1 else 2

/-- The executing instruction touches a region with adder `r` and pays the unaligned adder `u`: the slowest region once, the
unaligned adder once (R45). -/
def Blk.pay (b : Blk) (l r u : Nat) : Blk :=
  let x := b.eng l
  if r ≤ x.adR ∧ u ≤ x.adU then b else b.setEng l { x with adR := Nat.max x.adR r, adU := Nat.max x.adU u }

/-- It touches the parts `hs`. -/
def Blk.payOn (b : Blk) (l : Nat) (hs : List (Nat × Nat)) : Blk :=
  b.pay l (hs.foldl (fun m h => Nat.max m (b.regionAdder l h.1)) 0) 0

/-- The adders that the executing instruction has met. -/
def Blk.adders (b : Blk) (l : Nat) : Nat := (b.eng l).adF + (b.eng l).adR + (b.eng l).adU

/-- The adders have been counted (R496, event 0x04). -/
def Blk.paid (b : Blk) (l pl : Nat) : Blk :=
  let x := b.eng l
  if x.adF = 0 ∧ x.adR = 0 ∧ x.adU = 0 then b
  else
    let b := if x.adR + x.adU = 0 then b else b.pm l pl 0x04 (x.adR + x.adU)
    b.setEng l { b.eng l with adF := 0, adR := 0, adU := 0 }

/-- Steps of an engine beside those of a switch point count for its pair (R322, R355). (DEDUCED, log 117). -/
def Blk.addSteps (b : Blk) (l n : Nat) : Blk :=
  if b.joined (l / 2) then
    let x := b.pair (l / 2)
    b.setPair (l / 2) { x with steps := x.steps + n, total := if b.mirrored (l / 2) && decide (x.phase = .live) then x.total + n else x.total }
  else b

/-- Does a task accept a delivery or sample (R181)? -/
def Blk.accepts (b : Blk) (l t : Nat) : Bool :=
  let c := b.task l t
  match c.st with
  | .idle => true
  | .waiting => decide (c.wait = some .wfe) || decide (c.wait = some .wfex)
  | _ => false

/-- A task accepts the entry `e`: it is pushed, and a wait completed, at the dispatch (R177, R181, R541). -/
def Blk.accept (b : Blk) (l t : Nat) (e : Entry128) : Blk :=
  let c := b.task l t
  let w := if c.st = .waiting then c.wait else none
  let c := { c with held := c.held ++ [⟨e, w⟩], wait := (if c.st = .waiting then none else c.wait), woke := none }
  (b.setTask l t c).makeReady l t

/-! Fetching. -/

/-- The exception that fetching the byte at `a` raises for engine `l` at level `pl` (R31, R32, R113, R117). -/
def Blk.fetchExc (b : Blk) (l pl a : Nat) : Option Exc :=
  match place a with
  | .nowhere => some (excAt 0x05 0 a)
  | .rom => none
  | .scratch =>
    if !(b.admits l pl (some (l / 2)) .fetch a) then some (excAt 0x04 0 a)
    else if !(b.bankOn (a / 0x40000)) then some (excAt 0x0F 1 a)
    else if b.eccAt a = 3 then some (excAt 0x0E 1 (a / 16 * 16))
    else none
  | _ => some (excAt 0x04 0 a)

/-- The causes of a failing fetch in the order of R168. -/
def fetchOrder : List Nat := [0x05, 0x04, 0x0F, 0x0E]

/-- The exception of `n` bytes from `a` on that cannot all be fetched: the check that comes first, at its first failing byte (R166,
R168). -/
def Blk.fetchExcN (b : Blk) (l pl a n : Nat) : Option Exc :=
  let xs := (List.range n).filterMap fun i => b.fetchExc l pl (a + i)
  match xs with
  | [] => none
  | _ :: _ => fetchOrder.findSome? fun c => xs.find? fun x => x.cause == c

/-- The byte at `a` as the fetch buffer takes it; zero where it cannot be fetched (R151). -/
def Blk.fetchByte (b : Blk) (l pl a : Nat) : Byte := if (b.fetchExc l pl a).isSome then 0 else b.view l a

/-- The next `n` bytes from `a` on for the fetch buffer. -/
def Blk.fetchN (b : Blk) (l pl a : Nat) : Nat → List Byte
  | 0 => []
  | n + 1 => b.fetchByte l pl a :: b.fetchN l pl (a + 1) n

/-- A fetch reads the words of `n` bytes from `a` on: correctable errors are noted (R235). -/
def Blk.fetchNotes (b : Blk) (l pl a n : Nat) : Blk :=
  if b.ecc.isEmpty then b
  else (List.range n).foldl (fun b i =>
    if place (a + i) = .scratch ∧ b.eccAt (a + i) = 1 ∧ (b.fetchExc l pl (a + i)).isNone = true then b.noteCe (a + i) else b) b

/-- The fetch buffer is refreshed at the PC (R127): 32 bytes from there on. -/
def Blk.refetch (b : Blk) (l : Nat) : Blk :=
  let a := (b.task l (b.eng l).cur).pc.toNat
  let d := b.fetchN l (b.pl l) a 32
  (b.setEng l { b.eng l with fpc := a, fbuf := d, flines := [] }).fetchNotes l (b.pl l) a 32

/-- The fetch buffer as an instruction of `len` bytes executes: its own bytes and the 32 that follow (R127); what was in the buffer
stays as it was fetched. -/
def Blk.fillBuf (b : Blk) (l len : Nat) : Blk :=
  let x := b.eng l
  let a := (b.task l x.cur).pc.toNat
  let old := if x.fpc = a then x.fbuf else []
  let n := len + 32 - old.length
  if n = 0 then b
  else
    let d := b.fetchN l (b.pl l) (a + old.length) n
    (b.setEng l { x with fpc := a, fbuf := old ++ d }).fetchNotes l (b.pl l) (a + old.length) n

/-- An instruction of `len` bytes pays for each fetch line its bytes enter (R44): 2 steps for a line of a bank that is no home bank, or
of the boot ROM. (DEDUCED, log 141). -/
def Blk.payFetch (b : Blk) (l len : Nat) : Blk :=
  let x := b.eng l
  let a := (b.task l x.cur).pc.toNat
  let lines := (List.range ((a + len - 1) / 16 + 1 - a / 16)).map fun i => a / 16 + i
  if lines = x.flines then b
  else
    let new := lines.filter fun n => !(x.flines.contains n)
    b.setEng l { x with flines := lines, adF := x.adF + (new.foldl (fun s n => s + b.regionAdder l (16 * n)) 0) }

/-- The first 4 instruction bytes at the PC, for INFO (R151): those of the fetch buffer. -/
def Blk.infoBytes (b : Blk) (l : Nat) : Nat :=
  let a := (b.task l (b.eng l).cur).pc.toNat
  if (b.eng l).fpc = a then leNat ((b.eng l).fbuf.take 4) else leNat (b.fetchN l (b.pl l) a 4)

/-! Pending writes (R89). -/

/-- Apply the pending writes of engine `l` and of its current task. -/
def Blk.applyPending (b : Blk) (l : Nat) : Blk :=
  let x := b.eng l
  let c := b.task l x.cur
  (b.setEng l { x with svecLive := x.svec, mvecLive := x.mvec, delegLive := x.deleg, regOld := [] }).setTask l x.cur
    { c with precLive := tbit c.tstat 3, vcfgLive := c.vcfg }

/-! Exception entry. -/

/-- Does the governing `DELEG` delegate cause `n`? -/
def Blk.delegates (b : Blk) (l n : Nat) : Bool := tbit (b.eng l).delegLive n

/-- The level that takes an exception (R153). -/
def Blk.excLevel (b : Blk) (l fromPl : Nat) (x : Exc) : Nat :=
  if fromPl ≠ 0 then 3
  else if x.cause = 0x08 ∨ x.cause = 0x09 ∨ x.cause = 0x0E ∨ x.cause = 0x13 then 3
  else if x.cause = 0x0B then (if b.delegates l 0x0B || b.delegates l x.sub then 1 else 3)
  else if b.delegates l x.cause then 1 else 3

/-- The cause word of R152. -/
def causeWord (x : Exc) (imprecise nested : Bool) (fromPl task : Nat) : Word :=
  BitVec.ofNat 32 (x.cause % 256 + bit imprecise * 2 ^ 8 + bit nested * 2 ^ 9 + fromPl % 4 * 2 ^ 10 +
    x.sub % 64 * 2 ^ 12 + task % 64 * 2 ^ 18 + x.hi % 256 * 2 ^ 24)

/-- Exception entry on engine `l` in its current task, saving `savePc` (R155). -/
def Blk.enter (b : Blk) (l : Nat) (x : Exc) (imprecise : Bool) (savePc : Nat) : Blk :=
  let t := (b.eng l).cur
  let c := b.task l t
  let old := fld c.tstat 0 2
  let lev := b.excLevel l old x
  let base := if lev = 3 then (b.eng l).mvecLive else (b.eng l).svecLive
  let stat := b.tstatRead l t
  let cw := causeWord x imprecise (decide (old = 3)) old t
  let pc : Word := BitVec.ofNat 32 savePc
  let info : Word := BitVec.ofNat 32 x.info
  let b := if lev = 3 then
      b.setEng l { b.eng l with msavePc := pc, msaveStat := stat, mcause := cw, minfo := info }
    else b.setTask l t { c with ssavePc := pc, ssaveStat := stat, scause := cw, sinfo := info }
  let c := b.task l t
  let b := b.setTask l t { c with tstat := putFld (putFld c.tstat 0 2 lev) 2 1 0
                                  pc := base + BitVec.ofNat 32 (x.cause * 0x20) }
  let b := (b.applyPending l).setEng l { (b.applyPending l).eng l with vecFetch := some lev, arith := none, mid := false }
  ((((b.addSteps l 3).stepOn l).refetch l).pm l lev 0x08 1).trace l t 2 old x.cause savePc x.info

/-- A double fault (R164): the save words as an entry at machine level would write them, cause 0x12, and the engine halts. The
safety manager records it; `ACTION` decides what follows (R165, R339). -/
def Blk.dblHalt (b : Blk) (l sub addr : Nat) : Blk :=
  let t := (b.eng l).cur
  let c := b.task l t
  let old := fld c.tstat 0 2
  let x : Exc := excAt 0x12 sub addr
  let b := b.setEng l { b.eng l with
    msavePc := c.pc
    msaveStat := b.tstatRead l t
    mcause := causeWord x false (decide (old = 3)) old t
    minfo := BitVec.ofNat 32 x.info
    df := true
    arith := none
    sel := none
    mid := false
    vecFetch := none }
  (b.flt pgSafety 0).setF (regKey pgSafety Reg.hFaultInfo) 0 4 l

/-- Restart of an engine after a double fault (R165): machine stacks emptied, every task but task 0 Halted, task 0 at PL 3 at
the restart entry. (DEDUCED, log 165). -/
def Blk.restart (b : Blk) (l : Nat) : Blk :=
  let b := (List.range 64).foldl (fun b t =>
    if t = 0 then b else b.setTask l t { b.task l t with st := .halted, woke := none }) b
  let c := b.task l 0
  let b := b.setTask l 0 { c with st := .running, tstat := putFld (putFld c.tstat 0 2 3) 2 1 0, pc := (b.eng l).mvecLive,
                                  req := none }
  let b := b.setEng l { b.eng l with mds := [], mrs := [], mdsp := 0x1000, mrsp := 0x800, df := false, run := true, cur := 0,
                                     vecFetch := some 3, arith := none, waitM := none, sel := none, mid := false }
  b.refetch l

/-- Safe Hold is entered for a cause (R339, R343). -/
def Blk.safeHold (b : Blk) (cause : Nat) : Blk :=
  if b.sys.hold then b
  else ((({ b with sys := { b.sys with hold := true } }.setF Reg.holdCause 0 4 cause).event pgSafety 2).sleepAbort 5).driveAll.showMode

/-- A double fault with the action that `SAFETY.ACTION` selects. -/
def Blk.dblFault (b : Blk) (l sub addr : Nat) : Blk :=
  let b := b.dblHalt l sub addr
  if b.rb Reg.action 0 then b.restart l else b.safeHold 4

/-! Stack memory (R59 to R71, R539). -/

/-- Why a spill or fill cannot be made: an exception; a double fault; the record of the filled word has not come (R353). -/
inductive StkFail where
  | exc (x : Exc)
  | dbl (sub addr : Nat)
  | wait
  deriving DecidableEq, Repr

/-- One stack as an instruction sees it: cached entries, pointer, base, limit, visible depth; of the task or of the machine,
data or return. -/
structure StkView where
  cache : List Entry128
  sp    : Nat
  base  : Nat
  lim   : Nat
  depth : Nat
  mach  : Bool
  ret   : Bool
  deriving DecidableEq, Repr

/-- The data (`ret` false) or return stack that code at level `pl` uses (R69). -/
def Blk.stk (b : Blk) (l t pl : Nat) (ret : Bool) : StkView :=
  if pl = 3 then
    let x := b.eng l
    let m := x.mstk.toNat
    if ret then ⟨x.mrs, m + x.mrsp.toNat, m + 0x800, m, 4, true, true⟩
    else ⟨x.mds, m + x.mdsp.toNat, m + 0x1000, m + 0x800, 4, true, false⟩
  else
    let c := b.task l t
    if ret then ⟨c.rs, c.rsp.toNat, c.rsbase.toNat, c.rslim.toNat, 12, false, true⟩
    else ⟨c.ds, c.dsp.toNat, c.dsbase.toNat, c.dslim.toNat, 12, false, false⟩

/-- Write a stack's cache and pointer back. -/
def Blk.setStk (b : Blk) (l t : Nat) (v : StkView) : Blk :=
  if v.mach then
    let x := b.eng l
    if v.ret then b.setEng l { x with mrs := v.cache, mrsp := BitVec.ofNat 32 (v.sp - x.mstk.toNat) }
    else b.setEng l { x with mds := v.cache, mdsp := BitVec.ofNat 32 (v.sp - x.mstk.toNat) }
  else
    let c := b.task l t
    if v.ret then b.setTask l t { c with rs := v.cache, rsp := BitVec.ofNat 32 v.sp }
    else b.setTask l t { c with ds := v.cache, dsp := BitVec.ofNat 32 v.sp }

/-- The checks of one spill or fill at `a` by engine `l` at level `pl` (R66, R71): outside the scratchpad, region denied, bank
not on, and, for a fill, an uncorrectable word. -/
def Blk.stkCheck (b : Blk) (l pl : Nat) (v : StkView) (fill : Bool) (a : Nat) : Option StkFail :=
  let code := if v.ret then 0x09 else 0x08
  let bad := fun sub => if v.mach then StkFail.dbl 1 a else StkFail.exc (excAt code sub a)
  let outside := decide (0x1800000 ≤ a)
  let p := l / 2
  let denied := !(b.admits l pl (some p) (if fill then .load else .store) a) ||
    (b.twin p && b.sys.ran && !(decide (b.owner (a / 0x40000) = some p)))
  if outside then some (bad 4)
  else if denied then some (bad 2)
  else if !(b.bankOn (a / 0x40000)) then some (bad 3)
  else if fill && decide (b.eccAt a = 3) then
    some (if v.mach then .dbl 2 a else .exc (excAt 0x0E 2 a))
  else none

/-- The input entry that gives a replayed fill of the word at `a` (R63, R332). (DEDUCED, log 142). -/
def Blk.fillEntry (b : Blk) (p a : Nat) : Option InEntry :=
  let x := b.pair p
  if x.phase = .replay ∨ x.phase = .follow then
    x.cursor.find? fun i => i.kind == 1 && i.spc == x.spc && i.aux == BitVec.ofNat 64 a
  else none

/-- The entry that a fill at `a` by engine `l` reads: a load of the engine, or of its pair with the pair's log (R63); none where a
follower has not received it. -/
def Blk.fillWord (b : Blk) (l a : Nat) : Option Entry128 :=
  if b.joined (l / 2) then
    match b.fillEntry (l / 2) a with
    | some i => some i.data
    | none =>
      if (b.pair (l / 2)).phase = .follow ∧ b.loggedWord (l / 2) a = true then none else some (BitVec.ofNat 128 (leNat (b.viewN l a 16)))
  else some (BitVec.ofNat 128 (leNat (b.viewN l a 16)))

/-- What a fill of the value `v` from `a` leaves beside the stack: the error state, and the pair's log (R63, R235, R329). -/
def Blk.fillDone (b : Blk) (l a : Nat) (v : Entry128) : Blk :=
  let b := b.eccRead a
  let p := l / 2
  if !(b.joined p) then b
  else match b.fillEntry p a with
    | some i => b.setPair p { b.pair p with cursor := (b.pair p).cursor.erase i }
    | none => b.logWords p [(a, 16)] fun _ => v.toNat

/-- Make `k` fills: the entries read, newest first, and the new pointer (R60, R64). -/
def Blk.fillN (b : Blk) (l pl : Nat) (v : StkView) : Nat → Nat → Except StkFail (List Entry128 × Nat)
  | 0, sp => .ok ([], sp)
  | k + 1, sp =>
    if v.base ≤ sp then .error (if v.mach then .dbl 0 sp else .exc (excAt (if v.ret then 0x09 else 0x08) 1 sp))
    else
      match b.stkCheck l pl v true sp with
      | some f => .error f
      | none =>
        match b.fillWord l sp with
        | none => .error .wait
        | some w =>
          match b.fillN l pl v k (sp + 16) with
          | .error f => .error f
          | .ok (r, sp') => .ok (w :: r, sp')

/-- The address of the entry below pointer `sp`, modulo 2^40. (DEDUCED, log 44). -/
def entryBelow (sp : Nat) : Nat := (sp + 2 ^ 40 - 16) % 2 ^ 40

/-- Why the spill below pointer `sp` cannot be made, if so (R64). (DEDUCED, log 44). -/
def Blk.spillFail (b : Blk) (l pl : Nat) (v : StkView) (sp : Nat) : Option StkFail :=
  if sp < v.lim + 16 then
    some (if v.mach then .dbl 0 (sp - 16) else .exc (excAt (if v.ret then 0x09 else 0x08) 0 (entryBelow sp)))
  else b.stkCheck l pl v false (sp - 16)

/-- The pointers above `k` entries below pointer `sp`, in order. -/
def spillPtrs (k sp : Nat) : List Nat := (List.range k).map fun i => sp - 16 * i

/-- Check `k` spills below pointer `sp`: the addresses, in the order they are made (R59, R64). -/
def Blk.spillN (b : Blk) (l pl : Nat) (v : StkView) (k sp : Nat) : Except StkFail (List Nat) :=
  match (spillPtrs k sp).findSome? fun p => b.spillFail l pl v p with
  | some f => .error f
  | none => .ok ((spillPtrs k sp).map fun p => p - 16)

/-- A stack made ready for an instruction that needs `need` operands and leaves `made` results in their place: the cache after
the fills, the pointer after them, and the addresses of the spills that follow. -/
structure StkPlan where
  view   : StkView
  spills : List Nat
  fills  : Nat
  deriving DecidableEq, Repr

/-- Plan the fills and spills of one stack (R59, R60, R65, R539). -/
def Blk.plan (b : Blk) (l t pl : Nat) (ret : Bool) (need made : Nat) : Except StkFail StkPlan :=
  let v := b.stk l t pl ret
  let k := need - v.cache.length
  match b.fillN l pl v k v.sp with
  | .error f => .error f
  | .ok (r, sp) =>
    let cache := v.cache ++ r
    match b.spillN l pl v (cache.length - need + made - v.depth) sp with
    | .error f => .error f
    | .ok ads => .ok ⟨{ v with cache := cache, sp := sp }, ads, k⟩

/-- One output of a pair in Twin waits for its release. (DEDUCED, log 22). -/
def Blk.enqueue (b : Blk) (p : Nat) (o : Out) : Blk :=
  b.setPair p { b.pair p with q := (b.pair p).q ++ [o] }

/-- The byte-enable mask and data of a store for its digest (R321): 16 mask bits for each word from the first on. -/
def maskBytes (a n : Nat) : List Byte :=
  let words := (a % 16 + n + 15) / 16
  toLe (2 * words) ((2 ^ n - 1) * 2 ^ (a % 16))

/-- The class of a pair's store (R317). -/
def Blk.storeCls (b : Blk) (p a : Nat) : OutCls :=
  match place a with
  | .ext => .external
  | .packet => .shared
  | _ => if b.owner (unalias a / 0x40000) = some p then .priv else .shared

/-- Is `l` an engine of a pair in Twin that a debug halt has broken (R340, R488)? -/
def Blk.apart (b : Blk) (l : Nat) : Bool := b.twin (l / 2) && b.broken (l / 2)

/-- Is an output of engine `l` discarded: the odd engine of a broken pair (R488)? (DEDUCED, log 129). -/
def Blk.oddOut (b : Blk) (l : Nat) : Bool := b.apart l && decide (l % 2 = 1)

/-- Must the even engine of a broken pair halt before an instruction with an output of class `c` (R488)? (DEDUCED, log 130). -/
def Blk.outBar (b : Blk) (l : Nat) (c : OutCls) : Bool :=
  b.apart l && decide (l % 2 = 0) && decide (c ≠ .priv) && decide (c ≠ .duty) && !(b.rb Reg.dbgCtrl 0)

/-- Engine `l` stores bytes at a memory address: at once in Split, at its release in a pair that runs as one. -/
def Blk.engStore (b : Blk) (l a : Nat) (d : List Byte) : Blk :=
  let p := l / 2
  if b.joined p then
    b.enqueue p { cls := b.storeCls p a, act := .store a d, tgt := unalias a / 16 * 16,
                  data := maskBytes (unalias a) d.length ++ d, spc := (b.pair p).spc }
  else if b.oddOut l then b
  else if decide (place a = .ext) && !b.seqOpen then b.seqDrop
  else b.performStore l (some p) a d

/-- The words that a store of these parts writes, ascending, each once. -/
def partWords (ps : List (Nat × List Byte)) : List Nat := (ps.map fun x => unalias x.1 / 16 * 16).eraseDups

/-- The byte-enable mask of one word of a store of parts that each lie within one word (R321). -/
def partMask (ps : List (Nat × List Byte)) (w : Nat) : Nat :=
  ps.foldl (fun m x => if unalias x.1 / 16 * 16 = w then m ||| (2 ^ x.2.length - 1) * 2 ^ (x.1 % 16) else m) 0

/-- Engine `l` makes a vector store of the parts: those of one class are one output (R317, R321). (DEDUCED, log 40). -/
def Blk.engStores (b : Blk) (l : Nat) (ps : List (Nat × List Byte)) : Blk :=
  let p := l / 2
  if b.joined p then
    ((ps.map fun x => b.storeCls p x.1).eraseDups).foldl (fun b' c =>
      let qs := ps.filter fun x => decide (b.storeCls p x.1 = c)
      b'.enqueue p { cls := c, act := .stores qs, tgt := (partWords qs).headD 0, spc := (b.pair p).spc
                     data := ((partWords qs).flatMap fun w => toLe 2 (partMask qs w)) ++ qs.flatMap fun x => x.2 }) b
  else if b.oddOut l then b
  else if (ps.any fun x => decide (place x.1 = .ext)) && !b.seqOpen then b.seqDrop
  else ps.foldl (fun b x => b.performStore l (some p) x.1 x.2) b

/-- Write the spilled entries, oldest first. -/
def Blk.doSpills (b : Blk) (l : Nat) : List Nat → List Entry128 → Blk
  | a :: as, x :: xs => (b.engStore l a (toLe 16 x.toNat)).doSpills l as xs
  | _, _ => b

/-- Leave a stack with `out` in place of the `need` operands of its plan: spills performed, cache and pointer written back. -/
def Blk.putStack (b : Blk) (l t pl : Nat) (pn : StkPlan) (need : Nat) (out : List Entry128) : Blk :=
  let full := out ++ pn.view.cache.drop need
  let keep := full.length - pn.spills.length
  let got := pn.view.cache.drop (pn.view.cache.length - pn.fills)
  let b := (List.range pn.fills).foldl (fun b i => b.fillDone l (pn.view.sp - 16 * (pn.fills - i)) (got.getD i 0)) b
  let b := b.doSpills l pn.spills (full.drop keep).reverse
  let b := (List.range (pn.fills + pn.spills.length)).foldl (fun b _ => b.pm l pl 0x05 1) b
  b.setStk l t { pn.view with cache := full.take keep, sp := pn.view.sp - 16 * pn.spills.length }

/-- What a failed spill or fill does, in place of the instruction at `savePc`. -/
def Blk.stkFail (b : Blk) (l : Nat) (f : StkFail) (savePc : Nat) : Blk :=
  match f with
  | .exc x => (if x.cause = 0x0E then b.noteUe x.info else b).enter l x false savePc
  | .dbl sub a => (if sub = 2 then b.noteUe a else b).dblFault l sub a
  | .wait => b

/-! The switch point. -/

/-- The SPC and the steps of a pair that runs as one move on (R322, R328). (DEDUCED, log 33). -/
def Blk.tickSpc (b : Blk) (l steps : Nat) : Blk :=
  if b.joined (l / 2) then
    let x := b.pair (l / 2)
    let x := { x with spc := x.spc + 1, steps := x.steps + steps }
    if b.mirrored (l / 2) && decide (x.phase = .live) then
      let tot := x.total + steps
      let ent := ((b.reg (Reg.msCount (l / 2))).toNat + bit x.pend.isSome, x.spc, tot)
      b.setPair (l / 2) { x with total := tot, hist := x.hist ++ [ent] }
    else b.setPair (l / 2) x
  else b

/-- Report a pending imprecise `ARITH` (R160): the entry saves the PC of the first instruction not performed. -/
def Blk.reportArith (b : Blk) (l : Nat) : Blk :=
  match (b.eng l).arith with
  | none => b
  | some a => b.enter l ⟨0x0A, a.conds.toNat, a.addr % 2 ^ 32, a.addr / 2 ^ 32 % 256⟩ true (b.task l (b.eng l).cur).pc.toNat

/-- Does engine `l` stand inside an instruction that is not a switch point (R176): a stall, an atomic that waits for its release, a load
that waits for the memory port? -/
def Blk.midInstr (b : Blk) (l : Nat) : Bool :=
  (b.eng l).mid || (b.eng l).atomic.isSome || !(b.eng l).extReq.isEmpty || !(b.eng l).extGot.isEmpty

/-- A STOP or HALT asked of the Running task takes effect at a switch point below PL 3 (R173, R175). -/
def Blk.settle (b : Blk) (l : Nat) : Blk :=
  let t := (b.eng l).cur
  match (b.task l t).req with
  | none => b
  | some h =>
    if !(b.eng l).run || b.atMach l || b.midInstr l then b
    else
      let b := b.reportArith l
      if b.atMach l then b
      else (b.setTask l t { b.task l t with st := if h then .halted else .idle, req := none,
                                            byp := if h then (b.task l t).byp else false }).setEng l
        { b.eng l with run := false }

end Sys2Proof.Machine
end

