-- ==== Sys2Proof/Machine/RouterOps.lean ====
section
/-! DEFINITION. The event router's operations: levels, requests, candidates, selection, commit and quarantine (R194 to R214), and
dispatch (R174 to R179, R204, R541). -/
namespace Sys2Proof.Machine

/-- The level of source `n` (R194). -/
def Blk.level (b : Blk) (n : Nat) : Bool :=
  if n < 256 then pageExists n && decide (b.evtPend n ≠ 0) else Tab.get (fun _ => false) b.router.ext (n - 256)

/-- A router bit register's bit for source `n`. -/
def Blk.srcBit (b : Blk) (r : Nat → Nat) (n : Nat) : Bool := b.rb (r (n / 32)) (n % 32)

/-- Is source `n` requesting (R196)? -/
def Blk.requesting (b : Blk) (n : Nat) : Bool := b.level n || b.srcBit Reg.swpend n

/-- The engine that stands for engine `l` at the router: the even one of a pair in Twin (R198, R214, R488). -/
def Blk.stands (b : Blk) (l : Nat) : Bool := !(b.twin (l / 2)) || decide (l % 2 = 0)

/-- Is source `n` active: on some engine's priority stack (R196)? -/
def Blk.isActive (b : Blk) (n : Nat) : Bool := b.engines.any fun x => b.stands x.1 && x.2.stack.any fun s => s.src == n

/-- Is source `n` selected by some engine (R204)? -/
def Blk.isSelected (b : Blk) (n : Nat) : Bool := b.engines.any fun x => b.stands x.1 && match x.2.sel with
  | some s => s.src == n
  | none => false

/-- Is source `n` pending (R196)? -/
def Blk.isPending (b : Blk) (n : Nat) : Bool :=
  b.requesting n && b.srcBit Reg.srcEn n && !(b.srcBit Reg.quar n) && !(b.isSelected n) && !(b.isActive n)

/-- `CFG.PRIO` and the targets of a source (R198). -/
def Blk.srcPrio (b : Blk) (n : Nat) : Nat := b.rf (Reg.srcCfg n) 16 4

/-- The engine that stands for a target: the even one for a pair in Twin. -/
def Blk.targets (b : Blk) (n e : Nat) : Bool :=
  let c := b.reg (Reg.srcCfg n)
  if b.twin (e / 2) then tbit c (e / 2 * 2) || tbit c (e / 2 * 2 + 1) else tbit c e

/-- Is pair `p` the unused spare, held closed (R343)? -/
def Blk.idleSpare (b : Blk) (p : Nat) : Bool :=
  b.rb Reg.pairCfg 11 && decide (b.rf Reg.pairCfg 8 3 = p) && !(b.rb Reg.twin 27)

/-- Is engine `l` closed to deliveries (R214, R330, R343, R488)? -/
def Blk.closed (b : Blk) (l : Nat) : Bool :=
  (b.eng l).halted || (b.eng l).df || b.retired (l / 2) || decide (b.sys.base = 0xA) || decide (b.sys.base < 2) ||
  decide ((b.pair (l / 2)).phase ≠ .live) || b.idleSpare (l / 2) || (b.broken (l / 2) && decide (l % 2 = 1))

/-- The threshold and level binding registers of an engine; the even engine's for a pair in Twin (R185, R216). -/
def Blk.cfgEng (b : Blk) (l : Nat) : Nat := if b.twin (l / 2) then l / 2 * 2 else l

/-- The task bound at priority `p` on engine `l` (R182, R191). -/
def Blk.boundAt (b : Blk) (l p : Nat) : Option Nat :=
  let w := b.reg (Reg.lvlmap (b.cfgEng l) (p / 4))
  if tbit w (8 * (p % 4) + 7) then some (fld w (8 * (p % 4)) 6) else none

/-- Conditions 2 to 7 of R201 for source `n` on engine `l`; `chain` is the task that executes an `EVDONE` there (R209). -/
def Blk.openFor (b : Blk) (l n : Nat) (chain : Option Nat) : Bool :=
  let pr := b.srcPrio n
  let x := b.eng l
  b.targets n l && !(b.closed l) &&
  decide (b.rf (Reg.thresh (b.cfgEng l)) 0 5 ≤ pr) &&
  (match x.stack with
   | [] => true
   | s :: _ => decide (s.prio < pr)) &&
  !(b.atMach l) &&
  (match b.boundAt l pr with
   | none => false
   | some t =>
     (b.accepts l t || decide (chain = some t)) &&
     (!x.run || decide (pr ≤ b.rank l x.cur) || tbit (b.task l x.cur).tstat 2 || decide (chain = some t)))

/-- The distance of engine `e` from the rotation pointer of source `n` (R199). -/
def Blk.rotDist (b : Blk) (n e : Nat) : Nat := (e + 16 - Tab.get (fun _ => 0) b.router.rr n % 16) % 16

/-- The first target of source `n` at or after engine `e`, wrapping (R199); `e` where the source has none. -/
def Blk.targetFrom (b : Blk) (n e : Nat) : Nat :=
  (((List.range 16).map fun k => (e + k) % 16).find? fun k => b.stands k && b.targets n k).getD (e % 16)

/-- The target at the head of source `n`'s rotation (R199, R217). -/
def Blk.rotHead (b : Blk) (n : Nat) : Nat := b.targetFrom n (Tab.get (fun _ => 0) b.router.rr n)

/-- Condition 8: no target earlier in the rotation order is open for the source: its latest latch step found it so, and it has not been
closed since (R199, R214). (DEDUCED, log 45). -/
def Blk.rotAllows (b : Blk) (l n : Nat) : Bool :=
  (List.range 16).all fun e =>
    !(b.stands e && decide (b.rotDist n e < b.rotDist n l) && decide (e ≠ l) && b.targets n e && !(b.closed e) &&
      (b.eng e).seen.contains n)

/-- The sources whose configuration is listed, and so may have a target. -/
def Blk.cfgSrcs (b : Blk) : List Nat :=
  b.regs.filterMap fun x =>
    if Reg.srcCfg 0 ≤ x.1 ∧ x.1 < Reg.srcEn 0 ∧ x.1 % 0x4000 % 8 = 0 ∧ 0x40 ≤ x.1 % 0x4000 ∧ x.1 % 0x4000 < 0x840 then
      some ((x.1 / 0x4000 - 0x11) * 256 + (x.1 % 0x4000 - 0x40) / 8) else none

/-- A latch step of engine `l` notes the sources that it is open for (R199). (DEDUCED, log 45). -/
def Blk.noteOpen (b : Blk) (l : Nat) : Blk :=
  let s := b.cfgSrcs.filter fun n => b.openFor l n none
  if s = (b.eng l).seen then b else b.setEng l { b.eng l with seen := s }

/-- Is source `n` a candidate at engine `l`'s latch step (R201)? -/
def Blk.candidate (b : Blk) (l n : Nat) (chain : Option Nat) : Bool :=
  b.isPending n && b.openFor l n chain && b.rotAllows l n

/-- The sources that may be pending at all: those whose enable bit is set. -/
def Blk.enabledSrcs (b : Blk) : List Nat :=
  (List.range 32).flatMap fun j =>
    if b.reg (Reg.srcEn j) = 0 then [] else (List.range 32).filterMap fun i =>
      if b.rb (Reg.srcEn j) i then some (32 * j + i) else none

/-- The best candidate: highest priority, lowest number (R202). -/
def Blk.bestCand (b : Blk) (l : Nat) (chain : Option Nat) : Option Nat :=
  (b.enabledSrcs.filter fun n => b.candidate l n chain).foldl (fun a n =>
    match a with
    | none => some n
    | some m => if b.srcPrio m < b.srcPrio n then some n else some m) none

/-- The entry of R181 for a delivery. -/
def deliveryEntry (src prio : Nat) : Entry128 := BitVec.ofNat 128 (src % 1024 + prio % 16 * 2 ^ 16)

/-- Commit a selection (R206): priority stack, `SWPEND`, rotation pointer, storm count, the entry. `chainTo` holds the entry for
the task that executes an `EVDONE`. -/
def Blk.commitSel (b : Blk) (l : Nat) (s : RStk) (chainTo : Bool) : Blk :=
  let b := b.setEng l { b.eng l with stack := s :: (b.eng l).stack, sel := none, selEv := false }
  let b := b.clrBit (Reg.swpend (s.src / 32)) (s.src % 32)
  let b := { b with router := { b.router with
    rr := Tab.set (fun _ => 0) b.router.rr s.src (b.targetFrom s.src (l + 1))
    storm := Tab.set (fun _ => 0) b.router.storm s.src
      (Tab.get (fun _ => 0) b.router.storm s.src + bit (decide (b.rf (Reg.srcStorm s.src) 0 8 ≠ 0))) } }
  let e := deliveryEntry s.src s.prio
  let b := if chainTo then b.setTask l s.task { b.task l s.task with chain := (b.task l s.task).chain ++ [(e, s.prio)] }
    else b.accept l s.task e
  let b := b.logIn (l / 2) 3 (s.src + s.task * 2 ^ 10 + s.prio * 2 ^ 16) 0
  (b.pm l (b.pl l) 0x07 1).trace l s.task 3 (b.pl l) s.src (b.task l (b.eng l).cur).pc.toNat s.prio

/-- Quarantine a source (R212). -/
def Blk.quarantine (b : Blk) (n : Nat) : Blk :=
  let b := (b.setBit (Reg.quar (n / 32)) (n % 32)).setReg (regKey 0x010 Reg.hFaultInfo) (BitVec.ofNat 32 n)
  (((b.flt 0x010 0).event 0x010 0).count Reg.quarCount 0 16).transient

/-- Would the commit of source `n` exceed its storm limit (R212)? -/
def Blk.stormy (b : Blk) (n : Nat) : Bool :=
  let lim := b.rf (Reg.srcStorm n) 0 8
  decide (lim ≠ 0) && decide (lim ≤ Tab.get (fun _ => 0) b.router.storm n)

/-- Does a selection for task `t` at priority `pr` preempt (R204)? -/
def Blk.preempts (b : Blk) (l t pr : Nat) : Bool :=
  !(b.eng l).run || decide (b.rank l (b.eng l).cur < Nat.max (b.rank l t) pr)

/-- Select source `n` on engine `l` (R202, R204, R209, R212): dropped and quarantined, committed at once, or provisional. (DEDUCED, log 46). -/
def Blk.select (b : Blk) (l n : Nat) (chain : Option Nat) : Blk :=
  if b.stormy n then b.quarantine n
  else
    let pr := b.srcPrio n
    match b.boundAt l pr with
    | none => b
    | some t =>
      let s : RStk := ⟨n, t, pr⟩
      if chain = some t then b.commitSel l s true
      else if chain.isSome || b.preempts l t pr then b.setEng l { b.eng l with sel := some s, selEv := chain.isSome }
      else b.commitSel l s false

/-- A latch step of engine `l` (R199 to R205). -/
def Blk.latch (b : Blk) (l : Nat) (chain : Option Nat) : Blk :=
  let b := b.noteOpen l
  match (b.eng l).sel with
  | none =>
    match b.bestCand l chain with
    | none => b
    | some n => b.select l n chain
  | some s =>
    match b.bestCand l chain with
    | none => b
    | some n =>
      if s.prio < b.srcPrio n then (b.setEng l { b.eng l with sel := none, selEv := false }).select l n chain else b

/-! Dispatch. -/

/-- The Ready task that a dispatch chooses (R174, R184): highest rank, then the first to become Ready, then for bypass rank the
lower port, then the lower index. -/
def Blk.bestReady (b : Blk) (l : Nat) : Option Nat :=
  (List.range 64).foldl (fun a t =>
    if (b.task l t).st = .ready then
      match a with
      | none => some t
      | some u =>
        if b.rank l u < b.rank l t then some t
        else if b.rank l t < b.rank l u then some u
        else if (b.task l t).readyAt < (b.task l u).readyAt then some t
        else if (b.task l u).readyAt < (b.task l t).readyAt then some u
        else if (b.task l t).byp && decide ((b.task l t).bypPort < (b.task l u).bypPort) then some t
        else some u
    else a) none

/-- The data-stack push of a value in place of `need` operands for task `t`, checking spills at its own level. (DEDUCED, log 163). -/
def Blk.pushTask (b : Blk) (l t need : Nat) (out : List Entry128) : Except StkFail Blk :=
  let pl := fld (b.task l t).tstat 0 2
  let plv := if pl = 3 then 0 else pl
  match b.plan l t plv false need out.length with
  | .error f => .error f
  | .ok pn => .ok (b.putStack l t plv pn need out)

/-- The bytes of a wait instruction: page prefix and opcode (R105). -/
def waitLen : Nat := 2

/-- What a wait leaves when it completes (R120, R179): for `wfe` a status. -/
def waitOut (k : WaitKind) (status : Nat) : List Entry128 :=
  match k with
  | .wfe => [BitVec.ofNat 128 status]
  | _ => []

/-- Perform the held pushes of the current task, oldest first (R177, R541); a refused push stays held. -/
def Blk.pushHeld (b : Blk) (l t : Nat) : Nat → Except (StkFail × Nat) Blk
  | 0 => .ok b
  | n + 1 =>
    match (b.task l t).held with
    | [] => .ok b
    | h :: rest =>
      let c := b.task l t
      let pc' := if h.wait.isSome then c.pc + BitVec.ofNat 32 waitLen else c.pc
      let need := if h.wait.isSome then 1 else 0
      let out := match h.wait with
        | some k => waitOut k 0 ++ [h.entry]
        | none => [h.entry]
      match b.pushTask l t need out with
      | .error f => .error (f, pc'.toNat)
      | .ok b => (b.setTask l t { b.task l t with held := rest, pc := pc' }).pushHeld l t n

/-- Complete the wait of a task that became Ready by its flag or by time (R120, R179): the stack, the flag and the PC, and
whether a `WFEX` ended by its time. -/
def Blk.finishWait (b : Blk) (l t : Nat) : Blk × Bool × Nat :=
  let c := b.task l t
  match c.wait, c.woke with
  | some k, some w =>
    let tm := decide (w = .time)
    let tgt := (c.ds.headD 0).toNat
    let ds := waitOut k (if tm then 1 else 0) ++ c.ds.drop 1
    (b.setTask l t { c with ds := ds, wait := none, woke := none, pc := c.pc + BitVec.ofNat 32 waitLen,
                            evf := if tm then c.evf else false }, tm && decide (k = .wfex), tgt)
  | _, _ => (b.setTask l t { c with wait := none, woke := none }, false, 0)

/-- Put task `t` on engine `l` (R177): its pushes, its wait's completion, its pending writes and the fetch buffer. A refused push
ends the dispatch in exception entry (R541), a `WFEX` that timed out raises `WAIT_TIMEOUT`. (DEDUCED, log 164). -/
def Blk.putOn (b : Blk) (l t : Nat) : Blk :=
  let old := (b.eng l).cur
  let b := b.setTask l t { b.task l t with st := .running, dbgHalt := false }
  let b := ((b.setEng l { b.eng l with cur := t, run := true, mid := false }).addSteps l 2).stepOn l
  let b := (b.pm l (b.pl l) 0x06 1).trace l t 1 (b.pl l) old (b.task l t).pc.toNat 0
  match b.pushHeld l t (b.task l t).held.length with
  | .error (f, pc') => (b.applyPending l).stkFail l f pc'
  | .ok b =>
    let r := b.finishWait l t
    let b := (r.1.applyPending l).refetch l
    if r.2.1 then b.enter l ⟨0x11, 0, r.2.2 % 2 ^ 32, 0⟩ false (b.task l t).pc.toNat else b

/-- May engine `l` dispatch at all: started, not halted or stopped, not in Sleep, Off or Reset, its pair not rolling back? -/
def Blk.mayRun (b : Blk) (l : Nat) : Bool :=
  decide (l < 16) && decide (b.lead l = l) && (!(b.eng l).halted || (b.eng l).stepping) && !(b.eng l).df && !(b.retired (l / 2)) &&
  decide (2 ≤ b.sys.base) && decide (b.sys.base ≠ 0xA) && decide ((b.pair (l / 2)).phase ≠ .rollback) &&
  !(b.idleSpare (l / 2))

/-- Take the running task off (R175): it becomes Ready. -/
def Blk.putOff (b : Blk) (l : Nat) : Blk :=
  if (b.eng l).run then (b.makeReady l (b.eng l).cur).setEng l { (b.makeReady l (b.eng l).cur).eng l with run := false }
  else b

/-- The dispatch proper: commit or withdraw a provisional selection, then run the Ready task of highest rank (R177, R204); a selection
made at an `EVDONE` brings its own task on (R183). -/
def Blk.switchTo (b : Blk) (l : Nat) : Blk :=
  let b := b.putOff l
  let x := b.eng l
  let z : Blk × Option Nat := match x.sel with
    | none => (b, none)
    | some s =>
      if b.accepts l s.task then (b.commitSel l s false, if x.selEv then some s.task else none)
      else (b.setEng l { x with sel := none, selEv := false }, none)
  match z.2.orElse (fun _ => z.1.bestReady l) with
  | none => z.1
  | some t => z.1.putOn l t

/-- Has a Ready task of engine `l` a strictly higher rank than the Running one (R175)? -/
def Blk.outranked (b : Blk) (l : Nat) : Bool :=
  b.tasks.any fun x => decide (x.1 / 64 = l) && decide (x.2.st = .ready) && decide (b.rank l (b.eng l).cur < b.rank l (x.1 % 64))

/-- Is a switch due on engine `l` (R175, R204, R209)? -/
def Blk.switchDue (b : Blk) (l : Nat) : Bool :=
  let x := b.eng l
  if x.run then
    !(b.atMach l) && x.waitM.isNone && !(b.midInstr l) && (x.sel.isSome || b.outranked l)
  else x.sel.isSome || (b.bestReady l).isSome

/-- A dispatch at a switch point (R177): a pending `ARITH` is reported first and may end the need for the switch (R160, R168). -/
def Blk.dispatch (b : Blk) (l : Nat) : Blk :=
  if b.mayRun l && !(b.eng l).halted && b.switchDue l then
    let b := if (b.eng l).run then b.reportArith l else b
    if b.switchDue l then (b.switchTo l) else b
  else b

end Sys2Proof.Machine
end

