-- ==== Sys2Proof/Machine/EngineOps.lean ====
section
/-! DEFINITION. Issuing one instruction on an engine: debug halts and breakpoints (R478 to R487), the order of causes (R168), the
stacks, arithmetic traps (R159, R160), and the switch point after it (R176, R325, R332). -/
namespace Sys2Proof.Machine

/-! Debug halts. -/

/-- `DSTAT` of R500. -/
def dstatWord (reason bp : Nat) (noTask : Bool) (task : Nat) : Word :=
  BitVec.ofNat 32 (reason % 8 + bp % 8 * 8 + bit noTask * 64 + task % 64 * 128 + 2 ^ 31)

/-- One engine's halt is recorded (R479). -/
def Blk.noteHalt (b : Blk) (e : Nat) (d : Word) (pc : Word) : Blk :=
  ((((b.setReg (Reg.dstat e) d).setReg (Reg.dpc e) pc).setBit Reg.haltedReg e).event 0x0B0 0).event (0x20 + e) 1

/-- The debug module halts engine `l` at its halt point (R479); a pair that runs as one breaks, both engines halted at the same
point (R487). -/
def Blk.haltNow (b : Blk) (l reason bp : Nat) : Blk :=
  let b := (if (b.eng l).run then b.reportArith l else b).sleepAbort 6
  let x := b.eng l
  let t := x.cur
  let c := b.task l t
  let d := dstatWord reason bp (!x.run) (if x.run then t else 0)
  let b := b.trace l t 7 (b.pl l) (d.toNat % 256) c.pc.toNat 0
  let b := if x.run then b.setTask l t { c with st := .halted, dbgHalt := true } else b
  let b := b.setEng l { b.eng l with halted := true, run := false, haltReq := false, stepping := false, bpHit := none,
                                     waitM := none, bpSkip := decide (reason = 3) && x.bpHit.isNone, mid := false, sel := none,
                                     selEv := false, seen := [] }
  let b := b.noteHalt l d c.pc
  let b := if b.joined (l / 2) then
      let b := (List.range 64).foldl (fun b t => b.setTask (l + 1) t (b.task l t)) b
      let b := (b.setEng (l + 1) (b.eng l)).noteHalt (l + 1) d c.pc
      b.setBit Reg.twin (l / 2)
    else b
  b.showMode

/-! Breakpoints (R484, R485). -/

/-- Does address `a` lie in breakpoint `k`'s range? -/
def Blk.bpRange (b : Blk) (e k a : Nat) : Bool :=
  let m := b.reg (Reg.bpMask e k)
  decide ((BitVec.ofNat 32 a &&& ~~~ m) = (b.reg (Reg.bpAddr e k) &&& ~~~ m)) &&
  decide (a / 2 ^ 32 % 256 = b.rf (Reg.bpCtrl e k) 24 8)

/-- Is breakpoint `k` in force for the executing task and level, with one of the types `tys`? -/
def Blk.bpArmed (b : Blk) (l k : Nat) (tys : List Nat) : Bool :=
  let w := b.reg (Reg.bpCtrl (b.cfgEng l) k)
  tbit w 0 && tys.contains (fld w 1 2) && (tbit w 10 || decide (fld w 4 6 = (b.eng l).cur)) &&
  tbit w (11 + plBit (b.pl l))

/-- A MARK match: a record and, for breakpoints 0 to 3, a pulse (R485). -/
def Blk.bpMark (b : Blk) (l k a : Nat) : Blk :=
  let b := b.trace l (b.eng l).cur 5 (b.pl l) k (b.task l (b.eng l).cur).pc.toNat a
  if k < 4 then b.emit (.pulse "dbg_mark_o" k) else b

/-- The breakpoints whose range holds one of `as`, of one of the types. -/
def Blk.bpHits (b : Blk) (l : Nat) (tys : List Nat) (as : List Nat) : List Nat :=
  if b.pmAny (Reg.bpCtrl (b.cfgEng l) 0) (Reg.pmCfg (b.cfgEng l) 0) then
    (List.range 8).filter fun k => b.bpArmed l k tys && as.any fun a => b.bpRange (b.cfgEng l) k a
  else []

/-- A data access of the task touches the bytes at `as` (R484): marks at once, a halt at the next halt point. -/
def Blk.bpData (b : Blk) (l : Nat) (store : Bool) (a n : Nat) : Blk :=
  (b.bpHits l (if store then [2, 3] else [1, 3]) ((List.range n).map (a + ·))).foldl (fun b k =>
    if b.rb (Reg.bpCtrl (b.cfgEng l) k) 3 then b.bpMark l k a
    else if b.dbgOpen then b.setEng l { b.eng l with bpHit := some k } else b) b

/-! What an instruction is to the pipeline. -/

/-- The shape of one instruction: encoded length, base steps, whether it is of the early-report class of R160, whether decode
refuses it (R94), its minimum level, its operands and results on both stacks, whether precise mode costs 3 steps more, whether it is a
vector instruction, whether its retire step is a latch step (R209), whether it returns from a handler (R119), and the steps beside
those of its parts, where the parts are counted as they are performed. -/
structure Op where
  len     : Nat
  base    : Nat := 1
  early   : Bool := false
  illegal : Bool := false
  minPl   : Nat := 0
  din     : Nat := 0
  dout    : Nat := 0
  rin     : Nat := 0
  rout    : Nat := 0
  plus3   : Bool := false
  vec     : Bool := false
  latch   : Bool := false
  sysRet  : Bool := false
  fin     : Option Nat := none

/-- How the operation of an instruction ends. -/
inductive Res where
  /-- It completes: results for both stacks, the next PC where it is not the following instruction, arithmetic conditions, an
  exception raised after completing, and what is done last (after the stacks are written). -/
  | done (b : Blk) (ds rs : List Entry128) (pc : Option Nat := none) (conds : BitVec 6 := 0) (post : Option Exc := none)
      (last : Blk → Blk := id)
  /-- A precise exception: nothing performed. -/
  | exc (b : Blk) (x : Exc)
  /-- It is not complete and its operands stay: a wait, a stall, a boundary inside a resumable instruction. -/
  | stay (b : Blk)
  /-- It is not complete and stands at a switch point inside it (R176). -/
  | pause (b : Blk)

/-- What the pipeline makes of an operation. -/
inductive Out1 where
  | stop (b : Blk)
  | stay (b : Blk)
  | pause (b : Blk)
  | fin (b : Blk) (pc : Option Nat) (post : Option Exc)

/-- `n` steps of the executing instruction with its adders so far, which are then paid (R37, R158). -/
def Blk.spend (b : Blk) (l n : Nat) : Blk := (b.addSteps l (n + b.adders l)).paid l (b.pl l)

/-- Raise a precise exception of the instruction at the PC, which ends after `n` steps and its adders (R158): a pending `ARITH` is taken in
its place (R160, R168). -/
def Blk.raiseAfter (b : Blk) (l n : Nat) (x : Exc) : Blk :=
  if (b.eng l).arith.isSome then b.reportArith l
  else (b.spend l n).enter l x false (b.task l (b.eng l).cur).pc.toNat

/-- Raise a precise exception other than an arithmetic trap: it ends its instruction after 1 step (R158). -/
def Blk.raise (b : Blk) (l : Nat) (x : Exc) : Blk := b.raiseAfter l 1 x

/-- The address of a spill or fill that was attempted and refused; none where the limit or base stands in the way. -/
def StkFail.tried : StkFail → Option Nat
  | .exc x => if x.cause = 0x0E ∨ 2 ≤ x.sub then some (x.info + x.hi * 2 ^ 32) else none
  | .dbl sub a => if sub = 0 then none else some a
  | .wait => none

/-- A failed spill or fill of the instruction at the PC. -/
def Blk.raiseStk (b : Blk) (l : Nat) (f : StkFail) : Blk :=
  if (b.eng l).arith.isSome then b.reportArith l
  else
    let b := match f.tried with
      | some a => b.payOn l [(a, 16)]
      | none => b
    (b.spend l 1).stkFail l f (b.task l (b.eng l).cur).pc.toNat

/-- Set the flags of raised conditions (R82). -/
def setFlags (astat : Word) (conds : BitVec 6) : Word := astat ||| conds.setWidth 32

/-- The conditions whose trap is enabled (R81, R82). -/
def enabledConds (astat : Word) (conds : BitVec 6) : BitVec 6 := conds &&& (astat >>> 8).setWidth 6

/-- The conditions of an instruction that raises an enabled one join the pending imprecise report, or start it (R160). -/
def noteArith (a : Option Arith) (conds : BitVec 6) (addr : Nat) : Arith :=
  match a with
  | none => ⟨conds, addr, 0⟩
  | some a => { a with conds := a.conds ||| conds }

/-- The steps of an instruction that it has not counted as it went, with those of precise mode, without adders (R109, R137). -/
def Op.steps (op : Op) (precise : Bool) : Nat := op.fin.getD op.base + (if op.plus3 && precise then 3 else 0)

/-- Finish an operation: stacks written back, flags, traps. `p` and `q` are the plans of the two stacks. -/
def Blk.finish (b : Blk) (l : Nat) (op : Op) (p q : StkPlan) (ds rs : List Entry128) (pc : Option Nat) (conds : BitVec 6)
    (post : Option Exc) (last : Blk → Blk) : Out1 :=
  let t := (b.eng l).cur
  let pl := b.pl l
  let c := b.task l t
  let en := enabledConds c.astat conds
  if en ≠ 0 ∧ c.precLive = true then
    .stop ((b.setTask l t { c with astat := setFlags c.astat conds }).raiseAfter l (op.steps true) ⟨0x0A, conds.toNat, c.pc.toNat, 0⟩)
  else
    let b := if conds = 0 then b else b.setTask l t { c with astat := setFlags c.astat conds }
    let b := if en = 0 then b else b.setEng l { b.eng l with arith := some (noteArith (b.eng l).arith conds c.pc.toNat) }
    let b := b.putStack l t pl p op.din ds
    let b := b.putStack l t pl q op.rin rs
    .fin (last b) pc post

/-- Is a branch target outside 32 bits, so that the branch raises `FETCH_ACCESS` (R117)? A pending `ARITH` comes first (R160). -/
def badTarget (pc : Option Nat) : Bool :=
  match pc with
  | some a => decide (2 ^ 32 ≤ a)
  | none => false

/-- Do the bytes at the PC spell no instruction (R94)? The boot ROM's bytes are not given; bytes that cannot be fetched are not judged. (DESIGN CHOICE, log 19). -/
def Blk.badBytes (b : Blk) (l : Nat) : Bool :=
  let pc := (b.task l (b.eng l).cur).pc.toNat
  decide (place pc = .scratch) && decide ((b.eng l).fpc = pc) && (encDecode (b.eng l).fbuf).isNone &&
  (b.fetchExcN l (b.pl l) pc 12).isNone

/-- The parts that a plan's fills and spills touch. -/
def StkPlan.parts (p : StkPlan) : List (Nat × Nat) :=
  (p.spills ++ (List.range p.fills).map fun i => p.view.sp - 16 * (i + 1)).map fun a => (a, 16)

/-- The checks and the operation of one instruction, or of one iteration under `REP` (R168 orders 3 to 9). -/
def Blk.runOp (b : Blk) (l : Nat) (op : Op) (act : Blk → Nat → List Entry128 → List Entry128 → Res) : Out1 :=
  let t := (b.eng l).cur
  let pl := b.pl l
  if op.illegal || b.badBytes l then .stop (b.raise l ⟨0x01, 0, b.infoBytes l, 0⟩)
  else if pl < op.minPl then .stop (b.raise l ⟨0x02, op.minPl, b.infoBytes l, 0⟩)
  else
    match b.plan l t pl false op.din op.dout with
    | .error .wait => .stay b
    | .error f => .stop (b.raiseStk l f)
    | .ok p =>
      match b.plan l t pl true op.rin op.rout with
      | .error .wait => .stay b
      | .error f => .stop (b.raiseStk l f)
      | .ok q =>
        let b := b.payOn l (p.parts ++ q.parts)
        if (p.spills ++ q.spills).any fun a => b.outBar l (b.storeCls (l / 2) a) then .stay (b.haltNow l 4 0)
        else match act b l (p.view.cache.take op.din) (q.view.cache.take op.rin) with
        | .exc b x => .stop (b.raise l x)
        | .stay b' => .stay b'
        | .pause b' => .pause b'
        | .done b' ds rs pc conds post last =>
          if badTarget pc && (b.eng l).arith.isSome then .stop (b.reportArith l) else b'.finish l op p q ds rs pc conds post last

/-! Before and after an instruction. -/

/-- Do the pair's steps come within `s` of the cap, or one of its logs within `n` entries of its capacity? -/
def Blk.nearCap (b : Blk) (p s n : Nat) : Bool :=
  let x := b.pair p
  decide (b.rf Reg.stepCap 0 24 ≤ x.steps + s) || decide (b.logCap ≤ x.undo.length + n) || decide (b.logCap ≤ x.rels.length + n) ||
  decide (b.logCap ≤ x.ins.length + n)

/-- Has a log of the pair reached its capacity, or its steps the cap, with a point pending (R325)? An instruction is one command, so the stop
comes after it. (DESIGN CHOICE, log 159). -/
def Blk.mustPause (b : Blk) (p : Nat) : Bool := b.joined p && (b.pair p).pend.isSome && b.nearCap p 0 0

/-- Is the block in Configure (R21)? A debug halt in Configure does not end it. (DEDUCED, log 90). -/
def Blk.inConfig (b : Blk) : Bool := decide (b.sys.base = 3) && !b.sys.hold

/-- Does the Milestone unit take points in the block's mode (R322, R466)? -/
def Blk.pointsOn (b : Blk) : Bool := b.sys.ran && !b.inConfig && decide (2 < b.sys.base) && decide (b.sys.base ≠ 0xA)

/-- Has a trigger of R322 come for pair `p`? (DEDUCED, log 115). -/
def Blk.pointDue (b : Blk) (p : Nat) : Bool := (b.pair p).take || b.nearCap p 8192 32

/-- Does pair `p` stand at a switch point at which it takes a point: a trigger has come, its mode lets it, and none is pending; on a follower's
mirrored pair at the SPC that an MSMARK names, with what it made before released (R322, R325, R353)? (DEDUCED, log 115). -/
def Blk.pointOk (b : Blk) (p : Nat) : Bool :=
  let x := b.pair p
  decide (p < 8) && b.joined p && b.pointsOn && !(b.retired p) && !(b.idleSpare p) && x.pend.isNone && !(b.midInstr (2 * p)) &&
  (match x.phase, x.mark with
   | .live, _ => b.pointDue p
   | .follow, some m => decide (m.1 = x.spc) && x.q.isEmpty
   | _, _ => false)

/-- Has the replay of pair `p` reached its end (R333)? -/
def Blk.replayEnd (b : Blk) (p : Nat) : Bool :=
  let x := b.pair p
  decide (x.phase = .replay) && decide (x.detSpc ≤ x.spc) && x.cursor.isEmpty

/-- A mirrored pair stops under R355. -/
def Blk.lagPause (b : Blk) (p : Nat) : Blk :=
  if (b.pair p).lagStop then b
  else (((b.setPair p { b.pair p with lagStop := true }).setBit Reg.mstat (16 + b.mirName p)).flt 0x004 2).transient

/-- The stop is over (R355, R367). -/
def Blk.lagOver (b : Blk) (p : Nat) : Blk := (b.setPair p { b.pair p with lagStop := false }).clrBit Reg.mstat (16 + b.mirName p)

/-- Has a following pair reached the end of the records it has (R353)? -/
def Blk.streamEnd (b : Blk) (p : Nat) : Bool :=
  let x := b.pair p
  decide (x.phase = .follow) &&
  ((match x.mark with
    | some m => decide (m.1 ≤ x.spc)
    | none => false) || (decide (x.hor ≤ x.spc) && x.cursor.isEmpty))

/-- Must pair `p` stand still: its point comes first (R322), its replay has ended (R333), it waits for its follower (R355) or for its records
(R353)? -/
def Blk.pairStands (b : Blk) (p : Nat) : Bool :=
  b.joined p && ((decide ((b.pair p).phase = .live) && b.pointOk p) || b.replayEnd p || (b.mirrored p && (b.pair p).lagStop) || b.streamEnd p)

/-- May engine `l` issue an instruction now? A switch that is due comes first (R175, R78). -/
def Blk.canIssue (b : Blk) (l : Nat) : Bool :=
  b.mayRun l && (b.eng l).run && (b.eng l).atomic.isNone && !(b.switchDue l) && !(b.pairStands (l / 2))

/-- Held flags and commands take effect at the first switch point after RESUMED, in arrival order (R332). -/
def Blk.applyHeld (b : Blk) (p : Nat) (set : Blk → Nat → Blk) (cmd : Blk → Nat → Nat → Blk) : Blk :=
  let x := b.pair p
  if x.phase = .live ∧ x.heldIn ≠ [] then
    x.heldIn.foldl (fun b h =>
      match h with
      | .flag t => set (b.logIn p 6 (t * 2 ^ 10) 0) t
      | .cmd t c => cmd (b.logIn p 8 (t * 2 ^ 10) c) t c) (b.setPair p { x with heldIn := [] })
  else b

/-- The PC moves to the next instruction or to a target, and the fetch buffer with it (R127). -/
def Blk.movePc (b : Blk) (l len : Nat) (pc : Option Nat) : Blk :=
  let t := (b.eng l).cur
  let c := b.task l t
  match pc with
  | some a => (b.setTask l t { c with pc := BitVec.ofNat 32 a }).refetch l
  | none =>
    let x := b.eng l
    (b.setTask l t { c with pc := c.pc + BitVec.ofNat 32 len }).setEng l
      { x with fpc := c.pc.toNat + len, fbuf := if x.fpc = c.pc.toNat then x.fbuf.drop len else [] }

/-- A wait at PL 3 ends in place (R120): its operand is replaced by its result, the flag is cleared where the event ended it, and a
`WFEX` that its time ended raises `WAIT_TIMEOUT`. (DEDUCED, log 35). -/
def Blk.endWaitM (b : Blk) (l : Nat) (k : WaitKind) (time : Bool) : Blk :=
  let x := b.eng l
  let t := x.cur
  let tgt := (x.mds.headD 0).toNat
  let b := b.setEng l { x with mds := waitOut k (bit time) ++ x.mds.drop 1, waitM := none, bpSkip := false }
  let b := if time then b else b.setTask l t { b.task l t with evf := false }
  let b := ((((b.tickSpc l (1 + b.adders l)).paid l 3).stepOn l).pm l 3 0x02 1).movePc l waitLen none
  if time && decide (k = .wfex) then b.enter l ⟨0x11, 0, tgt % 2 ^ 32, 0⟩ false (b.task l t).pc.toNat else b

/-- The wait at PL 3 that engine `l` executes in task `t`, if any. -/
def Blk.machWait (b : Blk) (l t : Nat) : Option WaitKind := if (b.eng l).cur = t then (b.eng l).waitM else none

/-- A task takes an event: its flag is set and a wait in `WFE` or `WFEX` is over (R120, R180). -/
def Blk.setFlag (b : Blk) (l t : Nat) : Blk :=
  let b := b.setTask l t { b.task l t with evf := true }
  if (b.task l t).st = TaskSt.waiting ∧ (b.task l t).wait ≠ some WaitKind.waitt ∧ (b.task l t).wait.isSome = true then
    (b.setTask l t { b.task l t with woke := some Wake.event }).makeReady l t
  else match b.machWait l t with
    | some .waitt => b
    | some k => b.endWaitM l k false
    | none => b

/-- A waiting task's time has come (R120, R180). -/
def Blk.timeWake (b : Blk) (l t : Nat) : Blk :=
  if (b.task l t).st = TaskSt.waiting then
    (b.setTask l t { b.task l t with woke := some Wake.time }).makeReady l t
  else match b.machWait l t with
    | some k => b.endWaitM l k true
    | none => b

/-- The effect of `TASK_CMD` `c` on task `t` (R173, R189); none where the table does not allow it. -/
def Blk.taskCmd (b : Blk) (l t c : Nat) : Option Blk :=
  let k := b.task l t
  match c, k.st with
  | 1, .idle => some (b.makeReady l t)
  | 2, .ready => some (b.setTask l t { k with st := .idle, byp := false, woke := none })
  | 2, .waiting => some (b.setTask l t { k with st := .idle, byp := false })
  | 2, .halted => some (b.setTask l t { k with st := .idle, byp := false, dbgHalt := false })
  | 2, .running => some ((b.setTask l t { k with req := some false }).settle l)
  | 3, .idle => some (b.setTask l t { k with st := .halted })
  | 3, .ready => some (b.setTask l t { k with st := .halted, woke := none })
  | 3, .waiting => some (b.setTask l t { k with st := .halted })
  | 3, .running => some ((b.setTask l t { k with req := some true }).settle l)
  | 4, .halted => some ((b.setTask l t { k with dbgHalt := false }).makeReady l t)
  | _, _ => none

/-- A logged delivery takes effect in a replay (R332). -/
def Blk.replayDelivery (b : Blk) (l aux : Nat) : Blk :=
  let t := aux / 2 ^ 10 % 64
  let s : RStk := ⟨aux % 1024, t, aux / 2 ^ 16 % 16⟩
  let b := b.setEng l { b.eng l with stack := s :: (b.eng l).stack, sel := none, selEv := false }
  let e := deliveryEntry s.src s.prio
  if b.accepts l t then b.accept l t e else b.setTask l t { b.task l t with chain := (b.task l t).chain ++ [(e, s.prio)] }

/-- A logged input other than a load or an atomic's value takes effect in a replay (R332). -/
def Blk.replayOne (b : Blk) (l : Nat) (i : InEntry) : Blk :=
  let aux := i.aux.toNat
  let t := aux / 2 ^ 10 % 64
  match i.kind.toNat with
  | 3 => b.replayDelivery l aux
  | 4 =>
    let b := b.accept l t i.data
    b.setTask l t { b.task l t with byp := true, bypPort := aux % 32 }
  | 5 => b.setTask l t { b.task l t with v := Tab.set (fun _ => 0) (b.task l t).v 15 i.data }
  | 6 => b.setFlag l t
  | 7 => b.timeWake l t
  | 8 => (b.taskCmd l t (i.data.toNat % 8)).getD b
  | _ => b

/-- Does the input `i` take effect at the present switch point of the replaying pair `p` (R332)? A timed wake waits for the wait that
it ends. -/
def Blk.inputDue (b : Blk) (p : Nat) (i : InEntry) : Bool :=
  let x := b.pair p
  let t := i.aux.toNat / 2 ^ 10 % 64
  (decide (x.phase = .replay) || decide (x.phase = .follow)) && decide (i.spc ≤ x.spc) && decide (3 ≤ i.kind.toNat) &&
  (decide (i.kind ≠ 7) || decide ((b.task (2 * p) t).st = .waiting) || (b.machWait (2 * p) t).isSome)

/-- Inputs of a replay whose SPC is reached take effect (R332): deliveries, samples, flags, commands and timed wakes. -/
def Blk.replayIn (b : Blk) (p : Nat) : Nat → Blk
  | 0 => b
  | n + 1 =>
    let x := b.pair p
    match x.cursor with
    | [] => b
    | i :: rest =>
      if b.inputDue p i then
        ((b.setPair p { x with cursor := rest }).replayOne (2 * p) i).replayIn p n
      else b

/-- `TASK_CMD` `c` for task `t`, refused where the table does not allow it (R173, R190). -/
def Blk.taskCmdOr (b : Blk) (l t c : Nat) : Blk := (b.taskCmd l t c).getD (b.flt (0x020 + l) 0)

/-- Flags and commands held for engine `l`'s pair are taken (R332). -/
def Blk.takeHeld (b : Blk) (l : Nat) : Blk :=
  b.applyHeld (l / 2) (fun b t => b.setFlag l t) (fun b t c => b.taskCmdOr l t c)

/-- The lag of a mirrored pair after a switch point (R355): the largest is kept, and at `LAG_CAP` the pair stops. -/
def Blk.lagCheck (b : Blk) (p : Nat) : Blk :=
  if b.mirrored p then
    let n := (b.pair p).total
    let b := if b.rf Reg.lagMax 0 17 < n then b.setReg Reg.lagMax (BitVec.ofNat 32 (Nat.min n (2 ^ 17 - 1))) else b
    if b.rf Reg.lagCap 0 17 ≤ n then b.lagPause p else b
  else b

/-- Does a halt request take effect on engine `l` now: its pair neither rolling back nor replaying (R483)? (DEDUCED, log 52). -/
def Blk.steady (b : Blk) (l : Nat) : Bool :=
  !(b.joined (l / 2)) || decide ((b.pair (l / 2)).phase = .live) || decide ((b.pair (l / 2)).phase = .follow)

/-- Ask engine `l` to halt at its next halt point, for a reason and a breakpoint (R478). (DEDUCED, log 51). -/
def Blk.askHalt (b : Blk) (l why k : Nat) : Blk :=
  (b.setEng l { b.eng l with haltReq := true, haltWhy := why + 8 * k }).sleepAbort 6

/-- The switch point after an instruction, an iteration or a unit (R176): a halt asked for, a step's end, a STOP or HALT, the
inputs of a replay, flags and commands held. -/
def Blk.atPoint (b : Blk) (l : Nat) : Blk :=
  let b := ((b.replayIn (l / 2) 8).takeHeld l).lagCheck (l / 2)
  match (b.eng l).bpHit, b.steady l with
  | some k, true => b.haltNow l 3 k
  | some k, false => ((b.setEng l { b.eng l with bpHit := none }).askHalt l 3 k).settle l
  | none, st =>
    if (b.eng l).haltReq && st then b.haltNow l ((b.eng l).haltWhy % 8) ((b.eng l).haltWhy / 8)
    else if (b.eng l).stepping then b.haltNow l 2 0
    else b.settle l

/-- Count an instruction's issue for a pending `ARITH` (R160). (DEDUCED, log 32). -/
def Blk.countBase (b : Blk) (l n : Nat) (wasPending : Bool) : Blk :=
  match (b.eng l).arith with
  | some a => if wasPending then b.setEng l { b.eng l with arith := some { a with issued := a.issued + n } } else b
  | none => b

/-- A handler's return leaves the engine at the saved PC; pushes held for the task come first (R541). -/
def Blk.afterRet (b : Blk) (l pc : Nat) : Blk :=
  let t := (b.eng l).cur
  if (b.task l t).held = [] then b
  else match b.pushHeld l t (b.task l t).held.length with
    | .error (f, _) => (b.setTask l t { b.task l t with pc := BitVec.ofNat 32 pc }).stkFail l f pc
    | .ok b => b.setTask l t { b.task l t with pc := BitVec.ofNat 32 pc }

/-- The PC after an instruction: a target beyond 32 bits raises `FETCH_ACCESS` (R117). -/
def Blk.nextPc (b : Blk) (l : Nat) (op : Op) (pc : Option Nat) : Blk :=
  match pc with
  | none => b.movePc l op.len none
  | some a =>
    if 2 ^ 32 ≤ a then b.enter l (excAt 0x05 0 a) false (a % 2 ^ 32)
    else if op.sysRet then (b.movePc l op.len pc).afterRet l a
    else b.movePc l op.len pc

/-- An instruction or an iteration has been performed: counters and SPC. -/
def Blk.counted (b : Blk) (l : Nat) (op : Op) (pl : Nat) (pending : Bool) : Blk :=
  let steps := op.steps (b.task l (b.eng l).cur).precLive + b.adders l
  let b := (((((b.countBase l op.base pending).tickSpc l steps).paid l pl).stepOn l).pm l pl 0x02 1)
  (if op.vec then b.pm l pl 0x0C 1 else b).pmFree l

/-- A taken branch, call or return is counted and traced (R492, R496). (DEDUCED, log 30). -/
def Blk.noteFlow (b : Blk) (l : Nat) (op : Op) (pl : Nat) (pc : Option Nat) : Blk :=
  match pc with
  | some a =>
    if op.sysRet then b else (b.pm l pl 0x0D 1).trace l (b.eng l).cur 4 pl 0 (b.task l (b.eng l).cur).pc.toNat a
  | none => b

/-- Retire an instruction: counters, SPC, the latch step of an `EVDONE`, PC, an exception raised after completing, the switch point. -/
def Blk.retire (b : Blk) (l : Nat) (op : Op) (pl : Nat) (pending : Bool) (pc : Option Nat) (post : Option Exc) : Blk :=
  let b := b.counted l op pl pending
  let b := if op.latch && post.isNone then b.latch l (some (b.eng l).cur) else b
  let b := (b.noteFlow l op pl pc).nextPc l op pc
  let b := match post with
    | some x => b.enter l x false (b.task l (b.eng l).cur).pc.toNat
    | none => b
  (if (b.eng l).bpSkip then b.setEng l { b.eng l with bpSkip := false } else b).atPoint l

/-- The fetch of an instruction's bytes and a pending `ARITH` that comes first (R160, R164, R166, R168). `.error b`: something
else happened in the instruction's place. -/
def Blk.beforeFetch (b : Blk) (l : Nat) (op : Op) : Except Blk Blk :=
  let pc := (b.task l (b.eng l).cur).pc.toNat
  let due := match (b.eng l).arith with
    | some a => op.early || decide (8 < a.issued + op.base)
    | none => false
  if due then .error ((b.reportArith l).atPoint l)
  else
    match b.fetchExcN l (b.pl l) pc op.len with
    | some x =>
      let b := if x.cause = 0x0E then b.noteUe x.info else b
      if (b.eng l).arith.isSome then .error ((b.reportArith l).atPoint l)
      else if (b.eng l).vecFetch = some 3 then .error (b.dblFault l 3 (x.info + x.hi * 2 ^ 32))
      else .error (((b.addSteps l 1).enter l x false pc).atPoint l)
    | none =>
      let b := if (b.eng l).vecFetch.isSome then b.setEng l { b.eng l with vecFetch := none } else b
      .ok ((b.payFetch l op.len).fillBuf l op.len)

/-- Before an instruction issues: execute breakpoints (R485), the pause of R325, then the fetch. -/
def Blk.before (b : Blk) (l : Nat) (op : Op) : Except Blk Blk :=
  let pc := (b.task l (b.eng l).cur).pc.toNat
  let hits := if (b.eng l).bpSkip then [] else b.bpHits l [0] [pc]
  let stops := hits.filter fun k => !(b.rb (Reg.bpCtrl (b.cfgEng l) k) 3) && b.dbgOpen
  match stops, b.steady l with
  | k :: _, true => .error (b.haltNow l 3 k)
  | _, _ =>
    let b := match stops with
      | k :: _ => b.askHalt l 3 k
      | [] => b
    let b := hits.foldl (fun b k => if b.rb (Reg.bpCtrl (b.cfgEng l) k) 3 then b.bpMark l k pc else b) b
    let b := if (b.eng l).bpSkip then b.setEng l { b.eng l with bpSkip := false } else b
    if b.mustPause (l / 2) then
      .error (if b.rb Reg.msStat (16 + l / 2) then b else (b.setBit Reg.msStat (16 + l / 2)).transient)
    else b.beforeFetch l op

/-- An engine holds its machine stack area from its first instruction on (R240). -/
def Blk.holdArea (b : Blk) (l : Nat) : Blk :=
  if (b.eng l).area.isSome then b else b.setEng l { b.eng l with area := some (b.eng l).mstk.toNat }

/-- An instruction that stays issued: the engine stands inside it (R176), and it is not fetched again as it goes on. (DESIGN CHOICE, log 20). -/
def Blk.held (b : Blk) (l : Nat) : Blk :=
  if (b.eng l).run && !(b.eng l).halted && (b.eng l).waitM.isNone then b.setEng l { b.eng l with mid := true } else b

/-- An instruction issues with no adder met yet, or goes on where it stalled. -/
def Blk.begin (b : Blk) (l : Nat) (op : Op) : Except Blk Blk :=
  if (b.eng l).mid then .ok (b.setEng l { b.eng l with mid := false })
  else if b.adders l = 0 then b.before l op
  else (b.setEng l { b.eng l with adF := 0, adR := 0, adU := 0 }).before l op

/-- It stands at a switch point inside it: its steps so far are counted (R131, R147). -/
def Blk.paused (b : Blk) (l : Nat) (op : Op) : Blk :=
  (((b.tickSpc l (op.fin.getD op.base + b.adders l)).paid l (b.pl l)).stepOn l).atPoint l

/-- Issue one instruction on engine `e`. (DESIGN CHOICE, log 19). -/
def Blk.issue (b : Blk) (e : Nat) (op : Op) (act : Blk → Nat → List Entry128 → List Entry128 → Res) : Blk :=
  let l := b.lead e
  if b.canIssue l && (b.eng l).waitM.isNone then
    match b.begin l op with
    | .error b => b
    | .ok b =>
      let b := b.holdArea l
      let pl := b.pl l
      let pending := (b.eng l).arith.isSome
      match b.runOp l op act with
      | .stop b => b.atPoint l
      | .stay b => b.held l
      | .pause b => b.paused l op
      | .fin b pc post => b.retire l op pl pending pc post
  else b

/-! `REP` (R124 to R126, R128). -/

/-- An iteration has been performed: `LC` counts down and, at 0, the `REP` of `len` bytes is complete; else the engine stands at the
switch point between two iterations, which the flag says. -/
def Blk.iterate (b : Blk) (l : Nat) (op : Op) (len pl : Nat) : Blk × Bool :=
  let t := (b.eng l).cur
  let c := b.task l t
  let b := b.setTask l t { c with lc := c.lc - 1 }
  if c.lc = 1 then (b.retire l { op with len := len } pl false none none, false)
  else (b.counted l op pl false, true)

/-- Must a resumable instruction stop at this switch point inside it: a data breakpoint, an input of a replay, a full log? -/
def Blk.breaks (b : Blk) (l : Nat) : Bool :=
  (b.eng l).bpHit.isSome || b.mustPause (l / 2) ||
  (b.joined (l / 2) && (match (b.pair (l / 2)).cursor with
    | i :: _ => b.inputDue (l / 2) i
    | [] => false))

end Sys2Proof.Machine
end

