-- ==== Sys2Proof/Machine/UnitOps.lean ====
section
/-! DEFINITION. What the units share: accesses of the non-engine masters (R231 to R234), event flags set from outside an engine
(R180, R329, R332), bank power (R239 to R241). -/
namespace Sys2Proof.Machine

/-! Accesses of masters 16 to 21. -/

/-- Why a non-engine master's access is refused. -/
inductive MErr where
  | form | region | target | bankOff | ecc
  deriving DecidableEq, Repr

/-- Every byte of the access lies in one kind of place, and that place admits the kind of access. -/
def spanOk (k : Acs) (a n : Nat) : Bool :=
  let p := place a
  decide (place (a + n - 1) = p) &&
  (match p with
   | .scratch | .packet => true
   | .setAlias | .clrAlias | .ext => decide (k ≠ .atomic)
   | _ => false)

/-- Are the banks of the access on? -/
def Blk.banksOn (b : Blk) (a n : Nat) : Bool := b.bank4 a && b.bank4 (a + n - 1)

/-- The first of the 16-byte words of an access that is uncorrectable; `k` bounds the words. A write that covers a word whole
reads nothing. -/
def Blk.badWord (b : Blk) (wr : Bool) (a n : Nat) : Nat → Option Nat
  | 0 => none
  | k + 1 =>
    if n = 0 then none
    else
      let m := toWordEnd a n
      if decide (b.eccAt (unalias a) = 3) && !(wr && decide (m = 16) && decide (unalias a = a)) then some a
      else b.badWord wr (a + m) (n - m) k

/-- The checks of an access of `n` bytes at local address `a` by non-engine master `m` (R229 to R236, R289, R406, R429): target,
region, segment, bank, error correction. -/
def Blk.mCheck (b : Blk) (m : Nat) (own : Option Nat) (k : Acs) (a n : Nat) (pl : Nat := 0) : Option (MErr × Nat) :=
  if !(spanOk k a n) then some (.target, a)
  else if !(b.admits m pl own k a) then some (.region, a)
  else if !(b.admits m pl own k (a + n - 1)) then some (.region, a + n - 1)
  else if decide (place a = .ext) && !(b.extOk (decide (k ≠ .load)) a && b.extOk (decide (k ≠ .load)) (a + n - 1)) then
    some (.target, a)
  else if !(b.banksOn a n) then some (.bankOff, a)
  else match b.badWord (decide (k ≠ .load)) a n (n / 16 + 2) with
    | some w => some (.ecc, w)
    | none => none

/-- The bytes a non-engine master reads from local memory, an alias returning the plain value (R230). -/
def Blk.mRead (b : Blk) (a n : Nat) : List Byte := b.bytes (unalias a) n

/-- The effect on the error state of a read, word by word; `k` bounds the words. -/
def Blk.mNotes (b : Blk) (a n : Nat) : Nat → Blk
  | 0 => b
  | k + 1 => if n = 0 then b else
    let m := toWordEnd a n
    (b.eccRead (unalias a)).mNotes (a + m) (n - m) k

/-- A refusal that concerns a region is recorded (R234), an uncorrectable word too (R236). -/
def Blk.mRefused (b : Blk) (m : Nat) (wr : Bool) (e : MErr × Nat) : Blk :=
  match e.1 with
  | .region => b.deny m wr e.2
  | .ecc => b.noteUe (unalias e.2)
  | _ => b

/-- The address of an atomic's operand. -/
def Blk.memNat (b : Blk) (a n : Nat) : Nat := leNat (b.bytes a n)

/-! Event flags from outside an engine. -/

/-- The engine that serves target engine `e`: the spare's, where a migration took over its pair (R338). -/
def Blk.redirect (b : Blk) (e : Nat) : Nat :=
  if b.rb Reg.twin 27 && decide (b.rf Reg.twin 24 3 = e / 2) then 2 * b.rf Reg.pairCfg 8 3 + e % 2 else e

/-- Is target engine `e` refused for flags (R121)? -/
def Blk.sevRefused (b : Blk) (e : Nat) : Bool :=
  let l := b.lead (b.redirect e)
  (b.eng l).df || b.retired (l / 2)

/-- The event flag of task `t` on engine `e` is set by something outside the engine's pair (R180, R185, R329, R332); a
following pair takes its flags from the records alone (R353). -/
def Blk.extFlag (b : Blk) (e t : Nat) : Blk :=
  let l := b.lead (b.redirect e)
  let p := l / 2
  if b.joined p && decide ((b.pair p).phase = .follow) then b
  else if b.joined p && decide ((b.pair p).phase ≠ .live) then
    b.setPair p { b.pair p with heldIn := (b.pair p).heldIn ++ [.flag t] }
  else (b.logIn p 6 (t * 2 ^ 10) 0).setFlag l t

/-- A `TASK_CMD` from outside the pair (R173, R329, R332); none where the table does not allow it. -/
def Blk.extCmd (b : Blk) (e t c : Nat) : Option Blk :=
  let l := b.lead e
  let p := l / 2
  if b.joined p && decide ((b.pair p).phase = .follow) then some b
  else if b.joined p && decide ((b.pair p).phase ≠ .live) then
    some (b.setPair p { b.pair p with heldIn := (b.pair p).heldIn ++ [.cmd t c] })
  else (b.logIn p 8 (t * 2 ^ 10) c).taskCmd l t c

/-! Bank power. -/

/-- Bring `BANK_STAT` to bank `k`'s state (R245). -/
def Blk.bankShow (b : Blk) (k : Nat) : Blk :=
  let x := b.bank k
  b.setF (Reg.bankStat (k / 16)) (2 * (k % 16)) 2 (if x.going.isSome then 3 else x.cur)

/-- Does bank `k` hold something that keeps it on (R240): a part of the reserved area, a held machine stack area, a copy? -/
def Blk.bankPinned (b : Blk) (k : Nat) : Bool :=
  b.inArea k || (b.copying.any fun x => x.2 == k) ||
  b.engines.any fun x => match x.2.area with
    | some a => decide (a / 0x40000 = k) || decide ((a + 0xFFF) / 0x40000 = k)
    | none => false

/-- Is a mover burst that touches bank `k` in flight (R303)? (DEDUCED, log 96). -/
def Blk.burstOn (b : Blk) (k : Nat) : Bool := b.chans.any fun x => x.2.burst && x.2.banks.contains k

/-- A transition of bank `k` to `v` starts: a power-up at once, a power-down once no burst is in flight (R239, R241). -/
def Blk.bankGo (b : Blk) (k v : Nat) : Blk :=
  if (b.bank k).cur = v then (b.setBank k { b.bank k with going := none, begun := false, next := none }).bankShow k
  else (b.setBank k { b.bank k with going := some v, begun := decide (v = 0) || !(b.burstOn k), next := none }).bankShow k

/-- A power request `v` for bank `k` (R239, R240): the new state, or none where it is refused. -/
def Blk.bankAsk (b : Blk) (k v : Nat) : Option Blk :=
  let x := b.bank k
  let fut := x.next.getD (x.going.getD x.cur)
  if v = fut then some b
  else if (fut = 2 ∧ v = 1) ∨ (v ≠ 0 ∧ fut = 0 ∧ b.bankPinned k = true) then none
  else if x.going.isSome then some (b.setBank k { x with next := some v })
  else some (b.bankGo k v)

/-- A write of `w` to `BANK_PWRj` (R239, R240, R245), field by field. -/
def Blk.bankPwrWrite (b : Blk) (j : Nat) (w : Word) : Blk :=
  (List.range 16).foldl (fun b i =>
    let v := fld w (2 * i) 2
    if v = 3 ∨ v = b.rf (Reg.bankPwr j) (2 * i) 2 then b
    else match b.bankAsk (16 * j + i) v with
      | some b => b.setF (Reg.bankPwr j) (2 * i) 2 v
      | none => b.flt pgScratch 0) b

/-- A deferred transition of bank `k` begins (R241). -/
def Blk.bankBegin (b : Blk) (k : Nat) : Blk :=
  let x := b.bank k
  if x.going.isSome && !x.begun && !(b.burstOn k) then b.setBank k { x with begun := true } else b

/-- Every word of bank `k` becomes zero with valid check bits. -/
def Blk.bankZero (b : Blk) (k : Nat) : Blk :=
  { b with mem := b.mem.filter fun x => decide (x.1 / 0x40000 ≠ k)
           ecc := b.ecc.filter fun x => decide (x.1 / 0x40000 ≠ k) }

/-- The transition of bank `k` ends (R239). -/
def Blk.bankDone (b : Blk) (k : Nat) : Blk :=
  let x := b.bank k
  match x.going with
  | none => b
  | some v =>
    if x.begun then
      let b := if x.cur = 2 ∧ v = 0 then b.bankZero k else b
      let b := ((b.setBank k { x with cur := v, going := none, begun := false }).event pgScratch 4).bankShow k
      match x.next with
      | some n => b.bankGo k n
      | none => b
    else b

/-- The corrected word at `a` is written back (R235). -/
def Blk.writeBack (b : Blk) (a : Nat) : Blk := if b.eccAt a = 2 then b.setEcc a 0 else b

/-- The copy has read every word of bank `n` (R235 to R237): a correctable error is noted and stands corrected in the spare, an
uncorrectable one is noted and stays one. (DEDUCED, log 143). -/
def Blk.copyReads (b : Blk) (n : Nat) : Blk :=
  (b.ecc.filter fun x => decide (x.1 / 0x40000 = n)).foldl (fun b x =>
    let b := b.eccRead x.1
    if x.2 = 3 then b else b.setEcc x.1 0) b

/-- The copy into spare `k` is complete (R237). -/
def Blk.spareDone (b : Blk) (k : Nat) : Blk :=
  match b.copying.find? fun x => x.1 == k with
  | none => b
  | some (_, n) =>
    let b := b.copyReads n
    let b := { b with copying := Tab.del b.copying k }
    let b := b.setReg (Reg.spare k) (BitVec.ofNat 32 (128 + n))
    (((b.setBit (Reg.faulty (n / 32)) (n % 32)).event pgScratch 2)).permanent

/-- `COLLIDE_MST.VALID` written with 1 (R244). (DESIGN CHOICE, log 106). -/
def Blk.collideClear (b : Blk) : Blk := (b.setReg Reg.collideMst 0).setReg Reg.collideAddr 0

end Sys2Proof.Machine
end

