-- ==== Sys2Proof/Machine/MemportOps.lean ====
section
/-! DEFINITION. The external memory port (R412 to R425): requests and credits, responses, errors, retries and channel loss. What
a response means to the master that asked is the last step, `Blk.deliver` of a later file. -/
namespace Sys2Proof.Machine

/-- How a unit transfer ended for the master that asked: data, written, a channel error that the port does not retry further, an
uncorrectable word, no channel left. -/
inductive MpRes where
  | data (l : List Byte) | wrote | bus | dataErr | lost
  deriving DecidableEq, Repr

/-- The device address of a window address (R417). -/
def Blk.mpDev (b : Blk) (a : Nat) : Nat := b.rf (Reg.seg (segOf a)) 0 7 * 2 ^ 31 + (a - 0x2000000000) % 2 ^ 31

/-- `req_prio` (R412). -/
def mpPrio (r : MpReq) : Nat :=
  match r.who with
  | .engine _ => 3
  | .mover ch _ => if ch < 4 then 1 else 0
  | .job _ => 2

/-- The bytes a unit's code covers (R415). -/
def mpCrcBytes (dev : Nat) (r : MpReq) : List Byte :=
  toLe 4 (dev / 64) ++ r.data ++ (if r.write then toLe 8 r.be.toNat else [])

/-- Is a request held back by an unanswered one of the same master to the same unit, on either channel (R420)? Two reads need no
order; a write waits too, so that no repeat of the earlier one (R416) falls behind it. (DEDUCED, log 157). -/
def Blk.mpBlocked (b : Blk) (r : MpReq) : Bool :=
  b.mp.any fun x => x.2.outst.any fun o => (r.write || o.write) && o.mst == r.mst && o.addr == r.addr

/-- May request `r` be sent on a channel with `x`'s credits when `before` stand ahead of it (R413, R420)? -/
def Blk.mpMay (b : Blk) (x : MpChan) (before : List MpReq) (r : MpReq) : Bool :=
  !b.mpBlocked r && !before.any (fun o => o.mst == r.mst && o.addr == r.addr) && (!r.write || decide (0 < x.wdCrd))

/-- The request that channel `x` sends next, with its place in the queue: of those that may be sent the first of the highest
`req_prio` (R412). -/
def Blk.mpBest (b : Blk) (x : MpChan) : Option (Nat × MpReq) :=
  (List.range x.q.length).foldl (fun best i =>
    match x.q[i]?, best with
    | some r, none => if b.mpMay x (x.q.take i) r then some (i, r) else none
    | some r, some z => if decide (mpPrio z.2 < mpPrio r) && b.mpMay x (x.q.take i) r then some (i, r) else some z
    | none, z => z) none

/-- The next tag of a channel that no outstanding request bears. -/
def freeTag (x : MpChan) : Nat → Nat → Nat
  | 0, t => t
  | k + 1, t => if x.outst.any fun o => o.tag == t % 256 then freeTag x k (t + 1) else t % 256

/-- Send the next request of channel `c` with its write unit, if credits allow (R413). -/
def Blk.mpSend (b : Blk) (c : Nat) : Blk :=
  let x := b.chan c
  if !x.en || !x.rdy || decide (x.reqCrd = 0) || decide (256 ≤ x.outst.length) || decide (b.sys.base = 0xA) then b
  else
    match b.mpBest x with
    | none => b
    | some (i, r) =>
      let t := freeTag x 256 x.tag
      let r := { r with tag := t, tries := r.tries + 1 }
      let dev := b.mpDev r.addr
      (b.setChan c { x with q := x.q.eraseIdx i, outst := x.outst ++ [r], tag := (t + 1) % 256, reqCrd := x.reqCrd - 1
                            wdCrd := if r.write then x.wdCrd - 1 else x.wdCrd }).emit
        (.mpReq c r.write dev t (mpPrio r) r.mst r.data r.be (crc16 (mpCrcBytes dev r)))

/-- A credit pulse (R413). -/
def Blk.mpCredit (b : Blk) (c : Nat) (write : Bool) : Blk :=
  let x := b.chan c
  if !x.en then b
  else if write then b.setChan c { x with wdCrd := x.wdCrd + 1 } else b.setChan c { x with reqCrd := x.reqCrd + 1 }

/-- Take the outstanding request with a tag off a channel. -/
def Blk.mpTake (b : Blk) (c tag : Nat) (write : Bool) : Option (MpReq × Blk) :=
  let x := b.chan c
  match x.outst.find? fun r => r.tag == tag && r.write == write with
  | none => none
  | some r => some (r, b.setChan c { x with outst := x.outst.filter fun o => !(o.tag == tag && o.write == write) })

/-- `MP_STAT` as the channels stand (R424). -/
def Blk.mpStatWord (b : Blk) : Word :=
  BitVec.ofNat 32 (bit (b.chan 0).rdy + 2 * bit (b.chan 1).rdy + 4 * bit (b.chanRet 0) + 8 * bit (b.chanRet 1) +
    16 * bit (b.chan 0).outst.isEmpty + 32 * bit (b.chan 1).outst.isEmpty)

/-- Note the address of an error (R416). -/
def Blk.mpErrAddr (b : Blk) (a : Nat) : Blk :=
  (b.setReg Reg.mpErrAddrLo (BitVec.ofNat 32 a)).setReg Reg.mpErrAddrHi (BitVec.ofNat 32 (a / 2 ^ 32))

/-- Channel `c` is lost (R423): retired, its transfers moved to the other channel, or failed where there is none. -/
def Blk.mpLose (b : Blk) (c : Nat) : Blk × List (MpReq × MpRes) :=
  if b.chanRet c then (b, [])
  else
    let x := b.chan c
    let b := (((b.setBit Reg.retNet (6 + c)).event 0x080 1).setChan c { x with en := false, q := [], outst := [] }).permanent
    let l := x.outst ++ x.q
    if b.chanRet (1 - c) then
      let b := if l.any fun r => r.write then b.flt 0x080 1 else b
      (b, l.map fun r => (r, MpRes.lost))
    else
      let y := b.chan (1 - c)
      (b.setChan (1 - c) { y with q := y.q ++ l }, [])

/-- A channel error on a transfer (R416, R423). -/
def Blk.mpError (b : Blk) (c : Nat) (r : MpReq) : Blk × List (MpReq × MpRes) :=
  let b := (((b.count (Reg.errCnt c) 0 16).event 0x080 0).transient).mpErrAddr r.addr
  match r.who with
  | .mover _ _ => (b, [(r, .bus)])
  | _ =>
    if r.tries < 3 then (b.setChan c { b.chan c with q := r :: (b.chan c).q }, [])
    else
      let b := if r.write then b.flt 0x080 1 else b
      let z := b.mpLose c
      (z.1, (r, MpRes.bus) :: z.2)

/-- A read unit arrives, its CRC checked over address and data (R414 to R416); a late one is discarded and counted (R422). -/
def Blk.mpReadUnit (b : Blk) (c tag : Nat) (sts : BitVec 2) (crc : BitVec 16) (data : List Byte) : Blk × List (MpReq × MpRes) :=
  match b.mpTake c tag false with
  | none => (b.count (Reg.errCnt c) 16 16, [])
  | some (r, b) =>
    if crc16 (mpCrcBytes (b.mpDev r.addr) { r with data := data }) ≠ crc ∨ sts = 1 then b.mpError c r
    else if sts = 0 then (b, [(r, .data data)])
    else ((b.event 0x080 2).mpErrAddr r.addr, [(r, .dataErr)])

/-- A write acknowledge arrives (R414, R416, R420). (DEDUCED, log 133). -/
def Blk.mpWriteAck (b : Blk) (c tag : Nat) (sts : BitVec 2) : Blk × List (MpReq × MpRes) :=
  match b.mpTake c tag true with
  | none => (b.count (Reg.errCnt c) 16 16, [])
  | some (r, b) =>
    if sts = 1 then b.mpError c r
    else if sts = 0 then (b, [(r, .wrote)])
    else ((b.event 0x080 2).mpErrAddr r.addr, [(r, .dataErr)])

/-- A request has had no response within `MP_TMO` (R413, R416). (DEDUCED, log 133). -/
def Blk.mpTimeout (b : Blk) (c tag : Nat) : Blk × List (MpReq × MpRes) :=
  match (b.chan c).outst.find? fun r => r.tag == tag with
  | none => (b, [])
  | some r => match b.mpTake c tag r.write with
    | none => (b, [])
    | some (r, b) => b.mpError c r

/-- A channel's enable follows `MP_CTRL` (R412, R413): its rise loads the credits. -/
def Blk.mpEnable (b : Blk) (c : Nat) (on : Bool) : Blk :=
  let x := b.chan c
  if on && !x.en && !(b.chanRet c) then
    { b.setChan c { x with en := true, rdy := true, reqCrd := Config.reqCrdMax c % 64, wdCrd := Config.wdCrdMax c % 256 } with
      mpRst := false }
  else if !on && x.en then b.setChan c { x with en := false }
  else b

/-- Start a job: `len` bytes at window address `a`, split into units; `data` is empty for a read. -/
def Blk.jobStart (b : Blk) (mst : Nat) (who : JobWho) (write : Bool) (a len : Nat) (data : List Byte) : Blk :=
  let id := b.jobNext
  let units := (List.range ((a % 64 + len + 63) / 64)).map fun i => a / 64 * 64 + 64 * i
  let j : Job := { id := id, who := who, write := write, addr := a, len := len, left := units, data := [], bad := none }
  let b := { b with jobs := b.jobs ++ [j], jobNext := id + 1 }
  if write then b.mpStore mst (.job id) a data 20
  else units.foldl (fun b u => b.mpAsk { mst := mst, write := false, addr := u, be := 0, data := List.replicate 64 0,
                                         tries := 0, who := .job id, tag := 0 }) b

/-- Note a unit's outcome in its job. -/
def Blk.jobNote (b : Blk) (id unit : Nat) (r : MpRes) : Blk :=
  { b with jobs := b.jobs.map fun j =>
      if j.id = id then
        { j with left := j.left.erase unit
                 data := match r with
                   | .data l => j.data ++ [(unit, l)]
                   | _ => j.data
                 bad := match r with
                   | .dataErr => some 4
                   | .bus => some 4
                   | .lost => some 2
                   | _ => j.bad }
      else j }

/-- The bytes a finished read job holds. -/
def jobBytes (j : Job) : List Byte :=
  (List.range j.len).map fun i =>
    let a := j.addr + i
    match j.data.find? fun x => x.1 == a / 64 * 64 with
    | some (_, l) => l.getD (a % 64) 0
    | none => 0

end Sys2Proof.Machine
end

