-- ==== Sys2Proof/Machine/MacsecOps.lean ====
section
/-! DEFINITION. MACsec on the switch's ports and the mirror lanes (R386, R401). -/
namespace Sys2Proof.Machine

/-- Two bytes, most significant first, at offset `i`. -/
def be16 (d : List Byte) (i : Nat) : Nat := beNat ((d.drop i).take 2)

/-- Add to a 32-bit counter, saturating (R390, R411). -/
def Blk.add32 (b : Blk) (k n : Nat) : Blk := b.setReg k (BitVec.ofNat 32 (Nat.min (2 ^ 32 - 1) ((b.reg k).toNat + n)))

/-- The SecY of a switch port (R411). -/
def secyOf (p : Nat) : Nat := if p < 4 then p else p + 2

/-- An SA of the table, by SecY, secure channel and association number. -/
def Blk.sa (b : Blk) (secy sc an : Nat) : BitVec 128 := Tab.get (fun _ => 0) b.sw.sa (secy + 32 * sc + 256 * an)

/-- Replace an SA's next packet number. -/
def Blk.saNext (b : Blk) (secy sc an pn : Nat) : Blk :=
  let e := b.sa secy sc an
  let v := BitVec.ofNat 128 (e.toNat % 2 ^ 32 + pn % 2 ^ 64 * 2 ^ 32 + e.toNat / 2 ^ 96 * 2 ^ 96)
  { b with sw := { b.sw with sa := Tab.set (fun _ => 0) b.sw.sa (secy + 32 * sc + 256 * an) v } }

def saUsed (e : BitVec 128) : Bool := e.getLsbD 31
def saSlot (e : BitVec 128) : Nat := e.toNat % 32
def saPn (e : BitVec 128) : Nat := e.toNat / 2 ^ 32 % 2 ^ 64
def saSsci (e : BitVec 128) : Word := BitVec.ofNat 32 (e.toNat / 2 ^ 96)

/-- A key slot. -/
def Blk.keySlot (b : Blk) (n : Nat) : KeySlot := Tab.get (fun _ => {}) b.keys n

/-- The outcome of MACsec on reception at SecY `y`: the frame to go on with, validated or not; none where it is dropped. (DEDUCED, log 80). -/
def Blk.secRx (b : Blk) (y : Nat) (d : List Byte) : Option (List Byte × Bool) × Blk :=
  let w := b.reg (Reg.secy y)
  let fail := fun (i : Nat) (b : Blk) => (if fld w 4 2 = 2 then none else some (d, false), b.add32 (Reg.inBad i) 1)
  if !(tbit w 0) then (some (d, false), b)
  else if be16 d 12 ≠ 0x88E5 then (if fld w 4 2 = 2 then (none, b.add32 (Reg.inBad 0) 1) else (some (d, false), b))
  else
    let an := be16 d 14 / 256 % 2
    match (List.range 4).find? fun sc => saUsed (b.sa y (sc + 1) an) with
    | none => fail 2 b
    | some sc =>
      let e := b.sa y (sc + 1) an
      let low := beNat ((d.drop 16).take 4)
      let pn := if tbit w 1 then
          (let hi := saPn e / 2 ^ 32
           if low + 2 ^ 31 < saPn e % 2 ^ 32 then (hi + 1) * 2 ^ 32 + low else hi * 2 ^ 32 + low)
        else low
      if pn + b.rf Reg.replayWin 0 30 < saPn e then fail 1 b
      else
        let k := b.keySlot (saSlot e)
        match Config.macsecOpen w y k.key k.salt (saSsci e) (BitVec.ofNat 64 pn) d with
        | none => fail 0 b
        | some c => (some (c, true), b.saNext y (sc + 1) an (Nat.max (saPn e) (pn + 1)))

/-- MACsec on transmission at SecY `y`: the frame as sent, or none where no association can send it (R401). (DEDUCED, log 80). -/
def Blk.secTx (b : Blk) (y : Nat) (d : List Byte) : Option (List Byte) × Blk :=
  let w := b.reg (Reg.secy y)
  if !(tbit w 0) then (some d, b)
  else match (List.range 2).find? fun an => saUsed (b.sa y 0 an) with
    | none => (none, b)
    | some an =>
      let e := b.sa y 0 an
      let pn := saPn e
      let top := if tbit w 1 then 2 ^ 64 - 1 else 2 ^ 32
      let thr := (b.reg Reg.pnThrLo).toNat + (b.reg Reg.pnThrHi).toNat * 2 ^ 32
      if top ≤ pn then (none, b)
      else
        let k := b.keySlot (saSlot e)
        let b := b.saNext y 0 an (pn + 1)
        let b := if pn + 1 = thr then b.event 0x07B 0 else b
        let b := if pn + 1 = top then b.event 0x07B 1 else b
        (some (Config.macsecSeal w y k.key k.salt (saSsci e) (BitVec.ofNat 64 pn) d), b)

end Sys2Proof.Machine
end

