-- ==== Sys2Proof/Machine/Pcs.lean ====
section
/-! DEFINITION. The line coding of the lanes, bit by bit (R368 to R377): transcoding, scrambling, alignment markers, forward error
correction, and the two pipelines that they form. -/
namespace Sys2Proof.Machine

/-! Transcoding (R369 to R371). -/

/-- A 66-bit block of the MAC: sync header and payload. -/
structure PcsBlock where
  sync    : BitVec 2
  payload : BitVec 64
  deriving DecidableEq, Repr

/-- The type code of a control block's type byte (R370). -/
def typeCode (t : Nat) : Option Nat := [0x1E, 0x78, 0x4B, 0x87, 0x99, 0xAA, 0xB4, 0xCC, 0xD2, 0xE1, 0xFF].idxOf? t

/-- The type byte of a type code. -/
def codeType (c : Nat) : Option Nat := [0x1E, 0x78, 0x4B, 0x87, 0x99, 0xAA, 0xB4, 0xCC, 0xD2, 0xE1, 0xFF][c]?

/-- A data block; a control block's type byte. -/
def PcsBlock.isData (b : PcsBlock) : Bool := decide (b.sync = 1)
def PcsBlock.type (b : PcsBlock) : Nat := b.payload.toNat % 256

/-- The error block (R371): type 0x1E and eight characters /E/, whose 7-bit code is 0x1E in Clause 82 of IEEE 802.3 (PRESUMED). (PRESUMED, log 71). (DESIGN CHOICE, log 72). -/
def errBlock : PcsBlock :=
  ⟨2, BitVec.ofNat 64 ((List.range 8).foldl (fun a i => a + 0x1E * 2 ^ (8 + 7 * i)) 0x1E)⟩

/-- A block of a legal sync header and type; the transmitter sends no other. -/
def PcsBlock.legal (b : PcsBlock) : Bool := b.isData || (decide (b.sync = 2) && (typeCode b.type).isSome)

/-- A block as it stands on the MAC's side: the two bits of its sync header, then the payload. -/
def PcsBlock.bits (b : PcsBlock) : BitVec 66 := BitVec.ofNat 66 (b.sync.toNat + 4 * b.payload.toNat)
def PcsBlock.ofBits (v : BitVec 66) : PcsBlock := ⟨BitVec.ofNat 2 v.toNat, BitVec.ofNat 64 (v.toNat / 4)⟩

/-- The idle block of Clause 82: type 0x1E and eight characters /I/, whose 7-bit code is 0. (PRESUMED, log 71). -/
def idleBlock : PcsBlock := ⟨2, 0x1E⟩

/-- What the transmitter sends in place of a block (R371). -/
def PcsBlock.clean (b : PcsBlock) : PcsBlock := if b.legal then b else errBlock

/-- The payloads of a slot with a control block, in block order; the first control block gives its upper 56 bits. `pos` is the next bit
position, `first` says that no control block has come yet. -/
def slotBody (pos : Nat) (first : Bool) : List PcsBlock → Nat
  | [] => 0
  | b :: t =>
    if first && !b.isData then b.payload.toNat / 256 * 2 ^ pos + slotBody (pos + 56) false t
    else b.payload.toNat * 2 ^ pos + slotBody (pos + 64) first t

/-- The bits F of a slot: bit `i` where block `i` is data. -/
def slotF : List PcsBlock → Nat
  | [] => 0
  | b :: t => bit b.isData + 2 * slotF t

/-- The transcoder: four blocks as a 257-bit slot (R369, R371). -/
def slotOf4 (l : List PcsBlock) : BitVec 257 :=
  let l := l.map PcsBlock.clean
  match l.find? fun b => !b.isData with
  | none => BitVec.ofNat 257 (1 + slotBody 1 false l)
  | some j => BitVec.ofNat 257 (2 * slotF l + ((typeCode j.type).getD 0) * 2 ^ 5 + slotBody 9 true l)

/-- The blocks behind bit `pos` of a slot with the bits F; `code` is the type byte of the first control block. -/
def slotBlocks (w pos f : Nat) (code : Option Nat) : Nat → List PcsBlock
  | 0 => []
  | n + 1 =>
    if f % 2 = 1 then ⟨1, BitVec.ofNat 64 (w / 2 ^ pos)⟩ :: slotBlocks w (pos + 64) (f / 2) code n
    else match code with
      | some t => ⟨2, BitVec.ofNat 64 (t + w / 2 ^ pos % 2 ^ 56 * 256)⟩ :: slotBlocks w (pos + 56) (f / 2) none n
      | none => ⟨2, BitVec.ofNat 64 (w / 2 ^ pos)⟩ :: slotBlocks w (pos + 64) (f / 2) none n

/-- The receiver's four blocks of a slot (R371); `marked` where the decoder could not correct its codeword (R376). -/
def blocksOf (w : BitVec 257) (marked : Bool) : List PcsBlock :=
  let n := w.toNat
  let bad := List.replicate 4 errBlock
  if marked then bad
  else if n % 2 = 1 then slotBlocks n 1 15 none 4
  else if n / 2 % 16 = 15 then bad
  else match codeType (n / 32 % 16) with
    | none => bad
    | some t => slotBlocks n 9 (n / 2 % 16) (some t) 4

/-! Scrambling (R372). The register holds the last 58 bits of the line, the newest as bit 0. -/

/-- The scrambler's polynomial over the register. -/
def scrTap (st : BitVec 58) : Bool := xor (st.getLsbD 38) (st.getLsbD 57)

/-- The register after a bit of the line. -/
def scrNext (st : BitVec 58) (b : Bool) : BitVec 58 := (st <<< 1) ||| BitVec.ofNat 58 (bit b)

/-- The scrambled bits, and the register after them. -/
def scramble (st : BitVec 58) : List Bool → List Bool × BitVec 58
  | [] => ([], st)
  | b :: t =>
    let c := xor b (scrTap st)
    let z := scramble (scrNext st c) t
    (c :: z.1, z.2)

/-- The descrambled bits, and the register after them. -/
def descramble (st : BitVec 58) : List Bool → List Bool × BitVec 58
  | [] => ([], st)
  | c :: t =>
    let z := descramble (scrNext st c) t
    (xor c (scrTap st) :: z.1, z.2)

/-! Alignment markers (R373, R374, R377, R378). -/

/-- MARK. -/
def amMark : Nat := 0xC596F83A0769

/-- The marker slot of port `p` with marker count `c`. -/
def amSlot (p : Nat) (c : BitVec 16) : BitVec 257 :=
  let nm := 2 ^ 48 - 1 - amMark
  BitVec.ofNat 257 (amMark * 2 + p * 2 ^ 49 + c.toNat * 2 ^ 57 + (~~~ c).toNat * 2 ^ 73 + nm * 2 ^ 89 + amMark * 2 ^ 137 + nm * 2 ^ 185 +
    amMark % 2 ^ 24 * 2 ^ 233)

/-- Does codeword `n` open with a marker? -/
def amAt (twoSub : Bool) (n : Nat) : Bool := decide (n % 1024 = 0) || (twoSub && decide (n % 1024 = 1))

/-- The sublane of codeword `n`. -/
def cwSublane (twoSub : Bool) (n : Nat) : Nat := if twoSub then n % 2 else 0

/-- The number of set bits among the `k` lowest. -/
def popCount (n : Nat) : Nat → Nat
  | 0 => 0
  | k + 1 => n % 2 + popCount (n / 2) k

/-- Does a slot match as a marker: at most 4 differing bits of MARK, AMC the complement of NAMC? -/
def amMatches (w : BitVec 257) : Bool :=
  let n := w.toNat
  decide (popCount ((n / 2 % 2 ^ 48) ^^^ amMark) 48 ≤ 4) && decide (n / 2 ^ 57 % 2 ^ 16 + n / 2 ^ 73 % 2 ^ 16 = 2 ^ 16 - 1)

/-! Forward error correction (R375): RS(576,514) over GF(2^10). -/

/-- Multiplication by α: x^10 is x^3 + 1. -/
def gfDouble (a : BitVec 10) : BitVec 10 := (a <<< 1) ^^^ (if a.getLsbD 9 then 9 else 0)

/-- The product of two field elements; `k` bits of `b` from the lowest on. -/
def gfMulN (a b : BitVec 10) : Nat → BitVec 10
  | 0 => 0
  | k + 1 => (if b.getLsbD 0 then a else 0) ^^^ gfMulN (gfDouble a) (b >>> 1) k
def gfMul (a b : BitVec 10) : BitVec 10 := gfMulN a b 10

/-- α to the power `i`. -/
def gfPow : Nat → BitVec 10
  | 0 => 1
  | i + 1 => gfDouble (gfPow i)

/-- A polynomial, lowest coefficient first, times (x − r). -/
def polyRoot (r : BitVec 10) (l : List (BitVec 10)) : List (BitVec 10) :=
  List.zipWith (fun a b => a ^^^ gfMul r b) (0 :: l) (l ++ [0])

/-- The product of (x − α^i) for `i` below `n`, lowest coefficient first. -/
def rsGen : Nat → List (BitVec 10)
  | 0 => [1]
  | n + 1 => polyRoot (gfPow n) (rsGen n)

/-- One symbol of the message enters the division by g: `r` is the remainder so far, highest coefficient first. -/
def rsStep (g : List (BitVec 10)) (r : List (BitVec 10)) (m : BitVec 10) : List (BitVec 10) :=
  let q := m ^^^ r.headD 0
  List.zipWith (fun a c => a ^^^ gfMul q c) (r.drop 1 ++ [0]) g

/-- The 62 parity symbols of a message, highest degree first. -/
def rsParity (msg : List (BitVec 10)) : List (BitVec 10) :=
  msg.foldl (rsStep ((rsGen 62).reverse.drop 1)) (List.replicate 62 0)

/-- A codeword: the message and its parity. -/
def rsCodeword (msg : List (BitVec 10)) : List (BitVec 10) := msg ++ rsParity msg

/-- The inverse of a field element: its power 1022. -/
def gfInvN (a : BitVec 10) : Nat → BitVec 10
  | 0 => 1
  | k + 1 => gfMul (gfMul a a) (gfInvN (gfMul a a) k)
def gfInv (a : BitVec 10) : BitVec 10 := gfInvN a 9

/-- A polynomial, lowest coefficient first, at a point. -/
def polyAt (l : List (BitVec 10)) (x : BitVec 10) : BitVec 10 := l.foldr (fun c a => c ^^^ gfMul x a) 0

/-- The sum of two polynomials; a polynomial times a constant. -/
def polyAdd : List (BitVec 10) → List (BitVec 10) → List (BitVec 10)
  | [], l => l
  | l, [] => l
  | a :: s, b :: t => (a ^^^ b) :: polyAdd s t
def polyScale (c : BitVec 10) (l : List (BitVec 10)) : List (BitVec 10) := l.map (gfMul c)

/-- The 62 syndromes of a received word, whose first symbol is the coefficient of x^575; `i` is the next root's power. -/
def syndromes (word : List (BitVec 10)) (x : BitVec 10) : Nat → List (BitVec 10)
  | 0 => []
  | n + 1 => word.foldl (fun a c => gfMul x a ^^^ c) 0 :: syndromes word (gfDouble x) n

/-- The search for the shortest recurrence of the syndromes: the error locator so far, the one before the last change of length, the length,
steps since that change, the discrepancy there. -/
structure Locator where
  c   : List (BitVec 10) := [1]
  old : List (BitVec 10) := [1]
  len : Nat := 0
  gap : Nat := 1
  den : BitVec 10 := 1

/-- Syndrome `i` enters; `past` are the syndromes up to it, newest first. -/
def Locator.step (x : Locator) (i : Nat) (past : List (BitVec 10)) : Locator :=
  let d := (List.zipWith gfMul x.c past).foldl (· ^^^ ·) 0
  if d = 0 then { x with gap := x.gap + 1 }
  else
    let c := polyAdd x.c (List.replicate x.gap 0 ++ polyScale (gfMul d (gfInv x.den)) x.old)
    if 2 * x.len ≤ i then { c := c, old := x.c, len := i + 1 - x.len, gap := 1, den := d } else { x with c := c, gap := x.gap + 1 }

/-- The locator of a list of syndromes. -/
def locate (x : Locator) (i : Nat) (past : List (BitVec 10)) : List (BitVec 10) → Locator
  | [] => x
  | s :: t => locate (x.step i (s :: past)) (i + 1) (s :: past) t

/-- The product of two polynomials up to degree `n - 1`. -/
def polyMulN (n : Nat) : List (BitVec 10) → List (BitVec 10) → List (BitVec 10)
  | [], _ => []
  | a :: s, l => (polyAdd (polyScale a l) (0 :: polyMulN n s l)).take n

/-- The derivative of a polynomial: its odd coefficients, each one degree lower. -/
def polyOdd : List (BitVec 10) → List (BitVec 10)
  | _ :: b :: t => b :: 0 :: polyOdd t
  | _ => []

/-- The word with the errors that a locator `c` and an evaluator `w` name taken out, last symbol first, and how many there are; `x` is the
inverse of the place of the next symbol. -/
def corrected (c w : List (BitVec 10)) (x : BitVec 10) : List (BitVec 10) → List (BitVec 10) × Nat
  | [] => ([], 0)
  | s :: t =>
    let z := corrected c w (gfMul x (gfInv 2)) t
    if polyAt c x = 0 then ((s ^^^ gfMul (gfInv x) (gfMul (polyAt w x) (gfInv (polyAt (polyOdd c) x)))) :: z.1, z.2 + 1) else (s :: z.1, z.2)

/-- The decoder (R376): the number of symbols corrected and the codeword, where one lies within 31 symbols of the received word; none where
it cannot correct. (DEDUCED, log 153). -/
def rsDecode (word : List (BitVec 10)) : Option (Nat × List (BitVec 10)) :=
  let word := (word ++ List.replicate 576 0).take 576
  let s := syndromes word 1 62
  if s.all (· == 0) then some (0, word)
  else
    let k := locate {} 0 [] s
    let z := corrected k.c (polyMulN 62 k.c s) 1 word.reverse
    let good := z.1.reverse
    if k.len ≤ 31 ∧ z.2 = k.len ∧ (syndromes good 1 62).all (· == 0) = true then some (z.2, good) else none

/-- The bits of a slot in transmission order; ten bits as a symbol, the first one lowest. -/
def slotBits (w : BitVec 257) : List Bool := (List.range 257).map w.getLsbD
def symbolOf (l : List Bool) : BitVec 10 := BitVec.ofNat 10 (l.foldr (fun b a => bit b + 2 * a) 0)

/-- The message symbols of the 20 slots of a codeword; `n` bounds the symbols. -/
def symbolsOf (l : List Bool) : Nat → List (BitVec 10)
  | 0 => []
  | n + 1 => symbolOf (l.take 10) :: symbolsOf (l.drop 10) n

/-- The codeword that carries 20 slots. -/
def codewordOf (slots : List (BitVec 257)) : List (BitVec 10) := rsCodeword (symbolsOf (slots.flatMap slotBits) 514)

/-! The two pipelines (R368). -/

/-- The slots of a list of blocks; `n` bounds them. -/
def slotsOf (l : List PcsBlock) : Nat → List (BitVec 257)
  | 0 => []
  | n + 1 => slotOf4 (l.take 4) :: slotsOf (l.drop 4) n

/-- The 257-bit slots of a list of bits; `n` bounds them. -/
def slotsAt (l : List Bool) : Nat → List (BitVec 257)
  | 0 => []
  | n + 1 => BitVec.ofNat 257 ((l.take 257).foldr (fun b a => bit b + 2 * a) 0) :: slotsAt (l.drop 257) n

/-- The transmitter's codeword `n` on port `p` (R369 to R375): the MAC's blocks, four fewer where a marker stands first, idle where it gives
too few; and its scrambler after them. The count AMC of a marker is the number of markers before it. (DESIGN CHOICE, log 152). -/
def pcsSend (p : Nat) (two : Bool) (n : Nat) (scr : BitVec 58) (mac : List (BitVec 66)) : List (BitVec 10) × BitVec 58 :=
  let am := amAt two n
  let m := 20 - bit am
  let z := scramble scr ((slotsOf ((mac.map PcsBlock.ofBits ++ List.replicate 80 idleBlock).take (4 * m)) m).flatMap slotBits)
  (rsCodeword (symbolsOf ((if am then slotBits (amSlot p (BitVec.ofNat 16 (n / 1024))) else []) ++ z.1) 514), z.2)

/-- The blocks that the receiver's MAC takes from a codeword at place `n` of the AM period, `marked` where it could not be corrected
(R371, R372, R373, R376); and the descrambler after it. -/
def pcsRecv (two : Bool) (n : Nat) (st : BitVec 58) (marked : Bool) (word : List (BitVec 10)) : List (BitVec 66) × BitVec 58 :=
  let bits := (word.take 514).flatMap fun s => (List.range 10).map s.getLsbD
  let am := amAt two n
  let z := descramble st (if am then bits.drop 257 else bits)
  ((slotsAt z.1 (20 - bit am)).flatMap fun w => (blocksOf w marked).map PcsBlock.bits, z.2)

/-- A codeword's bits in words of `n` bits, the first bit lowest; `k` bounds the words. -/
def lineWords (n : Nat) (l : List Bool) : Nat → List Nat
  | 0 => []
  | k + 1 => (l.take n).foldr (fun b a => bit b + 2 * a) 0 :: lineWords n (l.drop n) k

/-- A codeword on `txd` (R377): bit 0 first; with two sublanes the half of its own one, 72 words long. -/
def txdWords (two : Bool) (sub : Nat) (word : List (BitVec 10)) : List (BitVec 160) :=
  let bits := word.flatMap fun s => (List.range 10).map s.getLsbD
  if two then (lineWords 80 bits 72).map fun w => BitVec.ofNat 160 (w * 2 ^ (80 * sub)) else (lineWords 160 bits 36).map (BitVec.ofNat 160)

/-- The distance of two markers on a sublane in bits (R373, R377). -/
def amSpacing (two : Bool) : Nat := if two then 512 * 5760 else 1024 * 5760

/-- The count AMC of a marker slot. -/
def amCount (w : BitVec 257) : BitVec 16 := w.extractLsb' 57 16

end Sys2Proof.Machine
end

