-- ==== Sys2Proof/Machine/LaneOps.lean ====
section
/-! DEFINITION. The backbone and mirror lanes (R368 to R391) and the mirror frames that carry the Causeway (R350, R387, R388). -/
namespace Sys2Proof.Machine

/-- Lane `k`'s record. -/
def Blk.lane (b : Blk) (k : Nat) : Lane := Tab.get (fun _ => {}) b.lanes k

/-- The page of lane `k` (R390). -/
def lanePage (k : Nat) : Nat := 0x070 + k

/-- `LSTAT.STATE` of a lane (R391). (DEDUCED, log 54). -/
def laneState (x : Lane) : Nat :=
  match x.step with
  | 0 => 0
  | 1 => 1
  | 2 => 1
  | 3 => 2
  | 5 => if x.sig then 3 else 5
  | 8 => 4
  | 9 => 6
  | _ => 3

/-- Is lane `k` UP? -/
def Blk.laneUp (b : Blk) (k : Nat) : Bool := decide ((b.lane k).step = 8)

/-- Replace lane `k`'s record; `LSTAT`, `MSTAT.LANES_UP` follow (R367, R391). -/
def Blk.setLane (b : Blk) (k : Nat) (x : Lane) : Blk :=
  let b := { b with lanes := Tab.put b.lanes k x }
  let b := (b.setF (Reg.lstat k) 0 3 (laneState x)).setF (Reg.lstat k) 3 1 (bit x.sig)
  let b := b.setF (Reg.lstat k) 8 4 (Nat.min 15 x.fails)
  let b := b.setF (Reg.lstat k) 4 2 (bit x.am0.lock + 2 * bit x.am1.lock)
  if 4 ≤ k then b.setF Reg.mstat (k - 1) 1 (bit (decide (x.step = 8))) else b

/-- Serial-number order (R320): `a` is at or below `c`. -/
def atOrBelow (a c : Nat) : Bool := decide ((c + 2 ^ 32 - a % 2 ^ 32) % 2 ^ 32 < 2 ^ 31)

/-- Is mirror lane `k` (4 or 5) enabled for the Causeway and UP (R367)? -/
def Blk.mirUp (b : Blk) (k : Nat) : Bool := b.laneUp k && b.rb Reg.mcfgReg (k - 2)

/-- The bytes of a mirror frame to be sent on a lane, without FCS, padded to 60 bytes (R387). -/
def Blk.mfrBytes (b : Blk) (lane fseq : Nat) (ackOnly nak : Bool) (nlane : Nat) (payload : List Byte) : List Byte :=
  let m := b.mfr
  let d := List.replicate 6 0xFF ++ toBe 6 ((b.reg (Reg.macAddrLo lane)).toNat + 2 ^ 32 * b.rf (Reg.macAddrHi lane) 0 16) ++
    toBe 2 (b.rf (Reg.mfrCfg 0) 0 16) ++ toBe 4 fseq ++ toBe 4 ((m.rxNext + 2 ^ 32 - 1) % 2 ^ 32) ++
    toBe 1 (bit ackOnly + 2 * bit nak + 4 * bit (!m.acked) + 8 * nlane) ++ toBe 1 1 ++ toBe 2 payload.length ++
    toBe 4 (Tab.get (fun _ => 0) m.intact (4 + nlane)) ++ payload
  d ++ List.replicate (60 - d.length) 0

/-- A frame is sent on a lane (R387), protected where the lane's SecY is on (R386, R401). -/
def Blk.mfrEmit (b : Blk) (lane fseq : Nat) (ackOnly nak : Bool) (nlane : Nat) (payload : List Byte) : Blk :=
  match b.secTx lane (b.mfrBytes lane fseq ackOnly nak nlane payload) with
  | (none, b) => b
  | (some d, b) => (b.add32 (Reg.txFrames lane) 1).emit (.mirror lane d)

/-- Resend the unacknowledged frames that `f` names, on a lane (R388). -/
def Blk.mfrResend (b : Blk) (lane : Nat) (f : Nat × Nat × List Byte → Bool) : Blk :=
  if !(b.mirUp lane) then b
  else
    let hit := b.mfr.unack.filter f
    let b := { b with mfr := { b.mfr with unack := b.mfr.unack.map fun x => if f x then (x.1, lane, x.2.2) else x } }
    hit.foldl (fun b x => (b.count (Reg.mfrRetx (lane - 4)) 0 16).mfrEmit lane x.1 false false 0 x.2.2) b

/-- The unacknowledged frames of a mirror lane that is no longer UP are sent again on the other (R364, R389). -/
def Blk.mfrMove (b : Blk) (k : Nat) : Blk := if 4 ≤ k then b.mfrResend (9 - k) fun x => x.2.1 == k else b

/-- Lane `k` goes to a step at which nothing is locked. -/
def Blk.laneTo (b : Blk) (k n : Nat) : Blk := b.setLane k { b.lane k with step := n, am0 := {}, am1 := {}, rxN := 0, blocks := [] }

/-- A TRAIN outstanding is given up: ABORT is asked for, in an exchange of its own once the PHY has ended the one before (R380, R389).
(DEDUCED, log 154). -/
def Blk.laneAbort (b : Blk) (k : Nat) : Blk :=
  if (b.lane k).tr = 1 then (b.setLane k { b.lane k with tr := 2 }).emit (.train k 2) else b

/-- Does an UP mirror lane go down (R366, LANE_DOWN)? -/
def Blk.mirDown (b : Blk) (k : Nat) : Blk := if 4 ≤ k ∧ b.laneUp k = true then b.event 0x004 2 else b

/-- An attempt starts (R381 step 1). -/
def Blk.laneStart (b : Blk) (k : Nat) : Blk :=
  let b := (b.laneAbort k).laneTo k 1
  b.setLane k { b.lane k with unc := 0, ser := 0 }

/-- The block mirrors no more: no pair is ready or stopped for its follower, and a takeover of the peer is past (R362, R364, R367). -/
def Blk.mirrorEnd (b : Blk) : Blk :=
  let b := (List.range 8).foldl (fun b p => if (b.pair p).lagStop then b.setPair p { b.pair p with lagStop := false } else b) b
  ({ b with mir := { b.mir with deposed := false } }.setF Reg.mstat 8 16 0).clrBit Reg.mstat 1

/-- Both mirror lanes are retired (R21, R339, R364). -/
def Blk.mirrorLost (b : Blk) : Blk :=
  if b.rb Reg.retNet 4 && b.rb Reg.retNet 5 then
    if b.sys.base = 6 then b.mirrorEnd.setBase 4 else if b.sys.base = 7 then b.safeHold 6 else b
  else b

/-- Lane `k` is retired (R383, R389). -/
def Blk.laneRetire (b : Blk) (k : Nat) : Blk :=
  if (b.lane k).step = 9 then b
  else
    let b := ((b.mirDown k).laneAbort k).laneTo k 9
    ((((b.setBit Reg.retNet k).event (lanePage k) 3).permanent).mfrMove k).mirrorLost

/-- An attempt fails (R381, R383). -/
def Blk.laneFail (b : Blk) (k : Nat) : Blk :=
  let x := b.lane k
  let n := if x.sig then x.fails + 1 else 0
  let lim := b.rf (Reg.lossCfg k) 16 4
  let b := b.setLane k { x with fails := n, step := 1 }
  if lim ≠ 0 ∧ lim ≤ n then b.laneRetire k else b.laneStart k

/-- An UP lane goes down and starts a new attempt (R382). -/
def Blk.laneDown (b : Blk) (k : Nat) : Blk :=
  (((b.mirDown k).event (lanePage k) 1).laneStart k).mfrMove k

/-- A change of `LCTRL` (R381, R389, R391), already accepted, is followed: enabling starts an attempt, disabling ends it. -/
def Blk.laneEnable (b : Blk) (k : Nat) (was now : Bool) : Blk :=
  if (b.lane k).step = 9 then b
  else if now && !was then b.laneStart k
  else if was && !now then
    (((b.mirDown k).laneAbort k).laneTo k 0).mfrMove k
  else b

/-- `LCMD.RELINK` (R390). -/
def Blk.laneRelink (b : Blk) (k : Nat) : Blk :=
  if (b.lane k).step = 9 ∨ b.rb (Reg.lctrlReg k) 0 = false then b
  else
    let b := if (b.lane k).step = 8 then (b.mirDown k).event (lanePage k) 1 else b
    ((b.setLane k { b.lane k with fails := 0 }).laneStart k).mfrMove k

/-- `phy_rst_n` rises (R381 step 1). -/
def Blk.laneReset1 (b : Blk) (k : Nat) : Blk :=
  if (b.lane k).step = 1 ∧ b.sys.base ≠ 0xA then b.setLane k { b.lane k with step := 2 } else b

/-- `tx_rdy` (R381 step 2): training is asked for, as soon as no ABORT is outstanding. -/
def Blk.laneTxRdy (b : Blk) (k : Nat) : Blk :=
  if (b.lane k).step ≠ 2 then b
  else if (b.lane k).tr = 0 then (b.setLane k { b.lane k with step := 3, tr := 1 }).emit (.train k 1)
  else b.setLane k { b.lane k with step := 3 }

/-- A training exchange ends: `tr_ack` has risen with the result, `tr_req` has fallen and `tr_ack` after it (R380, R381 steps 3 to 5).
(DEDUCED, log 154). -/
def Blk.laneTrain (b : Blk) (k : Nat) (stat : Nat) : Blk :=
  let x := b.lane k
  if x.tr = 0 then b
  else if x.tr = 2 then
    if x.step = 3 then (b.setLane k { x with tr := 1 }).emit (.train k 1) else b.setLane k { x with tr := 0 }
  else
    let b := b.setLane k { x with tr := 0 }
    if x.step ≠ 3 then b
    else if stat = 0 then b.setLane k { x with tr := 0, txN := 0, step := if x.sig && x.rxl then 6 else 5 }
    else (b.flt (lanePage k) 1).laneFail k

/-- `sig_det` is high, and `rx_lock` too where `lock` says so (R381 step 5). -/
def Blk.laneSignal (b : Blk) (k : Nat) (lock : Bool) : Blk :=
  let x := { b.lane k with sig := true, rxl := (b.lane k).rxl || lock }
  b.setLane k { x with step := if x.step = 5 && x.rxl then 6 else x.step }

/-- Lane `k` uses two sublanes (R377). -/
def Blk.twoSub (b : Blk) (k : Nat) : Bool := b.rb (Reg.lctrlReg k) 1

/-- The marker search of a sublane; replace it. -/
def Lane.am (x : Lane) (sub : Nat) : AmLock := if sub = 0 then x.am0 else x.am1
def Lane.setAm (x : Lane) (sub : Nat) (a : AmLock) : Lane := if sub = 0 then { x with am0 := a } else { x with am1 := a }

/-- Lock is gained by two matches exactly one spacing `d` apart (R378): a slot that matches at `at'`. -/
def AmLock.search (a : AmLock) (d at' : Nat) (c : BitVec 16) : AmLock :=
  if a.cand.contains (at' - d) && decide (d ≤ at') then { lock := true, last := at', amc := c }
  else { a with cand := at' :: a.cand.filter fun y => decide (at' ≤ y + d) }

/-- Is a marker expected at `at'`? -/
def AmLock.due (a : AmLock) (d at' : Nat) : Bool := decide (at' = a.last + d * (a.miss + 1))

/-- AM lock is lost on a sublane (R378, R382). -/
def Blk.laneSlip (b : Blk) (k sub : Nat) : Blk :=
  let x := b.lane k
  if x.step < 6 ∨ x.step = 9 ∨ (x.am sub).lock = false then b
  else
    let b := b.count (Reg.amSlip k) 0 16
    if x.step = 8 then b.laneDown k else b.setLane k ({ x with step := 6 }.setAm sub {})

/-- With every sublane locked the receiver deskews (R378, R381 step 6): the skew is taken between markers of equal AMC. -/
def Blk.laneDeskew (b : Blk) (k : Nat) : Blk :=
  let x := b.lane k
  let two := b.twoSub k
  if x.step ≠ 6 ∨ x.am0.lock = false ∨ (two = true ∧ (x.am1.lock = false ∨ x.am0.amc ≠ x.am1.amc)) then b
  else
    let skew := if two then (Nat.max x.am0.last x.am1.last - Nat.min x.am0.last x.am1.last) / 80 else 0
    if 140 < skew then (b.flt (lanePage k) 2).laneFail k
    else (b.setReg (Reg.deskew k) (BitVec.ofNat 32 skew)).setLane k { x with step := 7 }

/-- A slot `w` stands at bit `at'` of a sublane (R378, R381 steps 6 and 7). While no lock is held every matching slot is a candidate; then
only the slots where a marker is expected count, and the first intact one after deskew takes the lane UP. (DEDUCED, log 155). -/
def Blk.laneMarker (b : Blk) (k sub at' : Nat) (w : BitVec 257) : Blk :=
  let x := b.lane k
  let d := amSpacing (b.twoSub k)
  let a := x.am sub
  if x.step < 6 ∨ 8 < x.step ∨ (sub ≠ 0 ∧ b.twoSub k = false) then b
  else if !a.lock then
    if amMatches w then (b.setLane k ({ x with rxN := 0 }.setAm sub (a.search d at' (amCount w)))).laneDeskew k else b
  else if !(a.due d at') then b
  else if amMatches w then
    let x := { x with rxN := if sub = 0 then 0 else x.rxN }.setAm sub { a with last := at', amc := amCount w, miss := 0 }
    if x.step = 7 then (b.setLane k { x with step := 8, fails := 0, unc := 0, ser := 0 }).event (lanePage k) 0 else (b.setLane k x).laneDeskew k
  else if a.miss < 2 then b.setLane k (x.setAm sub { a with miss := a.miss + 1 })
  else b.laneSlip k sub

/-- An attempt is not UP within `ATT_MS` (R381); a lane that waits for its signal does not fail. -/
def Blk.laneTimeout (b : Blk) (k : Nat) : Blk :=
  let x := b.lane k
  if x.step = 0 ∨ 8 ≤ x.step ∨ (x.step = 5 ∧ x.sig = false) then b
  else b.laneFail k

/-- `sig_det` low for 1.0 µs (R382). -/
def Blk.laneNoSig (b : Blk) (k : Nat) : Blk :=
  let x := b.lane k
  let b := b.setLane k { x with sig := false }
  let b := if x.step = 6 ∨ x.step = 7 then b.laneTo k 5 else b
  if x.step = 8 then b.laneDown k else b

/-- `tx_rdy` or `rx_lock` low (R382). -/
def Blk.laneStatusLow (b : Blk) (k : Nat) (rxLock : Bool) : Blk :=
  let x := b.lane k
  let b := if rxLock then b.setLane k { x with rxl := false } else b
  let b := if rxLock && (decide (x.step = 6) || decide (x.step = 7)) then b.laneTo k 5 else b
  if x.step = 8 then b.laneDown k else b

/-- The end of an AM period (R382): transient faults for uncorrectable codewords and for corrected symbols above `SER_THR`. -/
def Blk.laneAmEnd (b : Blk) (k : Nat) : Blk :=
  let x := b.lane k
  let b := if x.unc = 0 then b else b.transient
  let b := if b.rf (Reg.serThr k) 0 24 < x.ser then (b.transient).event (lanePage k) 2 else b
  b.setLane k { b.lane k with unc := 0, ser := 0 }

/-- What the transmitter sends in a codeword's time (R368, R373, R381 step 4), of the blocks `mac` that its MAC gives. -/
def Blk.laneSend (b : Blk) (k : Nat) (mac : List (BitVec 66)) : List (BitVec 10) × Blk :=
  let x := b.lane k
  let two := b.twoSub k
  let z := pcsSend k two x.txN x.scr mac
  let sub := cwSublane two x.txN
  (z.1, (b.setLane k { x with txN := x.txN + 1, scr := z.2 }).emit (.line k sub (txdWords two sub z.1)))

/-- A codeword is received and decoded (R376, R382): the counters, the blocks for the MAC, the end of an AM period, the lane's fall. -/
def Blk.laneCodeword (b : Blk) (k : Nat) (word : List (BitVec 10)) : Blk :=
  let x := b.lane k
  let dec := rsDecode word
  let z := pcsRecv (b.twoSub k) x.rxN x.dscr dec.isNone (dec.elim word (·.2))
  let x := { x with rxN := (x.rxN + 1) % 1024, dscr := z.2, blocks := z.1 }
  let b := b.add32 (Reg.cwCnt k) 1
  let b := match dec with
    | none => (b.add32 (Reg.cwUnc k) 1).setLane k { x with unc := x.unc + 1 }
    | some y =>
      if y.1 = 0 then b.setLane k x
      else ((b.add32 (Reg.cwCorr k) 1).add32 (Reg.symCorr k) y.1).setLane k { x with ser := x.ser + y.1 }
  let many := decide (b.rf (Reg.lossCfg k) 24 8 < (b.lane k).unc)
  let b := if x.rxN = 0 then b.laneAmEnd k else b
  if many && decide (x.step = 8) then b.laneDown k else b

/-- One codeword's time on lane `k` (R368): the transmitter, once it sends, sends one, and the receiver, once its markers are locked and
deskewed, takes one: the one on `rxd`, or in PCS loopback the one just sent. (DESIGN CHOICE, log 152). -/
def Blk.laneCw (b : Blk) (k : Nat) (word : List (BitVec 10)) (mac : List (BitVec 66)) : Blk :=
  if (b.lane k).step < 4 ∨ (b.lane k).step = 9 then b
  else
    let z := b.laneSend k mac
    if (b.lane k).step < 7 then z.2
    else z.2.laneCodeword k (if b.rf (Reg.lctrlReg k) 2 2 = 1 then z.1 else word)

/-- `phy_irq` (R379). -/
def Blk.lanePhyIrq (b : Blk) (k : Nat) (level : Bool) : Blk :=
  let b := b.setLane k { b.lane k with irq := level }
  if level && decide (2 ≤ b.sys.base) then b.event (lanePage k) 4 else b

/-- At boot `phy_irq` may have been high through the reset (R379). -/
def Blk.phyEvents (b : Blk) : Blk := (List.range 6).foldl (fun b k => if (b.lane k).irq then b.event (lanePage k) 4 else b) b

/-! The mirror frames. -/

/-- Type, pair and body of a record (R350). The widths of the body fields that the table leaves open are the model's. (DESIGN CHOICE, log 83). -/
def cwBody : CwRec → Nat × Nat × List Byte
  | .hello r v d => (1, 0, toLe 4 (bit r) ++ toLe 4 v.toNat ++ toLe 4 d.toNat)
  | .input p e => (2, p, inBytes e)
  | .release p e => (3, p, relBytes e)
  | .horizon p s => (4, p, toLe 6 s)
  | .msmark p s n t d => (5, p, toLe 6 s ++ toLe 4 n.toNat ++ toLe 8 t.toNat ++ toLe 4 d.toNat)
  | .line p a d => (6, p, toLe 4 a ++ d)
  | .image p o d => (7, p, toLe 4 o ++ d)
  | .time t => (8, 0, toLe 8 t.toNat)
  | .ack p s n => (9, p, toLe 6 s ++ toLe 4 n.toNat)
  | .resync p => (10, p, [])

/-- The bytes of a record: header word and body (R350). -/
def cwBytes (r : CwRec) : List Byte :=
  let x := cwBody r
  toLe 4 (x.1 + x.2.1 * 2 ^ 8 + x.2.2.length * 2 ^ 16) ++ x.2.2

/-- A frame closes and is sent (R388). -/
def Blk.frameClose (b : Blk) (lane : Nat) : Blk :=
  let bytes := b.mfr.tx ++ b.cwq.flatMap cwBytes
  if !(b.mirUp lane) || bytes.isEmpty || decide (128 ≤ b.mfr.unack.length) then b
  else
    let m := b.mfr
    let pl := bytes.take 512
    let b := { b with cwq := [], mfr := { m with tx := bytes.drop 512, txNext := (m.txNext + 1) % 2 ^ 32,
                                                 unack := m.unack ++ [(m.txNext, lane, pl)] } }
    b.mfrEmit lane m.txNext false false 0 pl

/-- An ACK-only frame on an idle lane (R388). -/
def Blk.ackOnlyFrame (b : Blk) (lane : Nat) : Blk := if b.mirUp lane then b.mfrEmit lane 0 true false 0 [] else b

/-- Deliver held frames that have come into order; `k` bounds them. -/
def mfrDrain (m : Mfr) : Nat → Mfr
  | 0 => m
  | k + 1 =>
    match m.held.find? fun x => x.1 == m.rxNext with
    | none => m
    | some x =>
      mfrDrain { m with rxNext := (m.rxNext + 1) % 2 ^ 32, held := m.held.filter (fun y => y.1 != x.1), rx := m.rx ++ x.2 } k

/-- The receiver takes a data frame (R388): in order, held, or a duplicate. -/
def mfrTake (m : Mfr) (fseq : Nat) (payload : List Byte) : Mfr :=
  if fseq = m.rxNext then mfrDrain { m with rxNext := (m.rxNext + 1) % 2 ^ 32, rx := m.rx ++ payload } 128
  else if atOrBelow fseq m.rxNext || decide (128 ≤ m.held.length) || m.held.any (fun x => x.1 == fseq) then m
  else { m with held := m.held ++ [(fseq, payload)] }

/-- A START with FSEQ 1 (R388): the receiver is reset, and where the peer before had acknowledged frames the sender begins anew
for the new peer. (DEDUCED, log 86). -/
def mfrRestart (m : Mfr) : Mfr :=
  let m := { m with rxNext := 1, held := [], rx := [] }
  if m.acked then { m with txNext := 1, unack := [], acked := false, tx := [], intact := [] } else m

/-- Acknowledged frames are freed (R388). -/
def mfrAcked (m : Mfr) (aseq : Nat) : Mfr :=
  { m with unack := m.unack.filter fun x => !(atOrBelow x.1 aseq), acked := m.acked || decide (aseq ≠ 0) }

/-- The fields of a mirror frame that the receiver acts on (R387). -/
def mirParse (d : List Byte) : MirFrame :=
  let at' := fun i n => beNat ((d.drop i).take n)
  let fl := (d.drop 22).headD 0
  { etype := BitVec.ofNat 16 (at' 12 2), fseq := BitVec.ofNat 32 (at' 14 4), aseq := BitVec.ofNat 32 (at' 18 4), ackOnly := fl.getLsbD 0
    nak := fl.getLsbD 1, start := fl.getLsbD 2, nlane := fl.getLsbD 3, nseq := BitVec.ofNat 32 (at' 26 4), payload := (d.drop 30).take (at' 24 2) }

/-- A good mirror frame on an enabled lane `k` is acted on (R388). (DEDUCED, log 86). -/
def Blk.mirrorTake (b : Blk) (k : Nat) (f : MirFrame) : Blk :=
  let anew := f.start && decide (f.fseq = 1)
  let b := if anew then { b with mir := { b.mir with hello := none } } else b
  let m := mfrAcked b.mfr f.aseq.toNat
  let m := if anew then mfrRestart m else m
  let m := if f.ackOnly then m
    else { mfrTake m f.fseq.toNat f.payload with intact := Tab.set (fun _ => 0) m.intact k f.fseq.toNat }
  let b := { b with mfr := m }
  if f.nak then b.mfrResend k fun x => x.2.1 == 4 + bit f.nlane && !(atOrBelow x.1 f.nseq.toNat) else b

/-- A frame is received on mirror lane `k` (R368, R384, R386, R388). One that R384 discards brings a NAK on every UP lane; control frames,
frames of another EtherType or VER, and frames on a lane that is not enabled for the Causeway are dropped. (DEDUCED, log 70). (DEDUCED, log 86). -/
def Blk.mirrorFrame (b : Blk) (k : Nat) (good : Bool) (d : List Byte) : Blk :=
  if !(b.laneUp k) then b
  else if !good || decide (d.length < 60) || decide (b.rf (Reg.macCfg k) 0 14 - 4 < d.length) then
    let b := b.add32 (Reg.rxErr k) 1
    if b.mirUp k then [4, 5].foldl (fun b j => if b.mirUp j then b.mfrEmit j 0 true true (k - 4) [] else b) b else b
  else if be16 d 12 = 0x8808 then b.add32 (Reg.rxDrop k) 1
  else match b.secRx k d with
    | (none, b) => b.add32 (Reg.rxFrames k) 1
    | (some (c, _), b) =>
      if be16 c 12 ≠ b.rf (Reg.mfrCfg 0) 0 16 ∨ (c.drop 23).headD 0 ≠ 1 ∨ b.mirUp k = false then b.add32 (Reg.rxDrop k) 1
      else (b.add32 (Reg.rxFrames k) 1).mirrorTake k (mirParse c)

end Sys2Proof.Machine
end

