-- ==== Sys2Proof/Machine/SwitchOps.lean ====
section
/-! DEFINITION. The switch (R392 to R397), its TSN engine (R398 to R400), MACsec (R401), time sync (R402), edge ports (R403, R404)
and the DoIP service (R409). Frames are byte strings from DA to the last payload byte, without FCS. -/
namespace Sys2Proof.Machine

/-! Frames. -/

/-- Destination and source addresses. -/
def frameDa (d : List Byte) : Nat := beNat (d.take 6)
def frameSa (d : List Byte) : Nat := beNat ((d.drop 6).take 6)

/-- Does an IEEE 802.1Q tag follow the addresses? -/
def hasTag (d : List Byte) : Bool := decide (be16 d 12 = 0x8100)

/-- PCP and VID of the tag. -/
def framePcp (d : List Byte) : Nat := if hasTag d then be16 d 14 / 2 ^ 13 else 0
def frameVid (d : List Byte) : Nat := if hasTag d then be16 d 14 % 2 ^ 12 else 0

/-- The frame without its tag. -/
def untag (d : List Byte) : List Byte := if hasTag d then d.take 12 ++ d.drop 16 else d

/-- The frame with a tag. -/
def withTag (d : List Byte) (pcp vid : Nat) : List Byte := d.take 12 ++ toBe 2 0x8100 ++ toBe 2 (pcp * 2 ^ 13 + vid) ++ d.drop 12

/-- The EtherType behind a tag, if any. -/
def frameType (d : List Byte) : Nat := be16 (untag d) 12

/-! Ports. -/

/-- Does switch port `p` forward and receive (R392, R411): switch and port enabled, link up, not retired? -/
def Blk.portUp (b : Blk) (p : Nat) : Bool :=
  b.rb Reg.swCtrl 0 && b.rb Reg.swCtrl (p + 1) &&
  (if p < 4 then b.laneUp p
   else b.rb (Reg.ecfgReg (p - 4)) 0 && b.rb (Reg.estat (p - 4)) 0 && !(b.rb (Reg.estat (p - 4)) 3))

/-- The largest frame of a port, without FCS. (DEDUCED, log 77). -/
def Blk.maxFrame (b : Blk) (p : Nat) : Nat :=
  (if p < 4 then b.rf (Reg.macCfg p) 0 14 else b.rf (Reg.maxlen (p - 4)) 0 14) - 4

/-- A received frame is discarded by the MAC (R384, R411). -/
def Blk.rxBad (b : Blk) (p : Nat) : Blk :=
  (if p < 4 then b.add32 (Reg.rxErr p) 1 else (b.add32 (Reg.erxerr (p - 4)) 1).transient).pmSwitch 0x03 p 1

/-- Count a drop: 0 NOBUF, 1 QFULL, 2 GATE, 3 CPUSZ, 4 CPURING, 5 SLEEP (R411). -/
def Blk.dropped (b : Blk) (i p : Nat) : Blk := (b.add32 (Reg.swDrop i) 1).pmSwitch 0x03 p 1

/-! Egress queues. -/

/-- Cells of a frame (R393). (DEDUCED, log 77). -/
def cellsOf (d : List Byte) : Nat := (d.length + 255) / 256

/-- Cells of banks that are not faulty, outside the trace area (R393, R490). -/
def Blk.cellCap (b : Blk) : Nat :=
  let base := (b.reg Reg.trcBase).toNat
  let size := (b.reg Reg.trcSize).toNat
  1024 * ((List.range 32).filter fun k => !(b.rb Reg.pbFaulty k)).length -
    (if size = 0 then 0 else (base + size + 255) / 256 - base / 256)

/-- Egress queue `q` of port `p`. -/
def Blk.queue (b : Blk) (p q : Nat) : List QFrame := Tab.get (fun _ => []) b.sw.queues (p * 8 + q)

/-- Replace an egress queue. -/
def Blk.setQueue (b : Blk) (p q : Nat) (l : List QFrame) : Blk :=
  { b with sw := { b.sw with queues := Tab.put b.sw.queues (p * 8 + q) l } }

/-- `QLIM` in cells, 0 meaning 256 (R411). -/
def Blk.qlim (b : Blk) (p : Nat) : Nat := if b.rf (Reg.portCfg p) 16 16 = 0 then 256 else b.rf (Reg.portCfg p) 16 16

/-- The first byte of `n` bytes from `a` on in each 4 KiB granule that they touch (R232). -/
def granules (a n : Nat) : List Nat :=
  (List.range ((a + (n - 1)) / 4096 + 1 - a / 4096)).map fun i => Nat.max a ((a / 4096 + i) * 4096)

/-- What stops an access of the switch, as master 17, to the `n` bytes at `a` of the packet buffer (R231, R232, R236, R396). -/
def Blk.swCheck (b : Blk) (wr : Bool) (a n : Nat) : Option (MErr × Nat) :=
  if place a ≠ .packet ∨ place (a + (n - 1)) ≠ .packet then some (.target, a)
  else match (granules a n).find? fun x => !(b.admits 17 0 none (if wr then .store else .load) x) with
    | some x => some (.region, x)
    | none =>
      match b.badWord wr a n (n / 16 + 2) with
      | some w => some (.ecc, w)
      | none => none

/-- An access of the switch that was stopped is recorded (R234, R236). (DEDUCED, log 136). -/
def Blk.swDeny (b : Blk) (wr : Bool) (e : MErr × Nat) : Blk := b.mRefused 17 wr e

/-- The switch reads `n` bytes at `a`: what was stopped is recorded, a corrected error noted (R235). -/
def Blk.swRead (b : Blk) (a n : Nat) : Blk :=
  match b.swCheck false a n with
  | some e => b.swDeny false e
  | none => b.mNotes a n (n / 16 + 2)

/-- The switch writes bytes at `a`, or is stopped. -/
def Blk.swWrite (b : Blk) (a : Nat) (d : List Byte) : Blk :=
  match b.swCheck true a d.length with
  | some e => b.swDeny true e
  | none => b.writeMem none false a d (d.length / 16 + 2)

/-- The stamp of a received frame: the counter as its SFD came, which is not after the present moment (R53, R385). (DEDUCED, log 144). -/
def Blk.rxStamp (b : Blk) (ts : BitVec 64) : BitVec 64 := if ts ≤ b.tb.cnt then ts else b.tb.cnt

/-- A transmit descriptor at packet-buffer offset `a`, posted on queue `q`, is done (R396). -/
def Blk.descDone (b : Blk) (a q : Nat) : Blk :=
  let d := 0x10000000 + a
  (b.swWrite (d + 6) [b.byte (d + 6) ||| 0x80]).event 0x078 (8 + q)

/-- The same for the descriptor a queued frame came from, coded as eight times its address plus its queue. -/
def Blk.doneOf (b : Blk) (x : Option Nat) : Blk :=
  match x with
  | some v => b.descDone (v / 8) (v % 8)
  | none => b

/-- A frame joins an egress queue, or is dropped (R393, R394). -/
def Blk.enqFrame (b : Blk) (p q : Nat) (f : QFrame) : Blk :=
  let n := cellsOf f.data
  let used := (b.queue p q).foldl (fun a x => a + cellsOf x.data) 0
  if b.cellCap < b.sw.cells + n then (b.dropped 0 p).doneOf f.desc
  else if b.qlim p < used + n then (b.dropped 1 p).doneOf f.desc
  else { b with sw := { b.sw with cells := b.sw.cells + n } }.setQueue p q (b.queue p q ++ [f])

/-! Filtering database and VLAN table (R394). An entry of the database holds MAC in [47:0], VID in [59:48], the port mask in
[84:64], STATIC in [126] and VALID in [127]; the spec names the fields and not their places. -/

/-- (DESIGN CHOICE, log 74). -/
def fdbMac (e : BitVec 128) : Nat := e.toNat % 2 ^ 48
/-- (DESIGN CHOICE, log 74). -/
def fdbVid (e : BitVec 128) : Nat := e.toNat / 2 ^ 48 % 2 ^ 12
/-- (DESIGN CHOICE, log 74). -/
def fdbMask (e : BitVec 128) : Nat := e.toNat / 2 ^ 64 % 2 ^ 21
def fdbStatic (e : BitVec 128) : Bool := e.getLsbD 126
def fdbValid (e : BitVec 128) : Bool := e.getLsbD 127

/-- A learned entry. -/
def fdbLearned (mac vid port : Nat) : BitVec 128 :=
  BitVec.ofNat 128 (mac + vid * 2 ^ 48 + 2 ^ port * 2 ^ 64 + 2 ^ 127)

/-- The entry of (MAC, VID), with its index. -/
def Blk.fdbFind (b : Blk) (mac vid : Nat) : Option (Nat × BitVec 128) :=
  b.sw.fdb.find? fun x => fdbValid x.2 && decide (fdbMac x.2 = mac) && decide (fdbVid x.2 = vid)

/-- The lowest index that holds no valid entry; `k` bounds the search. -/
def fdbFree (t : Tab (BitVec 128)) : Nat → Nat → Option Nat
  | 0, _ => none
  | k + 1, i => if fdbValid (Tab.get (fun _ => 0) t i) then fdbFree t k (i + 1) else if i < 8192 then some i else none

/-- Write an entry of the database. -/
def Blk.fdbPut (b : Blk) (i : Nat) (e : BitVec 128) : Blk :=
  { b with sw := { b.sw with fdb := Tab.set (fun _ => 0) b.sw.fdb i e } }

/-- Learn a source address (R394). (DEDUCED, log 78). -/
def Blk.learn (b : Blk) (mac vid port : Nat) : Blk :=
  if mac / 2 ^ 40 % 2 = 1 then b
  else match b.fdbFind mac vid with
    | some (i, e) => if fdbStatic e then b else b.fdbPut i (fdbLearned mac vid port)
    | none => match fdbFree b.sw.fdb (b.sw.fdb.length + 1) 0 with
      | some i => b.fdbPut i (fdbLearned mac vid port)
      | none => b

/-- Members and untag mask of a VID. -/
def Blk.vlanOf (b : Blk) (vid : Nat) : Nat × Nat :=
  let e := Tab.get (fun _ => (0 : BitVec 64)) b.sw.vlan vid
  (e.toNat % 2 ^ 21, e.toNat / 2 ^ 32 % 2 ^ 21)

/-- The ports a frame goes to (R394): a database match within the VID's members, or all of them but the ingress port; and whether
it floods. (DEDUCED, log 75). -/
def Blk.fwdPorts (b : Blk) (inp vid da : Nat) : Nat × Bool :=
  let m := (b.vlanOf vid).1
  let z := match b.fdbFind da vid with
    | some (_, e) => (fdbMask e &&& m, false)
    | none => (m, true)
  (if z.1.testBit inp then z.1 - 2 ^ inp else z.1, z.2)

/-- Put a frame (without tag) into the egress queues of the ports of `mask` (R394). -/
def Blk.egress (b : Blk) (mask pcp vid : Nat) (d : List Byte) (cls : Option Nat) (desc : Option Nat) : Blk :=
  ((List.range 20).filter fun p => mask.testBit p && b.portUp p).foldl (fun b p =>
    let out := if ((b.vlanOf vid).2).testBit p then d else withTag d pcp vid
    b.enqFrame p (cls.getD (Config.pcpQueue p pcp % 8)) { data := out, desc := desc }) b

/-! The CPU port's receive side (R396). -/

/-- A frame goes to CPU receive queue `q` (R396). (DEDUCED, log 76). -/
def Blk.cpuRx (b : Blk) (q p pcp : Nat) (sec : Bool) (d : List Byte) (ts : BitVec 64) : Blk :=
  let n := 8 * b.rf (Reg.cpuRing q) 24 8
  let head := b.rf (Reg.cpuRxht q) 0 16
  let a := 0x10000000 + b.rf (Reg.cpuRing q) 4 19 * 16 + 16 * head
  if 2 ^ (b.rf Reg.cpuBufsz 0 4 + 8) < d.length then b.dropped 3 p
  else if n = 0 ∨ (head + 1) % Nat.max 1 n = b.rf (Reg.cpuRxht q) 16 16 then b.dropped 4 p
  else
    let buf := 0x10000000 + leNat (b.bytes a 4) % 2 ^ 23
    let fill := toLe 2 d.length ++ toLe 1 (p + 128) ++ toLe 1 (pcp + 8 * bit sec) ++ toLe 8 ts.toNat
    match b.swCheck false a 16 with
    | some e => b.swDeny false e
    | none =>
    match (b.swCheck true (a + 4) 12).orElse fun _ => b.swCheck true buf d.length with
    | some e => b.swDeny true e
    | none =>
      let b := ((b.swRead a 16).swWrite buf d).swWrite (a + 4) fill
      (b.setF (Reg.cpuRxht q) 0 16 ((head + 1) % n)).event 0x078 q

/-- The receive queue of a PCP (R411). -/
def Blk.cpuQueue (b : Blk) (pcp : Nat) : Nat := b.rf Reg.cpuQmap (4 * pcp) 4 % 8

/-! Streams (R400). -/

def strmType (e : BitVec 128) : Nat := e.toNat / 2 ^ 60 % 4
def strmMaxSdu (e : BitVec 128) : Nat := e.toNat / 2 ^ 62 % 2 ^ 14
def strmCb (e : BitVec 128) : Nat := e.toNat / 2 ^ 91 % 4
def strmHist (e : BitVec 128) : Nat := e.toNat / 2 ^ 93 % 32 + 1

/-- The stream that a frame belongs to. -/
def Blk.strmFind (b : Blk) (d : List Byte) (vid : Nat) : Option (Nat × BitVec 128) :=
  b.sw.strm.find? fun x =>
    (decide (strmType x.2 = 1) && decide (x.2.toNat % 2 ^ 48 = frameDa d) ||
     decide (strmType x.2 = 2) && decide (x.2.toNat % 2 ^ 48 = frameSa d)) && decide (x.2.toNat / 2 ^ 48 % 2 ^ 12 = vid)

/-- The sequence number of an R-TAG (EtherType 0xF1C1) behind the addresses. -/
def rtagSeq (d : List Byte) : Option Nat := if be16 d 12 = 0xF1C1 then some (be16 d 16) else none

/-- The vector recovery algorithm: does sequence number `s` pass, and the state after it? (DEDUCED, log 84). -/
def recovTake (r : Recov) (hist s : Nat) : Bool × Recov :=
  if !r.on then (true, ⟨true, s, 1⟩)
  else
    let fwd := (s + 2 ^ 16 - r.seq) % 2 ^ 16
    let back := (r.seq + 2 ^ 16 - s) % 2 ^ 16
    if fwd ≠ 0 ∧ fwd < hist then (true, ⟨true, s, (r.hist * 2 ^ fwd + 1) % 2 ^ hist⟩)
    else if back < hist then (if r.hist.testBit back then (false, r) else (true, { r with hist := r.hist + 2 ^ back }))
    else (false, r)

/-- Stream filtering, gating, metering and recovery of a received frame (R398, R400): does it pass? The states of the gates and
the meters stand in no register, so a free value decides for a stream that uses one. (DESIGN CHOICE, log 79). (DEDUCED, log 77). -/
def Blk.strmPass (b : Blk) (p : Nat) (d : List Byte) (vid : Nat) : Bool × Blk :=
  match b.strmFind d vid with
  | none => (true, b)
  | some (i, e) =>
    let big := decide (strmMaxSdu e ≠ 0) && decide (strmMaxSdu e < d.length - 14)
    let gated := e.getLsbD 82 || e.getLsbD 90
    let shut := gated && b.freeVal.getLsbD 0
    let b := if gated then b.freeNext else b
    if big || shut then (false, b)
    else if 2 ≤ strmCb e then
      match rtagSeq d with
      | none => (true, b)
      | some s =>
        let z := recovTake (Tab.get (fun _ => {}) b.sw.recov i) (strmHist e) s
        let b := { b with sw := { b.sw with recov := Tab.put b.sw.recov i z.2 } }
        (z.1, if z.1 then b else b.pmSwitch 0x06 p 1)
    else (true, b)

/-- A frame that the CPU port transmits on a generating stream takes the next sequence number (R400). (DEDUCED, log 84). -/
def Blk.strmGen (b : Blk) (d : List Byte) (vid : Nat) : List Byte × Blk :=
  match b.strmFind d vid with
  | some (i, e) =>
    if strmCb e = 1 ∨ strmCb e = 3 then
      let s := Tab.get (fun _ => 0) b.sw.gen i
      (d.take 12 ++ toBe 2 0xF1C1 ++ toBe 2 0 ++ toBe 2 s ++ d.drop 12,
        { b with sw := { b.sw with gen := Tab.set (fun _ => 0) b.sw.gen i ((s + 1) % 2 ^ 16) } })
    else (d, b)
  | none => (d, b)

/-! Gate control (R399). -/

/-- Port `p`'s gate control. -/
def Blk.gate (b : Blk) (p : Nat) : Gate := Tab.get (fun _ => {}) b.sw.gates p

/-- The address of entry `i` of a gate list in the packet buffer. -/
def Blk.gateAddr (b : Blk) (p : Nat) (listB : Bool) (i : Nat) : Nat :=
  0x10000000 + b.rf Reg.gclBase 16 7 * 2 ^ 16 + p * 0x1000 + (if listB then 0x800 else 0) + 8 * i

/-- Entry `i` of a gate list; where the switch may not read it, what the gates then do is not the spec's and a free value. (DEDUCED, log 136). -/
def Blk.gateEntry (b : Blk) (p : Nat) (listB : Bool) (i : Nat) : Nat :=
  if (b.swCheck false (b.gateAddr p listB i) 8).isNone then leNat (b.bytes (b.gateAddr p listB i) 8) else b.freeVal.toNat % 2 ^ 64

/-- Replace a port's gate control, whose current entry is read and begins; `GSTAT` follows (R411). -/
def Blk.setGate (b : Blk) (p : Nat) (x : Gate) : Blk :=
  let x := { x with since := b.tb.cnt.toNat }
  let b := if x.on then b.swRead (b.gateAddr p x.listB x.idx) 8 else b
  let b := { b with sw := { b.sw with gates := Tab.put b.sw.gates p x } }
  b.setReg (Reg.gclStat p) (BitVec.ofNat 32
    ((if x.on then b.gateEntry p x.listB x.idx % 256 else 0) + 256 * bit x.listB + 512 * bit x.swap.isSome))

/-- Is class `q` preemptable on port `p` (R398, R411)? -/
def Blk.preemptable (b : Blk) (p q : Nat) : Bool := decide (p < 4) && b.rb Reg.preempt (4 * p) && b.rb Reg.preempt (16 + q)

/-- Is queue `q`'s gate open on port `p` (R399)? A port without gate control is open; HOLD holds preemptable traffic. -/
def Blk.gateOpen (b : Blk) (p q : Nat) : Bool :=
  let e := b.gateEntry p (b.gate p).listB (b.gate p).idx
  !(b.gate p).on || (e.testBit q && !(e.testBit 8 && b.preemptable p q))

/-- A new list takes over. -/
def gateTake (x : Gate) (s : Bool × Nat × Nat × Nat) : Gate :=
  { x with on := true, listB := s.1, len := s.2.1, cycle := s.2.2.1, base := s.2.2.2, idx := 0, swap := none }

/-- `OPERp` is written with SWAP = 1: at once on a port not gated, else pending (R399, R410). -/
def Blk.gateOper (b : Blk) (p : Nat) (v : Word) : Blk :=
  if !(tbit v 31) then b
  else
    let s := (tbit v 0, fld v 1 8 + 1, (b.reg (Reg.cycle p)).toNat,
      (b.reg (Reg.baseLo p)).toNat + (b.reg (Reg.baseHi p)).toNat * 2 ^ 32)
    let x := b.gate p
    if x.on then
      { b with sw := { b.sw with gates := Tab.put b.sw.gates p { x with swap := some s } } }.setBit (Reg.gclStat p) 9
    else b.setGate p (gateTake x s)

/-- The interval of the current entry expires (R399). -/
def Blk.gateNext (b : Blk) (p : Nat) : Blk :=
  let x := b.gate p
  if x.on then b.setGate p { x with idx := if x.idx + 1 < x.len then x.idx + 1 else 0 } else b

/-- The first start of the old cycle at or after the time `t` (R399). -/
def Gate.startFrom (x : Gate) (t : Nat) : Nat :=
  if t ≤ x.base then x.base else x.base + (t - x.base + x.cycle - 1) / Nat.max 1 x.cycle * x.cycle

/-- The pending list takes over at the first cycle start at or after its base time that falls on the old cycle's grid (R399). -/
def Blk.gateSwap (b : Blk) (p : Nat) : Blk :=
  let x := b.gate p
  match x.swap with
  | some s => if x.startFrom s.2.2.2 ≤ b.tb.cnt.toNat then b.setGate p (gateTake x s) else b
  | none => b

/-- The rate of a port in Mbit/s (R368, R403). -/
def Blk.portRate (b : Blk) (p : Nat) : Nat :=
  if p < 4 then 100000
  else match b.rf (Reg.ecfgReg (p - 4)) 1 2, b.rf (Reg.ecfgReg (p - 4)) 3 2 with
    | 0, 0 => 10
    | 0, _ => 100
    | 1, _ => 1000
    | _, 0 => 2500
    | _, 1 => 5000
    | _, _ => 10000

/-- The longest run of entries that hold queue `q` open, in ns; `k` entries from `i` on, `run` the run so far. -/
def Blk.openRun (b : Blk) (p q : Nat) (listB : Bool) (len : Nat) : Nat → Nat → Nat → Nat → Nat
  | 0, _, _, best => best
  | k + 1, i, run, best =>
    let e := b.gateEntry p listB (i % Nat.max 1 len)
    let run := if e.testBit q then run + e / 2 ^ 32 else 0
    b.openRun p q listB len k (i + 1) run (Nat.max best run)

/-- Does a frame of `n` bytes end on port `p` within `t` ns: preamble, bytes and FCS (R384)? -/
def Blk.endsIn (b : Blk) (p n t : Nat) : Bool := decide ((n + 12) * 8 * 1000 ≤ t * b.portRate p)

/-- Can the frame never end before its gate closes (R399)? -/
def Blk.neverFits (b : Blk) (p q : Nat) (d : List Byte) : Bool :=
  let x := b.gate p
  x.on && !((List.range x.len).all fun i => (b.gateEntry p x.listB i).testBit q) &&
  !(b.endsIn p d.length (b.openRun p q x.listB x.len (2 * x.len) 0 0 0))

/-- How long queue `q` stays open from the start of the present entry on, in ns; `k` entries from `i` on, `sum` so far. -/
def Blk.openFor' (b : Blk) (p q : Nat) (x : Gate) : Nat → Nat → Nat → Nat
  | 0, _, sum => sum
  | k + 1, i, sum =>
    let e := b.gateEntry p x.listB (i % Nat.max 1 x.len)
    if e.testBit q then b.openFor' p q x k (i + 1) (sum + e / 2 ^ 32) else sum

/-- Does the frame end before its gate closes, or does the gate never close (R399)? -/
def Blk.fitsNow (b : Blk) (p q : Nat) (d : List Byte) : Bool :=
  let x := b.gate p
  !x.on || ((List.range x.len).all fun i => (b.gateEntry p x.listB i).testBit q) ||
  b.endsIn p d.length (b.openFor' p q x x.len x.idx 0 - (b.tb.cnt.toNat - x.since))

/-! Sending (R394, R396). -/

/-- The first frame of queue `q` of port `p` starts, stamped with the counter (R53, R385, R394). (DEDUCED, log 144). -/
def Blk.transmit (b : Blk) (p q : Nat) : Blk :=
  if !(b.portUp p) || decide (b.sys.base = 7) || decide (b.sys.base = 0xA) || decide (b.sys.base < 2) || !(b.gateOpen p q) ||
      (List.range 8).any (fun j => decide (q < j) && b.gateOpen p j && !(b.queue p j).isEmpty) then b
  else match b.queue p q with
    | [] => b
    | f :: rest =>
      let free := fun (b : Blk) => ({ b with sw := { b.sw with cells := b.sw.cells - cellsOf f.data } }.setQueue p q rest)
      if b.neverFits p q f.data then ((free b).dropped 2 p).doneOf f.desc
      else if !(b.fitsNow p q f.data) then b
      else match b.secTx (secyOf p) f.data with
        | (none, b) => b
        | (some d, b) =>
          let b := ((free b).emit (.frame p d b.tb.cnt)).pmSwitch 0x02 p 1
          let b := if p < 4 then b.add32 (Reg.txFrames p) 1 else b
          match f.desc with
          | none => b
          | some v =>
            let a := 0x10000000 + v / 8
            let b := if (b.byte (a + 7)).getLsbD 3 then b.swWrite (a + 8) (toLe 8 b.tb.cnt.toNat) else b
            b.descDone (v / 8) (v % 8)

/-- One transmit descriptor of queue `q` at ring index `i` is taken (R396, R397). -/
def Blk.txDesc (b : Blk) (q i : Nat) : Blk :=
  let a := b.rf (Reg.cpuTxring q) 4 19 * 16 + 16 * i
  let at' := 0x10000000 + a
  let buf := 0x10000000 + leNat (b.bytes at' 4) % 2 ^ 23
  let len := leNat (b.bytes (at' + 4) 2)
  let m := b.byte (at' + 6)
  let cls := (b.byte (at' + 7)).toNat % 8
  match (b.swCheck false at' 16).orElse fun _ => b.swCheck false buf len with
  | some e => b.swDeny false e
  | none =>
    let b := (b.swRead at' 16).swRead buf len
    let d := b.bytes buf len
    let port := m.toNat % 32
    let code := some (a * 8 + q)
    let vid := if frameVid d = 0 then b.rf (Reg.portCfg 20) 0 12 else frameVid d
    if m.getLsbD 5 then
      let z := b.strmGen (untag d) vid
      if port < 20 then z.2.enqFrame port cls { data := if hasTag d then d.take 16 ++ z.1.drop 12 else z.1, desc := code }
      else b.descDone a q
    else if port = 20 ∧ q = b.rf Reg.doipCtrl 4 3 then (b.emit (.doip 0x8001 d)).descDone a q
    else
      let z := b.strmGen (untag d) vid
      let pr := z.2.fwdPorts 20 vid (frameDa d)
      let b := z.2.egress pr.1 (framePcp d) vid z.1 (some cls) code
      if pr.1 % 2 ^ 20 = 0 then b.descDone a q else b

/-- A post of transmit queue `q` up to `tail` is performed (R397). -/
def Blk.txPost (b : Blk) (q tail : Nat) : Blk :=
  let n := Nat.max 1 (8 * b.rf (Reg.cpuTxring q) 24 8)
  let kept := Tab.get (fun _ => 0) b.sw.tails q
  let k := (tail + n - kept % n) % n
  let b := { b with sw := { b.sw with tails := Tab.set (fun _ => 0) b.sw.tails q (tail % n) } }
  (List.range k).foldl (fun b i => b.txDesc q ((kept + i) % n)) b

/-- The number of frames a post would hand over (R397). -/
def Blk.txCount (b : Blk) (q tail : Nat) : Nat :=
  let n := Nat.max 1 (8 * b.rf (Reg.cpuTxring q) 24 8)
  (tail + n - Tab.get (fun _ => 0) b.sw.tails q % n) % n

/-- A post that a follower withholds (R356): the kept tail moves, and the sequence numbers of generating streams with it, so that the numbers
after a takeover are the primary's (R363, R400). (DEDUCED, log 156). -/
def Blk.txSkip (b : Blk) (q tail : Nat) : Blk :=
  let n := Nat.max 1 (8 * b.rf (Reg.cpuTxring q) 24 8)
  let kept := Tab.get (fun _ => 0) b.sw.tails q
  let k := (tail + n - kept % n) % n
  let b := { b with sw := { b.sw with tails := Tab.set (fun _ => 0) b.sw.tails q (tail % n) } }
  (List.range k).foldl (fun b i =>
    let at' := 0x10000000 + b.rf (Reg.cpuTxring q) 4 19 * 16 + 16 * ((kept + i) % n)
    let d := b.bytes (0x10000000 + leNat (b.bytes at' 4) % 2 ^ 23) (leNat (b.bytes (at' + 4) 2))
    (b.strmGen (untag d) (if frameVid d = 0 then b.rf (Reg.portCfg 20) 0 12 else frameVid d)).2) b

/-! Services. -/

/-- The time-sync service writes the rate and the slew while its port state is slave (R53, R402); the servo is not the spec's, so
the values are free. (DESIGN CHOICE, log 81). -/
def Blk.asServo (b : Blk) : Blk :=
  let r := (b.freeVal.setWidth 32 : Word).toInt
  let b := b.freeNext
  let b := b.setReg Reg.rateAdj (BitVec.ofInt 32 (if 2147483 < r then 2147483 else if r < -2147483 then -2147483 else r))
  let o := (b.freeVal.setWidth 20 : BitVec 20).toInt
  let b := b.freeNext
  let s := b.tb.slew + o * 2 ^ 32
  if s.natAbs ≤ 1000000 * 2 ^ 32 then { b with tb := { b.tb with slew := s } } else b.flt 0x005 0

/-- A gPTP frame reaches the service (R402): the port state, which the BMCA or the external configuration decides, is free. A follower keeps
the state and writes nothing (R356, R402). (DESIGN CHOICE, log 81). -/
def Blk.asFrame (b : Blk) (p : Nat) : Blk :=
  if b.rb Reg.asCfg 0 && b.rb Reg.asCfg (3 + p) then
    let sl := b.freeVal.getLsbD 0
    let mute := decide (b.sys.base = 7)
    let b := { b.freeNext with sw := { b.sw with slave := sl, gm := b.rb Reg.asCfg 1 && !sl } }
    if sl && !mute then b.asServo else b
  else b

/-- Sync as grandmaster (R402). (DEDUCED, log 105). -/
def Blk.asSync (b : Blk) (p : Nat) : Blk :=
  if b.rb Reg.asCfg 0 && b.rb Reg.asCfg 1 && b.rb Reg.asCfg (3 + p) && !b.sw.slave && decide (b.sys.base ≠ 7) && b.portUp p then
    { b with sw := { b.sw with gm := true } }.emit (.sync p b.tb.cnt (b.rf (if p < 4 then Reg.phyTxPs p else Reg.ephyTxPs (p - 4)) 0 20))
  else b

/-- Is the frame for the DoIP service (R395)? IPv4 or IPv6 to its address on port 13400, or an ARP or neighbour request. -/
def Blk.forDoip (b : Blk) (d : List Byte) : Bool :=
  let u := untag d
  let ip4 := (b.reg Reg.doipIp4).toNat
  let ip6 := (b.reg (Reg.doipIp6 0)).toNat * 2 ^ 96 + (b.reg (Reg.doipIp6 1)).toNat * 2 ^ 64 +
    (b.reg (Reg.doipIp6 2)).toNat * 2 ^ 32 + (b.reg (Reg.doipIp6 3)).toNat
  let p4 := (u.drop 23).headD 0
  let p6 := (u.drop 20).headD 0
  b.rb Reg.doipCtrl 0 &&
  ((decide (be16 u 12 = 0x0806) && decide (beNat ((u.drop 38).take 4) = ip4)) ||
   (decide (be16 u 12 = 0x0800) && decide (beNat ((u.drop 30).take 4) = ip4) && (decide (p4 = 17) || decide (p4 = 6)) &&
    decide (be16 u 36 = 13400)) ||
   (decide (be16 u 12 = 0x86DD) && decide (beNat ((u.drop 38).take 16) = ip6) && (decide (p6 = 17) || decide (p6 = 6)) &&
    decide (be16 u 56 = 13400)) ||
   (decide (be16 u 12 = 0x86DD) && decide (p6 = 58) && decide ((u.drop 54).headD 0 = 135) &&
    decide (beNat ((u.drop 62).take 16) = ip6)))

/-- The DoIP payload of a frame to the service: where the UDP or TCP payload begins, by protocol. -/
def doipPayload (u : List Byte) : List Byte :=
  if be16 u 12 = 0x0800 then (if (u.drop 23).headD 0 = 17 then u.drop 42 else u.drop (34 + ((u.drop 46).headD 0).toNat / 16 * 4))
  else if be16 u 12 = 0x86DD then
    (if (u.drop 20).headD 0 = 17 then u.drop 62 else u.drop (54 + ((u.drop 66).headD 0).toNat / 16 * 4))
  else []

/-- The service's answer to a frame (R409). (DESIGN CHOICE, log 82). -/
def Blk.doipRx (b : Blk) (p : Nat) (d : List Byte) (ts : BitVec 64) : Blk :=
  let m := doipPayload (untag d)
  let t := be16 m 2
  if be16 (untag d) 12 = 0x0806 ∨ m.isEmpty = true then b.emit (.doip 0 [])
  else if 1 ≤ t ∧ t ≤ 3 then b.emit (.doip 4 [])
  else if t = 0x4001 then b.emit (.doip 0x4002 [])
  else if t = 0x4003 then b.emit (.doip 0x4004 (toLe 1 (b.rf Reg.doipPm 0 8)))
  else if t = 5 then b.emit (.doip (if (m.drop 10).headD 2 = 0 ∨ (m.drop 10).headD 2 = 1 then 6 else 0) (m.drop 8))
  else if t = 7 then b.emit (.doip 8 [])
  else if t = 0x8001 then
    let user := (m.drop 8).take (beNat ((m.drop 4).take 4))
    if 4100 < user.length then b.emit (.doip 0x8003 (user.take 4))
    else (b.cpuRx (b.rf Reg.doipCtrl 4 3) p 0 false user ts).emit (.doip 0x8002 (user.take 4))
  else b

/-- A vehicle announcement goes out (R409). (DESIGN CHOICE, log 82). -/
def Blk.doipAnnounce (b : Blk) : Blk :=
  if 0 < b.sw.ann ∧ b.rb Reg.doipCtrl 0 = true then
    { b with sw := { b.sw with ann := b.sw.ann - 1 } }.emit (.doip 4 [])
  else b

/-! Reception (R395). -/

/-- The fabric's node prefix in a destination address (R405). -/
def Blk.fabPrefix (b : Blk) : Nat := (b.reg Reg.fabPfxLo).toNat + (b.reg Reg.fabPfxHi).toNat % 2 ^ 16 * 2 ^ 32

/-- Is the frame a Talloth frame for this node (R395)? -/
def Blk.forFabric (b : Blk) (d : List Byte) : Bool :=
  b.rb Reg.fabCfg 16 && decide (frameType d = b.rf Reg.fabCfg 0 16) && decide (frameDa d / 2 ^ 9 = b.fabPrefix / 2 ^ 9) &&
  decide (frameDa d % 2 ^ 9 = b.rf Reg.nodeId 0 9)

/-- Does a Talloth frame reach the fabric unit with the right version and destination (R405, R407)? A wrong one is discarded, a wrong
destination counted. -/
def Blk.fabArrive (b : Blk) (d : List Byte) : Option (List Byte) × Blk :=
  let h := (untag d).drop 14
  if h.headD 0 ≠ 1 then (none, b)
  else if be16 h 4 % 2 ^ 9 ≠ b.rf Reg.nodeId 0 9 then (none, b.add32 Reg.fabMisdir 1)
  else (some h, b)

/-- The rest of the classification of a good frame received on port `p`, and its forwarding (R394, R395). (DEDUCED, log 78). -/
def Blk.classify (b : Blk) (p : Nat) (d : List Byte) (sec : Bool) (ts : BitVec 64) : Blk :=
  let vid := if frameVid d = 0 then b.rf (Reg.portCfg p) 0 12 else frameVid d
  let pcp := framePcp d
  if b.forDoip d then b.doipRx p d ts
  else if b.rb (Reg.portCfg p) 12 && !(hasTag d) then b.pmSwitch 0x03 p 1
  else match b.strmPass p (untag d) vid with
    | (false, b) => b.pmSwitch 0x03 p 1
    | (true, b) =>
      let b := b.learn (frameSa d) vid p
      if frameDa d = (b.reg Reg.cpuMacLo).toNat + (b.reg Reg.cpuMacHi).toNat % 2 ^ 16 * 2 ^ 32 then
        b.cpuRx (b.cpuQueue pcp) p pcp sec d ts
      else
        let z := b.fwdPorts p vid (frameDa d)
        let b := if z.1.testBit 20 then b.cpuRx (b.cpuQueue pcp) p pcp sec d ts else b
        let b := if z.1 % 2 ^ 20 = 0 then b else b.add32 (Reg.swDrop (if z.2 then 7 else 6)) 1
        b.egress z.1 pcp vid (untag d) none none

/-- A frame is received on port `p` (R384, R395, R410); `err` where an error block or the FCS spoils it. With it, the Talloth part of a frame
for the fabric unit. A follower counts, and hands gPTP frames to the time-sync service, whose state it keeps (R402). -/
def Blk.receive (b : Blk) (p : Nat) (ts : BitVec 64) (err : Bool) (d : List Byte) : Option (List Byte) × Blk :=
  if !(b.portUp p) || decide (b.sys.base = 0xA) || decide (b.sys.base < 2) || decide (20 ≤ p) || b.rb Reg.pwrStat 8 then (none, b)
  else if err || decide (d.length < 60) || decide (b.maxFrame p < d.length) then (none, b.rxBad p)
  else if frameType d = 0x8808 then (none, if p < 4 then b.add32 (Reg.rxDrop p) 1 else b)
  else
    let b := (if p < 4 then b.add32 (Reg.rxFrames p) 1 else b).pmSwitch 0x01 p 1
    match b.secRx (secyOf p) d with
    | (none, b) => (none, b.pmSwitch 0x03 p 1)
    | (some (c, sec), b) =>
      if frameType c = 0x88F7 then (none, b.asFrame p)
      else if b.sys.base = 7 then (none, b)
      else if b.forFabric c then b.fabArrive c
      else (none, b.classify p c sec (b.rxStamp ts))

/-! Windows (R411): the entry of an index. -/

/-- Four data registers as one value, lowest word first. -/
def Blk.win4 (b : Blk) (r : Nat → Nat) : BitVec 128 :=
  BitVec.ofNat 128 ((b.reg (r 0)).toNat + (b.reg (r 1)).toNat * 2 ^ 32 + (b.reg (r 2)).toNat * 2 ^ 64 +
    (b.reg (r 3)).toNat * 2 ^ 96)

/-- Show a value in four data registers. -/
def Blk.setWin4 (b : Blk) (r : Nat → Nat) (v : BitVec 128) : Blk :=
  (((b.setReg (r 0) (v.setWidth 32)).setReg (r 1) ((v >>> 32).setWidth 32)).setReg (r 2) ((v >>> 64).setWidth 32)).setReg
    (r 3) ((v >>> 96).setWidth 32)

/-- The learned entries go: a flush, or a takeover, after which the database is learned anew (R410, R411). -/
def Blk.fdbRelearn (b : Blk) : Blk := { b with sw := { b.sw with fdb := b.sw.fdb.filter fun x => fdbStatic x.2 } }

/-- `FDB_CMD` (R411). -/
def Blk.fdbCmd (b : Blk) (v : Word) : Blk :=
  let i := fld v 3 13
  let b := if tbit v 0 then b.setWin4 Reg.fdbD (Tab.get (fun _ => 0) b.sw.fdb i) else b
  let b := if tbit v 1 then b.fdbPut i (b.win4 Reg.fdbD) else b
  if tbit v 2 then b.fdbRelearn else b

/-- A learned entry ages out (R394). -/
def Blk.fdbAge (b : Blk) (i : Nat) : Blk :=
  let e := Tab.get (fun _ => (0 : BitVec 128)) b.sw.fdb i
  if fdbValid e && !(fdbStatic e) then b.fdbPut i 0 else b

/-- `VLAN_CMD` (R411). -/
def Blk.vlanCmd (b : Blk) (v : Word) : Blk :=
  let i := fld v 4 12
  let b := if tbit v 0 then
      let e := Tab.get (fun _ => (0 : BitVec 64)) b.sw.vlan i
      (b.setReg (Reg.vlanD 0) (e.setWidth 32)).setReg (Reg.vlanD 1) ((e >>> 32).setWidth 32)
    else b
  if tbit v 1 then
    let e := BitVec.ofNat 64 ((b.reg (Reg.vlanD 0)).toNat + (b.reg (Reg.vlanD 1)).toNat * 2 ^ 32)
    { b with sw := { b.sw with vlan := Tab.set (fun _ => 0) b.sw.vlan i e } }
  else b

/-- `STRM_CMD` (R400): IDTYPE 3 is reserved and refused. -/
def Blk.strmCmd (b : Blk) (v : Word) : Blk :=
  let i := b.rf Reg.strmIdx 0 8
  let b := if tbit v 0 then b.setWin4 Reg.strmD (Tab.get (fun _ => 0) b.sw.strm i) else b
  if tbit v 1 then
    let e := b.win4 Reg.strmD
    if strmType e = 3 then b.flt 0x079 1
    else
      let t := Tab.set (fun _ => 0) b.sw.strm i (BitVec.ofNat 128 (e.toNat % 2 ^ 114))
      { b with sw := { b.sw with strm := t, recov := Tab.del b.sw.recov i, gen := Tab.del b.sw.gen i } }
  else b

/-- `KSTAT.INUSE` of every slot follows the table of associations (R473). -/
def Blk.keyUse (b : Blk) : Blk :=
  (List.range 32).foldl (fun b s =>
    b.setF (Reg.kstat s) 2 1 (bit (b.sw.sa.any fun x => saUsed x.2 && decide (saSlot x.2 = s)))) b

/-- `SA_CMD` (R401, R411): a SecY above 21 or a channel above 4 names no item and is refused. -/
def Blk.saCmd (b : Blk) (v : Word) : Blk :=
  let i := b.rf Reg.saIdx 0 9
  if (tbit v 0 || tbit v 1) && (decide (22 ≤ i % 32) || decide (5 ≤ i / 32 % 8)) then b.flt 0x07B 1
  else
    let b := if tbit v 0 then b.setWin4 Reg.saD (Tab.get (fun _ => 0) b.sw.sa i) else b
    if tbit v 1 then { b with sw := { b.sw with sa := Tab.set (fun _ => 0) b.sw.sa i (b.win4 Reg.saD) } }.keyUse else b

/-! Edge ports. -/

/-- A change of `link` on edge port `n` (R404, R411). -/
def Blk.edgeLink (b : Blk) (n : Nat) (level : Bool) : Blk :=
  if b.rb (Reg.estat n) 0 = level then b else (b.setF (Reg.estat n) 0 1 (bit level)).event 0x07C n

/-- `irq` of edge port `n`, PHY attention (R403, R411): a rise is an event; in Off and Reset only the level is noted. (DEDUCED, log 65). -/
def Blk.edgeIrq (b : Blk) (n : Nat) (level : Bool) : Blk :=
  let rose := level && !(b.sw.irq.contains n)
  let b := { b with sw := { b.sw with irq := b.sw.irq.filter (· ≠ n) ++ (if level then [n] else []) } }
  if rose && decide (2 ≤ b.sys.base) then b.event 0x07C (16 + n) else b

/-- At boot `irq` may have been high through the reset. -/
def Blk.irqEvents (b : Blk) : Blk := b.sw.irq.foldl (fun b n => b.event 0x07C (16 + n)) b

/-- An edge port shows no clock edge for 1 ms with its link high (R404): lost and retired. -/
def Blk.edgeLost (b : Blk) (n : Nat) : Blk :=
  if b.rb (Reg.estat n) 0 && b.rb (Reg.ecfgReg n) 0 && !(b.rb (Reg.estat n) 3) then
    (((b.setBit (Reg.estat n) 1).setBit (Reg.estat n) 3).setBit Reg.retNet (16 + n)).permanent
  else b

/-- Is a pair of MODE and RATE, with PLCA, one that `ECFG` may enable (R403)? -/
def edgeLegal (v : Word) : Bool :=
  let m := fld v 1 2
  let r := fld v 3 2
  (if m = 0 then decide (r ≤ 1) else if m = 1 then decide (r = 2) else if m = 2 then decide (r ≤ 2) else false) &&
  (!(tbit v 5) || (decide (m = 0) && decide (r = 0)))

/-- A write of `ECFGn` (R403, R411). -/
def Blk.ecfgWrite (b : Blk) (n : Nat) (v : Word) : Blk :=
  let old := b.reg (Reg.ecfgReg n)
  if (tbit v 0 && !(edgeLegal v)) || (tbit old 0 && decide (fld v 1 2 ≠ fld old 1 2)) then b.flt 0x07C 0
  else (b.setReg (Reg.ecfgReg n) v).setF (Reg.estat n) 2 1 (bit (tbit v 0 && tbit v 5))

/-- Sleep entry empties the switch (R410). -/
def Blk.swSleep (b : Blk) : Blk :=
  let n := b.sw.queues.foldl (fun a x => a + x.2.length) 0
  { b.add32 (Reg.swDrop 5) n with sw := { b.sw with queues := [], cells := 0 } }

end Sys2Proof.Machine
end

