-- ==== Sys2Proof/Machine/FabricOps.lean ====
section
/-! DEFINITION. The Talloth fabric (R405 to R408): frames, the link to each peer, operations at the target and at the requester.
What a completion means to a mover channel is the last step, `Blk.fabFor` of a later file. -/
namespace Sys2Proof.Machine

/-- A completion for a mover channel: channel, number of its transfer, status, data. -/
abbrev FabRes := List (Nat × Nat × Nat × List Byte)

/-! The link to a peer. -/

/-- The link to node `n`. -/
def Blk.peer (b : Blk) (n : Nat) : Peer := Tab.get (fun _ => {}) b.fab.peers n

/-- Replace the link to node `n`. -/
def Blk.setPeer (b : Blk) (n : Nat) (x : Peer) : Blk := { b with fab := { b.fab with peers := Tab.put b.fab.peers n x } }

/-- This node's number. -/
def Blk.node (b : Blk) : Nat := b.rf Reg.nodeId 0 9

/-- The bytes of a Talloth frame to `dst`, without FCS, padded to 60 bytes (R405). -/
def Blk.fabFrame (b : Blk) (dst seq ack : Nat) (start : Bool) (m : TalMsg) : List Byte :=
  let base := b.fabPrefix / 2 ^ 9 * 2 ^ 9
  let d := toBe 6 (base + dst) ++ toBe 6 (base + b.node) ++ toBe 2 (b.rf Reg.fabCfg 0 16) ++
    toBe 1 1 ++ toBe 1 m.op ++ toBe 2 (b.node + 512 * bit start) ++ toBe 2 dst ++ toBe 4 seq ++ toBe 4 ack ++ toBe 2 m.tag ++
    toBe 5 m.addr ++ toBe 1 m.ws ++ toBe 2 m.len ++ m.payload
  d ++ List.replicate (60 - d.length) 0

/-- The acknowledgement number for a peer: the last number received in order. -/
def ackOf (x : Peer) : Nat := (x.rxNext + 2 ^ 32 - 1) % 2 ^ 32

/-- Hand a frame for `dst` to the switch, which forwards it as it forwards the CPU port's frames (R394). (DEDUCED, log 92). -/
def Blk.fabEmit (b : Blk) (dst seq : Nat) (m : TalMsg) : Blk :=
  if b.rb Reg.fabCfg 16 then
    let x := b.peer dst
    let d := b.fabFrame dst seq (ackOf x) (!x.acked) m
    let vid := b.rf (Reg.portCfg 20) 0 12
    (b.setPeer dst { x with ackDue := false }).egress (b.fwdPorts 20 vid (frameDa d)).1 0 vid d none none
  else b

/-- A frame without content: 0xF0 an ACK, 0xF1 a NAK (R406). -/
def fabBare (op : Nat) : TalMsg := ⟨op, 0, 0, 0, 0, []⟩

/-- Send a request or response frame; beyond 64 unacknowledged ones it waits (R407). -/
def Blk.fabSend (b : Blk) (dst : Nat) (m : TalMsg) : Blk :=
  let x := b.peer dst
  if x.unack.length < 64 then
    (b.setPeer dst { x with unack := x.unack ++ [(x.txNext, m)], txNext := (x.txNext + 1) % 2 ^ 32 }).fabEmit dst x.txNext m
  else b.setPeer dst { x with wait := x.wait ++ [m] }

/-- Send the frames that wait, as far as there is room; `k` bounds them. -/
def Blk.fabFill (b : Blk) (dst : Nat) : Nat → Blk
  | 0 => b
  | k + 1 =>
    let x := b.peer dst
    match x.wait with
    | [] => b
    | m :: t => if x.unack.length < 64 then ((b.setPeer dst { x with wait := t }).fabSend dst m).fabFill dst k else b

/-- An acknowledgement from a peer (R407): frames at or below it are done; progress starts the resends anew. `first` where any
acknowledgement counts as the peer's first. -/
def Blk.fabAcked (b : Blk) (src ack : Nat) (first : Bool) : Blk :=
  let x := b.peer src
  let left := x.unack.filter fun f => !(atOrBelow f.1 ack)
  let moved := decide (left.length < x.unack.length)
  (b.setPeer src { x with unack := left, acked := x.acked || first || moved
                          resend := if moved then 0 else x.resend }).fabFill src 64

/-- A frame with START ends PEER_DOWN (R407). (DEDUCED, log 88). -/
def Blk.fabStart (b : Blk) (src : Nat) (start : Bool) : Blk :=
  if start && (b.peer src).down then b.setPeer src { b.peer src with down := false } else b

/-- Send every unacknowledged frame again (R407). -/
def Blk.fabResend (b : Blk) (dst : Nat) : Blk :=
  (b.peer dst).unack.foldl (fun b f => (b.fabEmit dst f.1 f.2).add32 Reg.fabRetx 1) b

/-- The link part of a received request or response (R407): is it the next one, to be performed? -/
def Blk.fabLink (b : Blk) (src : Nat) (h : TalFrame) : Bool × Blk :=
  let b := b.fabStart src h.start
  let b := if h.start && decide (h.seq = 1) then b.setPeer src { b.peer src with rxNext := 1 } else b
  let b := b.fabAcked src h.ack.toNat false
  let x := b.peer src
  if h.seq.toNat = x.rxNext then (true, b.setPeer src { x with rxNext := (x.rxNext + 1) % 2 ^ 32, ackDue := true })
  else if atOrBelow h.seq.toNat (ackOf x) then (false, b.setPeer src { x with ackDue := true })
  else (false, b.fabEmit src 0 (fabBare 0xF1))

/-! Operations. -/

/-- The order of the bytes of a value of the width code: most significant first on the wire (R405). (DEDUCED, log 87). -/
def talForm (ws : Nat) (l : List Byte) : List Byte :=
  if (ws % 16 = 2 ∧ l.length = 4) ∨ (ws % 16 = 3 ∧ l.length = 8) then l.reverse else l

/-- The status code of a refusal (R406). -/
def talStatus : MErr → Nat
  | .form => 5
  | .region => 1
  | .target => 2
  | .bankOff => 3
  | .ecc => 4

/-- The new value of an atomic, and whether it is written (R116, R406). -/
def talAtomic (op w old x y : Nat) : Option Nat :=
  if op = 3 then (if old = x then some y else none) else if op = 4 then some x else some ((old + x) % 2 ^ (8 * w))

/-- An atomic at local address `a` of width `w` bytes by master `mst` (R406): status and old value. -/
def Blk.fabAtomic (b : Blk) (mst : Nat) (own : Option Nat) (pl : Nat) (m : TalMsg) : Blk × Nat × List Byte :=
  let w := if m.ws % 16 = 2 then 4 else 8
  let a := m.addr
  if (m.ws % 16 ≠ 2 ∧ m.ws % 16 ≠ 3) ∨ a % w ≠ 0 then (b, 2, [])
  else match b.mCheck mst own .atomic a w pl with
    | some e => (b.mRefused mst true e, talStatus e.1, [])
    | none =>
      let b := b.mNotes a w 2
      let old := b.memNat a w
      let b := match talAtomic m.op w old (beNat (m.payload.take w)) (beNat ((m.payload.drop w).take w)) with
        | some v => b.writeMem own false a (toLe w v) 2
        | none => b
      (b, 0, toBe w old)

/-- Perform an operation at this node as master `mst` (R35, R406): its status and response data, or none where a job of the memory
port has been started for `who`. -/
def Blk.fabDo (b : Blk) (mst : Nat) (own : Option Nat) (pl sender : Nat) (m : TalMsg) (who : JobWho) :
    Blk × Option (Nat × List Byte) :=
  let a := m.addr
  if m.op = 1 then
    match b.mCheck mst own .load a m.len pl with
    | some e => (b.mRefused mst false e, some (talStatus e.1, []))
    | none =>
      if place a = .ext then (b.jobStart mst who false a m.len [], none)
      else
        let b := b.mNotes a m.len 66
        (b, some (0, talForm m.ws (b.mRead a m.len)))
  else if m.op = 2 then
    let l := talForm m.ws m.payload
    match b.mCheck mst own .store a l.length pl with
    | some e => (b.mRefused mst true e, some (talStatus e.1, []))
    | none =>
      if place a = .ext then (b.jobStart mst who true a l.length l, none)
      else (b.writeMem own false a l 66, some (0, []))
  else if m.op = 6 then
    if b.fab.db.length < 16 then
      ({ b with fab := { b.fab with db := b.fab.db ++ [(BitVec.ofNat 32 (beNat (m.payload.take 4)), sender)] } }.event 0x07A 0,
        some (0, []))
    else (b, some (6, []))
  else
    let z := b.fabAtomic mst own pl m
    (z.1, some z.2)

/-- The response code of an operation (R406). -/
def respOp (op : Nat) : Nat := if op = 1 then 0x81 else if op = 2 ∨ op = 6 then 0x82 else 0x83

/-- Answer a received operation. -/
def Blk.fabReply (b : Blk) (src : Nat) (m : TalMsg) (status : Nat) (data : List Byte) : Blk :=
  b.fabSend src { op := respOp m.op, tag := m.tag, addr := m.addr, ws := m.ws % 16 + 16 * status, len := data.length, payload := data }

/-- May the fabric unit take part: enabled, in a mode in which the switch hands frames on (R410)? (DEDUCED, log 92). -/
def Blk.fabOn (b : Blk) : Bool :=
  b.rb Reg.fabCfg 16 && b.rb Reg.swCtrl 0 && decide (2 ≤ b.sys.base) && decide (b.sys.base ≠ 0xA) && decide (b.sys.base ≠ 7)

/-- A request frame arrives from node `src` and is performed in order as master 19 (R406, R407). -/
def Blk.fabRequest (b : Blk) (op src : Nat) (h : TalFrame) : Blk :=
  if !b.fabOn then b
  else
    let z := b.fabLink src h
    if !z.1 then z.2
    else
      let m : TalMsg := ⟨op, h.tag.toNat, h.addr.toNat, h.width.toNat, h.len, h.payload⟩
      match z.2.fabDo 19 none 0 src m (.fabric src m) with
      | (b, some (st, d)) => b.fabReply src m st d
      | (b, none) => b

/-! At the requester. -/

/-- An engine slot's operation ends (R408). -/
def Blk.fabEnd (b : Blk) (e op ws status : Nat) (data : List Byte) : Blk :=
  let b := (b.setReg (Reg.opStat e) (BitVec.ofNat 32 (16 * status))).event 0x07A (2 + e)
  if status = 0 ∧ op ≠ 2 ∧ op ≠ 6 then
    let v := leNat (talForm ws data)
    (b.setReg (Reg.opRes e 0) (BitVec.ofNat 32 v)).setReg (Reg.opRes e 1) (BitVec.ofNat 32 (v / 2 ^ 32))
  else b

/-- An operation of a slot or of a channel ends with a status. (DEDUCED, log 93). -/
def Blk.fabFinish (b : Blk) (o : FabOp) (status : Nat) (data : List Byte) : Blk × FabRes :=
  let b := { b with fab := { b.fab with ops := b.fab.ops.filter fun x => !(x == o) } }
  let b := if status = 7 then b.add32 Reg.fabTimeout 1 else b
  match o.who with
  | .slot e => (b.fabEnd e o.op o.ws status data, [])
  | .mover ch id => (b, [(ch, id, status, data)])

/-- A response frame arrives (R406, R407, R410): a late one is discarded and counted. -/
def Blk.fabResponse (b : Blk) (op src : Nat) (h : TalFrame) : Blk × FabRes :=
  if !b.fabOn then (b, [])
  else
    let z := b.fabLink src h
    if !z.1 then (z.2, [])
    else match z.2.fab.ops.find? fun o => o.tag == h.tag.toNat && o.node == src && respOp o.op == op with
      | some o => z.2.fabFinish o h.status.toNat h.payload
      | none => (z.2.add32 Reg.fabLate 1, [])

/-- An ACK frame arrives (R407). -/
def Blk.fabAck (b : Blk) (src ack : Nat) (start : Bool) : Blk :=
  if b.fabOn then (b.fabStart src start).fabAcked src ack true else b

/-- Resends left to a peer (R407). -/
def Blk.fabMayResend (b : Blk) (n : Nat) : Bool := decide ((b.peer n).resend < b.rf Reg.fabRtoReg 24 4)

/-- Count a resend and make it. (DEDUCED, log 89). -/
def Blk.fabAgain (b : Blk) (n : Nat) : Blk :=
  (b.setPeer n { b.peer n with resend := (b.peer n).resend + 1 }).fabResend n

/-- A NAK arrives (R407). (DEDUCED, log 89). -/
def Blk.fabNak (b : Blk) (src ack : Nat) : Blk :=
  if b.fabOn then
    let b := b.fabAcked src ack true
    if b.fabMayResend src then b.fabAgain src else b
  else b

/-- A peer is given up (R407): every outstanding operation to it ends with TIMEOUT, PEER_DOWN is set, and the link starts again. (DEDUCED, log 88). -/
def Blk.fabDown (b : Blk) (n : Nat) : Blk × FabRes :=
  let b := (b.setPeer n { rxNext := (b.peer n).rxNext, down := true }).event 0x07A 1
  (b.fab.ops.filter fun o => o.node == n).foldl (fun z o =>
    let y := z.1.fabFinish o 7 []
    (y.1, z.2 ++ y.2)) (b, [])

/-- A frame to peer `n` stays unacknowledged for `FAB_RTO` (R407). -/
def Blk.fabRto (b : Blk) (n : Nat) : Blk × FabRes :=
  if (b.peer n).unack.isEmpty then (b, [])
  else if b.fabMayResend n then (b.fabAgain n, [])
  else b.fabDown n

/-- The acknowledgement owed to a peer goes out by itself (R407). -/
def Blk.fabAckSend (b : Blk) (n : Nat) : Blk := if (b.peer n).ackDue then b.fabEmit n 0 (fabBare 0xF0) else b

/-- Bytes of operand `j` of a slot, in the order of the wire, for a width code 2 or 3 (R408). -/
def Blk.opBytes (b : Blk) (e j ws : Nat) : List Byte :=
  let lo := (b.reg (Reg.opArg e (2 * j))).toNat
  let hi := (b.reg (Reg.opArg e (2 * j + 1))).toNat
  if ws = 2 then toBe 4 lo else toBe 8 (lo + hi * 2 ^ 32)

/-- The 16 operand bytes of a slot from byte 0 of `OP_ARG0_LO` on. -/
def Blk.opAll (b : Blk) (e : Nat) : List Byte :=
  toLe 4 (b.reg (Reg.opArg e 0)).toNat ++ toLe 4 (b.reg (Reg.opArg e 1)).toNat ++ toLe 4 (b.reg (Reg.opArg e 2)).toNat ++
    toLe 4 (b.reg (Reg.opArg e 3)).toNat

/-- The operation that a write of `v` to `OP_CMDe` names; none where it is refused (R408). -/
def Blk.opMsg (b : Blk) (e : Nat) (v : Word) : Option TalMsg :=
  let op := fld v 0 8
  let w := fld v 8 4
  let n := fld v 16 4 + 1
  let a := (b.reg (Reg.opAddrLo e)).toNat + (b.reg (Reg.opAddrHi e)).toNat % 2 ^ 8 * 2 ^ 32
  let wide := if w = 2 then 4 else 8
  if op = 6 then some ⟨6, e, a, 2, 4, b.opBytes e 0 2⟩
  else if w ≠ 0 ∧ w ≠ 2 ∧ w ≠ 3 then none
  else if op = 1 then
    if w = 0 then (if n ≤ 8 then some ⟨1, e, a, 0, n, []⟩ else none) else some ⟨1, e, a, w, wide, []⟩
  else if op = 2 then
    if w = 0 then some ⟨2, e, a, 0, n, (b.opAll e).take n⟩ else some ⟨2, e, a, w, wide, b.opBytes e 0 w⟩
  else if w = 0 then none
  else if op = 3 then some ⟨3, e, a, w, 2 * wide, b.opBytes e 0 w ++ b.opBytes e 1 w⟩
  else if op = 4 ∨ op = 5 then some ⟨op, e, a, w, wide, b.opBytes e 0 w⟩
  else none

/-- The global address of a slot. -/
def Blk.opGlobal (b : Blk) (e : Nat) : Nat := (b.reg (Reg.opAddrLo e)).toNat + (b.reg (Reg.opAddrHi e)).toNat * 2 ^ 32

/-- Perform an operation of slot `e` (R33, R35, R407, R408). -/
def Blk.fabSlot (b : Blk) (e : Nat) (m : TalMsg) : Blk :=
  let g := b.opGlobal e
  let n := g / 2 ^ 55
  let l := b.lead e
  if g / 2 ^ 40 % 2 ^ 15 ≠ 0 then b.fabEnd e m.op m.ws 5 []
  else if n = b.node then
    match b.fabDo e (some (l / 2)) (b.pl l) n m (.slot e m) with
    | (b, some (st, d)) => b.fabEnd e m.op m.ws st d
    | (b, none) => b.setReg (Reg.opStat e) 1
  else if (b.peer n).down then (b.add32 Reg.fabTimeout 1).fabEnd e m.op m.ws 7 []
  else
    ({ b with fab := { b.fab with ops := b.fab.ops ++ [FabOp.mk e n m.op m.ws (.slot e)] } }.setReg (Reg.opStat e) 1).fabSend n m

/-- A write of `v` to `OP_CMDe` is performed (R408); with no sequenced output allowed it is discarded (R14, R339). (DESIGN CHOICE, log 85). -/
def Blk.fabIssue (b : Blk) (e : Nat) (v : Word) : Blk :=
  if !b.seqOpen then b.seqDrop
  else if b.rb (Reg.opStat e) 0 then b.flt 0x07A 0
  else match b.opMsg e v with
    | none => b.flt 0x07A 2
    | some m => b.fabSlot e m

/-- The tag of a mover channel's operation. (DESIGN CHOICE, log 85). -/
def chTag (ch : Nat) : Nat := 0x40 + ch

/-- A mover channel asks for a transfer with another node (R288, R293); a peer that is down answers at once. -/
def Blk.fabMover (b : Blk) (ch id n : Nat) (write : Bool) (a len : Nat) (data : List Byte) : Blk × FabRes :=
  let op := if write then 2 else 1
  if (b.peer n).down then (b.add32 Reg.fabTimeout 1, [(ch, id, 7, [])])
  else
    ({ b with fab := { b.fab with ops := b.fab.ops ++ [FabOp.mk (chTag ch) n op 0 (.mover ch id)] } }.fabSend n
      ⟨op, chTag ch, a, 0, len, data⟩, [])

/-- The oldest doorbell is read (R411). -/
def Blk.dbTake (b : Blk) : Blk := { b with fab := { b.fab with db := b.fab.db.drop 1 } }

/-- The Talloth part of a frame as its receiver takes it (R405). -/
def talParse (h : List Byte) : TalFrame :=
  let at' := fun i n => beNat ((h.drop i).take n)
  { seq := BitVec.ofNat 32 (at' 6 4), ack := BitVec.ofNat 32 (at' 10 4), start := (at' 2 2).testBit 9, tag := BitVec.ofNat 16 (at' 14 2)
    addr := BitVec.ofNat 40 (at' 16 5), width := BitVec.ofNat 4 (at' 21 1), status := BitVec.ofNat 4 (at' 21 1 / 16), len := at' 22 2
    payload := (h.drop 24).take (if at' 1 1 = 1 then 0 else at' 22 2) }

/-- A Talloth frame that the switch hands to the fabric unit is acted on (R395, R406, R407). -/
def Blk.fabFrameIn (b : Blk) (h : List Byte) : Blk × FabRes :=
  let f := talParse h
  let op := beNat ((h.drop 1).take 1)
  let src := beNat ((h.drop 2).take 2) % 2 ^ 9
  if 1 ≤ op ∧ op ≤ 6 then (b.fabRequest op src f, [])
  else if 0x81 ≤ op ∧ op ≤ 0x83 then b.fabResponse op src f
  else if op = 0xF0 then (b.fabAck src f.ack.toNat f.start, [])
  else if op = 0xF1 then (b.fabNak src f.ack.toNat, [])
  else (b, [])

/-- `DB_STAT` and `PEER_STAT` as they read (R411). -/
def Blk.dbStatWord (b : Blk) : Word :=
  BitVec.ofNat 32 (b.fab.db.length + (match b.fab.db with
    | [] => 0
    | x :: _ => x.2 * 2 ^ 16))
def Blk.peerStatWord (b : Blk) : Word :=
  let x := b.peer (b.rf Reg.peerIdx 0 9)
  BitVec.ofNat 32 (bit x.down + 2 * x.unack.length)

/-- PEER_DOWN of a node is cleared by firmware (R411). (DEDUCED, log 63). -/
def Blk.peerClear (b : Blk) (n : Nat) : Blk := b.setPeer n { b.peer n with down := false }

end Sys2Proof.Machine
end

