-- ==== Sys2Proof/Machine/MoverOps.lean ====
section
/-! DEFINITION. The block mover (R284 to R312): channel states, descriptors, bursts, events, chains, halts and bus errors. -/
namespace Sys2Proof.Machine

/-! Channels. -/

/-- Mover channel `n`'s own record. -/
def Blk.ch (b : Blk) (n : Nat) : Chan := Tab.get (fun _ => {}) b.chans n

/-- Replace mover channel `n`'s record; `CHSTAT.STAGED` follows the staging buffer. -/
def Blk.setCh (b : Blk) (n : Nat) (x : Chan) : Blk :=
  { b with chans := Tab.put b.chans n x }.setF (Reg.chStat n) 4 1 (bit (!x.buf.isEmpty))

/-- The MOVER page of a channel. -/
def chPage (n : Nat) : Nat := 0x050 + n / 16

/-- `CHSTAT.STATE`. -/
def Blk.chState (b : Blk) (n : Nat) : Nat := b.rf (Reg.chStat n) 0 3
abbrev chIdle : Nat := 0
abbrev chRunning : Nat := 1
abbrev chEnded : Nat := 2
abbrev chHalted : Nat := 3
abbrev chPaused : Nat := 4
abbrev chRetired : Nat := 5

/-- A channel leaves its path, if it holds one (R291, R311). -/
def Blk.chLeave (b : Blk) (n : Nat) : Blk :=
  if b.paths.held.contains n then
    { b with paths := { b.paths with held := b.paths.held.filter (· ≠ n) } }.clrBit (Reg.chStat n) 5
  else b

/-- A channel's state changes; `CH_RUN`, `CH_HALT` and `CH_RET` follow (R307). Only a channel in RUN holds a path. -/
def Blk.chGo (b : Blk) (n st : Nat) : Blk :=
  let b := if st = chRunning then b else b.chLeave n
  let b := b.setF (Reg.chStat n) 0 3 st
  let b := b.setF (Reg.chRun (n / 16)) (n % 16) 1 (bit (decide (st = chRunning)))
  let b := b.setF (Reg.chHalt (n / 16)) (n % 16) 1 (bit (decide (st = chHalted)))
  b.setF (Reg.chRet (n / 16)) (n % 16) 1 (bit (decide (st = chRetired)))

/-- A fault of the page, with its channel (R307): 0 CFG_REFUSED, 1 PRIV_REFUSED, 2 RETIRED, 3 SEV_REFUSED. -/
def Blk.chFault (b : Blk) (n i : Nat) : Blk := (b.flt (chPage n) i).setF (regKey (chPage n) Reg.hFaultInfo) 0 6 n

/-- The pair in Twin that owns a channel (R306). -/
def Blk.chOwner (b : Blk) (n : Nat) : Option Nat :=
  if b.rb (Reg.ccfg n) 8 && b.twin (b.rf (Reg.ccfg n) 4 4 / 2) then some (b.rf (Reg.ccfg n) 4 4 / 2) else none

/-- The flag that a channel's events set (R296). -/
def Blk.chSev (b : Blk) (n : Nat) : Blk :=
  if b.rb (Reg.ccfg n) 26 then
    if b.sevRefused (b.rf (Reg.ccfg n) 22 4) then b.chFault n 3
    else b.extFlag (b.rf (Reg.ccfg n) 22 4) (b.rf (Reg.ccfg n) 16 6)
  else b

/-- A HALF (8) or FULL (9) event (R295). -/
def Blk.chEvent (b : Blk) (n i : Nat) : Blk := ((b.setBit (Reg.chStat n) i).event (chPage n) (n % 16)).chSev n

/-- The failing address, in the descriptor's form (R300). -/
def Blk.chErrAddr (b : Blk) (n a : Nat) : Blk :=
  (b.setReg (Reg.errAddrLo n) (BitVec.ofNat 32 a)).setReg (Reg.errAddrHi n) (BitVec.ofNat 32 (a / 2 ^ 32))

/-- A channel halts with a code (R300), or is retired (R301). (DEDUCED, log 94). -/
def Blk.chStop (b : Blk) (n st code a : Nat) : Blk :=
  (((((b.chGo n st).setF (Reg.chStat n) 16 4 code).chErrAddr n a).setBit (Reg.chStat n) 10).event (chPage n) (16 + n % 16)).chSev n
    |>.pmMover 0x07 n

/-- A channel halts. (DEDUCED, log 96). -/
def Blk.chHaltAt (b : Blk) (n code a : Nat) : Blk := b.chStop n chHalted code a

/-- The code of a refusal (R300). -/
def haltCode : MErr → Nat
  | .form => 1
  | .region => 2
  | .target => 3
  | .bankOff => 4
  | .ecc => 5

/-! The pattern (R287, R288). -/

/-- One side of a burst. -/
structure Side where
  glob   : Bool
  base   : Nat
  stride : Int
  deriving DecidableEq, Repr

/-- The two sides of a channel's descriptor. -/
def srcSide (c : Chan) : Side := ⟨tbit c.flags 2, c.src, c.sstr⟩
def dstSide (c : Chan) : Side := ⟨tbit c.flags 3, c.dst, c.dstr⟩

/-- The local part of the address of byte (x, y), not yet confined to 40 bits. -/
def Side.loc (s : Side) (x y : Nat) : Int := (s.base % 2 ^ 40 : Nat) + (y : Int) * s.stride + x

/-- Is the address of a byte well formed (R33, R288)? -/
def Side.ok (s : Side) (x y : Nat) : Bool :=
  (if s.glob then decide (s.base / 2 ^ 40 % 2 ^ 15 = 0) else decide (s.base / 2 ^ 40 = 0)) &&
  decide (0 ≤ s.loc x y) && decide (s.loc x y < 2 ^ 40)

/-- The address of a byte in the descriptor's form. -/
def Side.addr (s : Side) (x y : Nat) : Nat := s.base / 2 ^ 40 * 2 ^ 40 + (s.loc x y % 2 ^ 40).toNat

/-- The local address of a byte. -/
def Side.at (s : Side) (x y : Nat) : Nat := (s.loc x y % 2 ^ 40).toNat

/-- The node of a side that lies at another node (R35). -/
def Blk.sideNode (b : Blk) (s : Side) : Option Nat :=
  if s.glob && decide (s.base / 2 ^ 55 ≠ b.node) then some (s.base / 2 ^ 55) else none

/-- Position of the next byte to write (R308). -/
def Blk.chX (b : Blk) (n : Nat) : Nat := b.rf (Reg.posReg n) 0 16
def Blk.chY (b : Blk) (n : Nat) : Nat := b.rf (Reg.posReg n) 16 16

/-- The bytes from the position to the end of its burst (R290). -/
def Blk.burstLen (b : Blk) (n : Nat) : Nat :=
  let c := b.ch n
  let x := b.chX n
  let y := b.chY n
  Nat.min (c.xcnt - x) (Nat.min (64 - (srcSide c).at x y % 64) (64 - (dstSide c).at x y % 64))

/-- The address in `DESC`. -/
def Blk.descAt (b : Blk) (n : Nat) : Nat := b.rf (Reg.desc n) 4 21 * 16

/-- The scratchpad banks that the local bytes at `a` touch. -/
def banksOf (a n : Nat) : List Nat :=
  if unalias a < 0x1800000 then [unalias a / 0x40000, unalias (a + n - 1) / 0x40000] else []

/-- Is a side of the burst local memory of the block, apart from the external window? -/
def Blk.sideLocal (b : Blk) (s : Side) (x y : Nat) : Bool := (b.sideNode s).isNone && decide (place (s.at x y) ≠ .ext)

/-! Eligibility and paths (R284, R291 to R293, R303 to R305). -/

/-- May the mover start a burst or a transfer: not in Sleep, Off or Reset, nor once Sleep is granted (R304)? -/
def Blk.moverOn (b : Blk) : Bool := decide (2 ≤ b.sys.base) && decide (b.sys.base ≠ 0xA) && !(b.rb Reg.pwrStat 8)

/-- Does the power-down of a bank that `len` bytes at `a` touch wait for bursts in flight (R303)? -/
def Blk.bankLeaves (b : Blk) (a len : Nat) : Bool :=
  (banksOf a len).any fun k => match (b.bank k).going with
    | some v => decide (v ≠ 0) && !(b.bank k).begun
    | none => false

/-- May a read of descriptor words start (R290, R303, R304)? -/
def Blk.descFree (b : Blk) (a len : Nat) : Bool := b.moverOn && !(b.bankLeaves a len)

/-- Does the write of the burst leave the block, or belong to the outputs of a pair that is withheld (R305, R317)? -/
def Blk.chBarred (b : Blk) (n : Nat) : Bool :=
  let d := dstSide (b.ch n)
  let own := match b.chOwner n with
    | some p => b.recovering p || b.broken p || b.retired p
    | none => false
  d.ok (b.chX n) (b.chY n) &&
  (if b.sideLocal d (b.chX n) (b.chY n) then own && decide (place (d.at (b.chX n) (b.chY n)) = .packet) else own || !b.seqOpen)

/-- The transfers of channel `n` whose answers are outstanding, those of an earlier run included (R293, R302). -/
def Blk.chXfers (b : Blk) (n : Nat) : List Nat :=
  (b.mp.flatMap fun x => (x.2.q ++ x.2.outst).filterMap fun r => match r.who with
    | .mover k id => if k = n then some id else none
    | _ => none) ++
  (b.fab.ops.filterMap fun o => match o.who with
    | .mover k id => if k = n then some id else none
    | _ => none) ++
  (b.pairs.flatMap fun x => x.2.q.filterMap fun o => match o.act with
    | .chan k id _ _ => if k = n then some id else none
    | .chanRemote k id _ _ => if k = n then some id else none
    | _ => none)

/-- Can the channel's next beat start (R293, R303 to R305)? A burst in flight goes on to its end while Sleep entry waits for it.
(DEDUCED, log 148). -/
def Blk.chReady (b : Blk) (n : Nat) : Bool :=
  let c := b.ch n
  let x := b.chX n
  let y := b.chY n
  let waits := fun (s : Side) => b.sideLocal s x y && b.bankLeaves (s.at x y) (b.burstLen n)
  decide (b.chState n = chRunning) &&
  (match c.phase with
   | .load => b.descFree (b.descAt n) 32
   | .data => !c.outR && !c.outW && decide ((b.chXfers n).length < 4) && !(b.chBarred n) &&
       (if c.burst then decide (2 ≤ b.sys.base) && decide (b.sys.base ≠ 0xA)
        else b.moverOn && !(waits (srcSide c) || waits (dstSide c)))
   | _ => b.descFree (b.descAt n + 0x20) 4)

/-- `CCFG.PRIO`. -/
def Blk.chPrio (b : Blk) (n : Nat) : Nat := b.rf (Reg.ccfg n) 0 3

/-- The eligible channel of highest PRIO, among equals the first after the channel granted last (R291). -/
def Blk.chWinner (b : Blk) : Option Nat :=
  (((List.range 64).map fun i => (b.paths.last + 1 + i) % 64).filter fun n => !(b.paths.held.contains n) && b.chReady n).foldl
    (fun w n => match w with
      | none => some n
      | some m => if b.chPrio m < b.chPrio n then some n else some m) none

/-- A path is granted. -/
def Blk.chGrant (b : Blk) (n : Nat) : Blk := { b with paths := { held := b.paths.held ++ [n], last := n } }.setBit (Reg.chStat n) 5

/-- The decision points that have come, while `k` lasts (R291): a free path goes to the winner, and a winner of strictly higher PRIO takes
the path of a pre-emptive channel, which of several such paths comes first to a beat boundary being free. (DEDUCED, log 107). -/
def Blk.pathsDecide (b : Blk) : Nat → Blk
  | 0 => b
  | k + 1 =>
    match b.chWinner with
    | none => b
    | some w =>
      if b.paths.held.length < 4 then (b.chGrant w).pathsDecide k
      else match b.paths.held.filter fun n => decide (4 ≤ n) && decide (b.chPrio n < b.chPrio w) with
        | [] => b
        | n :: t =>
          let v := (n :: t).getD (b.freeVal.toNat % (t.length + 1)) n
          ((((b.chLeave v).freeNext).pmMover 0x04 v).chGrant w).pathsDecide k

/-- Channel `n` at its next beats: the block with the paths given, and whether the channel holds one and may go on. -/
def Blk.chTurn (b : Blk) (n : Nat) : Blk × Bool :=
  let b := (b.paths.held.filter fun k => !(b.chReady k)).foldl Blk.chLeave b
  let b := b.pathsDecide 32
  (b, b.paths.held.contains n)

/-! Descriptors and chains. -/

/-- Read `len` bytes of a descriptor as master 16 (R286), or halt. -/
def Blk.descRead (b : Blk) (n a len : Nat) : Except Blk (Blk × List Byte) :=
  match b.mCheck 16 (b.chOwner n) .load a len with
  | some e => .error ((b.mRefused 16 false e).chHaltAt n (haltCode e.1) e.2)
  | none => if place a = .scratch then .ok (b.mNotes a len 4, b.mRead a len) else .error (b.chHaltAt n 3 a)

/-- Load the descriptor at `DESC` (R285, R286). -/
def Blk.descLoad (b : Blk) (n : Nat) : Blk :=
  let c := b.ch n
  let z := b.chTurn n
  if c.phase ≠ .load ∨ z.2 = false then z.1
  else
    let b := z.1
    let a := b.descAt n
    match b.descRead n a 32 with
    | .error b => b
    | .ok (b, d) =>
      let b := b.chLeave n
      let b := (b.pmMover 0x01 n).pmMover 0x01 n
      let at' := fun i k => leNat ((d.drop i).take k)
      let cnt := at' 16 4
      let c := { c with
        src := at' 0 8, dst := at' 8 8, xcnt := cnt % 2 ^ 16, ycnt := cnt / 2 ^ 16
        sstr := (BitVec.ofNat 32 (at' 20 4)).toInt, dstr := (BitVec.ofNat 32 (at' 24 4)).toInt
        flags := BitVec.ofNat 32 (at' 28 4) }
      if c.xcnt = 0 ∨ c.ycnt = 0 ∨ c.flags.toNat / 16 ≠ 0 then b.chHaltAt n 6 a
      else (((b.setCh n { c with phase := .data }).setReg (Reg.posReg n) 0).setReg (Reg.doneReg n) 0)

/-- The outcome of a LINK word with END = 0 (R297): the next descriptor, to be loaded. -/
def Blk.linkTo (b : Blk) (n v : Nat) : Blk :=
  let b := b.setReg (Reg.desc n) (BitVec.ofNat 32 (v % 2 ^ 25 / 16 * 16))
  (b.setCh n { b.ch n with phase := .load }).chGo n chRunning

/-- The outcome of the re-read of a LINK word (R299). -/
def Blk.linkAgain (b : Blk) (n v : Nat) : Blk :=
  if v % 2 = 1 then (b.setCh n { b.ch n with phase := .link }).chGo n chEnded
  else if v / 2 ^ 25 ≠ 0 then (b.setCh n { b.ch n with phase := .relink }).chHaltAt n 6 (b.descAt n + 0x20)
  else b.linkTo n v

/-- Read the LINK word of a descriptor, or halt. -/
def Blk.linkWord (b : Blk) (n : Nat) (go : Blk → Nat → Blk) : Blk :=
  match b.descRead n (b.descAt n + 0x20) 4 with
  | .error b => b
  | .ok (b, d) => go (b.pmMover 0x01 n) (leNat d)

/-- Read the LINK word of the finished descriptor and follow it (R286, R297, R299); a doorbell in ENDED that could not be served at once is
served here. (DEDUCED, log 97). -/
def Blk.linkRead (b : Blk) (n : Nat) : Blk :=
  let c := b.ch n
  if b.chState n = chEnded ∧ c.phase = .relink then
    (if b.descFree (b.descAt n + 0x20) 4 then b.linkWord n fun b v => b.linkAgain n v else b)
  else
    let z := b.chTurn n
    if (c.phase ≠ .link ∧ c.phase ≠ .relink) ∨ z.2 = false then z.1
    else z.1.linkWord n fun b v =>
      let b := b.chLeave n
      if v % 2 = 1 ∧ c.phase = .link ∧ b.rb (Reg.chStat n) 3 = true then
        (b.clrBit (Reg.chStat n) 3).setCh n { c with phase := .relink }
      else b.linkAgain n v

/-- The `APPEND` doorbell (R299). -/
def Blk.chAppend (b : Blk) (n : Nat) : Blk :=
  let st := b.chState n
  if st = chRunning ∨ st = chPaused ∨ st = chHalted then b.setBit (Reg.chStat n) 3
  else if st = chEnded then
    let b := b.setCh n { b.ch n with phase := .relink }
    if b.descFree (b.descAt n + 0x20) 4 then b.linkWord n fun b v => b.linkAgain n v else b
  else b

/-- `CCMD` (R302, R310): 1 START, 2 STOP, 3 RESUME. (DEDUCED, log 97). -/
def Blk.chCmd (b : Blk) (n c : Nat) : Blk :=
  let st := b.chState n
  let x := b.ch n
  if c = 0 then b
  else if c = 1 ∧ (st = chIdle ∨ st = chEnded) then (b.setCh n { x with phase := .load }).chGo n chRunning
  else if c = 2 ∧ (st = chRunning ∨ st = chPaused ∨ st = chEnded ∨ st = chHalted) then
    ((b.setCh n { x with buf := [], burst := false, banks := [], outR := false, outW := false }).setF (Reg.chStat n) 6 2 0).chGo n chIdle
  else if c = 3 ∧ st = chHalted then b.chGo n chRunning
  else b.chFault n 0

/-! Bursts (R290 to R294). -/

/-- Target and region of one local side, checked at the burst's start (R289, R315). -/
def Blk.sideCheck (b : Blk) (n : Nat) (wr : Bool) (a len : Nat) : Option (MErr × Nat) :=
  let own := b.chOwner n
  let outside := fun x => match own with
    | some p => wr && decide (unalias x < 0x1800000) && !(decide (b.owner (unalias x / 0x40000) = some p))
    | none => false
  match b.mCheck 16 own (if wr then .store else .load) a len with
  | some (.bankOff, _) => if outside a then some (.region, a) else none
  | some (.ecc, _) => if outside a then some (.region, a) else none
  | some e => some e
  | none => if outside a then some (.region, a) else if outside (a + len - 1) then some (.region, a + len - 1) else none

/-- A burst starts: forms, then targets and regions of both sides; or the channel halts (R288, R289, R300). -/
def Blk.burstStart (b : Blk) (n : Nat) : Except Blk Blk :=
  let c := b.ch n
  let x := b.chX n
  let y := b.chY n
  let len := b.burstLen n
  let s := srcSide c
  let d := dstSide c
  let sl := (b.sideNode s).isNone
  let dl := (b.sideNode d).isNone
  if !(s.ok x y && s.ok (x + len - 1) y) then .error (b.chHaltAt n 1 (s.addr x y))
  else if !(d.ok x y && d.ok (x + len - 1) y) then .error (b.chHaltAt n 1 (d.addr x y))
  else
    match (if sl then b.sideCheck n false (s.at x y) len else none) with
    | some e => .error ((b.mRefused 16 false e).chHaltAt n (haltCode e.1) (s.addr x y + (e.2 - s.at x y)))
    | none =>
      match (if dl then b.sideCheck n true (d.at x y) len else none) with
      | some e => .error ((b.mRefused 16 true e).chHaltAt n (haltCode e.1) (d.addr x y + (e.2 - d.at x y)))
      | none =>
        .ok (b.setCh n { c with
          burst := true
          banks := (if sl then banksOf (s.at x y) len else []) ++ (if dl then banksOf (d.at x y) len else []) })

/-- One read beat of a local source, or the channel halts (R290, R300). -/
def Blk.readBeat (b : Blk) (n len : Nat) : Blk :=
  let c := b.ch n
  let i := c.buf.length
  let s := srcSide c
  let x := b.chX n + i
  let a := s.at x (b.chY n)
  if !(b.bank4 a) then b.chHaltAt n 4 (s.addr x (b.chY n))
  else if b.eccAt (unalias a) = 3 then (b.noteUe (unalias a)).chHaltAt n 5 (s.addr x (b.chY n))
  else
    let b := (b.eccRead (unalias a)).pmMover 0x01 n
    b.setCh n { b.ch n with buf := c.buf ++ b.mRead a (toWordEnd a (len - i)) }

/-- `m` more bytes of the burst are performed (R294, R295): position, count, events, the end of the burst and of the pattern. -/
def Blk.chAdvance (b : Blk) (n m : Nat) : Blk :=
  let c := b.ch n
  let x := b.chX n + m
  let y := b.chY n
  let old := (b.reg (Reg.doneReg n)).toNat
  let now := old + m
  let t := c.xcnt * c.ycnt
  let half := (t + 1) / 2
  let left := c.buf.drop m
  let b := b.setReg (Reg.posReg n) (BitVec.ofNat 32 (if c.xcnt ≤ x then (y + 1) * 2 ^ 16 else x + y * 2 ^ 16))
  let b := b.setReg (Reg.doneReg n) (BitVec.ofNat 32 now)
  let ended := left.isEmpty
  let b := b.setCh n { c with
    buf := left, burst := c.burst && !ended, banks := if ended then [] else c.banks
    phase := if t ≤ now then .link else .data }
  let b := if ended then ((b.setF (Reg.chStat n) 6 2 0).pmMover 0x03 n).chLeave n else b
  let b := if old < half ∧ half ≤ now ∧ tbit c.flags 0 = true then b.chEvent n 8 else b
  if t ≤ now ∧ tbit c.flags 1 = true then b.chEvent n 9 else b

/-- One write beat of `l` to local address `a`, the next staged bytes, or the channel halts (R236, R290, R300). (DEDUCED, log 95). -/
def Blk.writeBeat (b : Blk) (n a : Nat) (l : List Byte) : Blk :=
  let d := (dstSide (b.ch n)).addr (b.chX n) (b.chY n)
  let part := decide (l.length ≠ 16) || decide (unalias a ≠ a)
  if !(b.bank4 a) then b.chHaltAt n 4 d
  else if part && decide (b.eccAt (unalias a) = 3) then (b.noteUe (unalias a)).chHaltAt n 5 d
  else ((b.writeMem (b.chOwner n) true a l 2).pmMover 0x02 n).chAdvance n l.length

/-- The channel's next transfer takes a number (R293). -/
def Blk.chNumber (b : Blk) (n : Nat) : Blk :=
  { b.setCh n { b.ch n with xfer := b.jobNext } with jobNext := b.jobNext + 1 }

/-- A transfer fails with a code of R300. -/
def Blk.chFailed (b : Blk) (n code a : Nat) : Blk :=
  (b.setCh n { b.ch n with outR := false, outW := false }).chHaltAt n code a

/-- Ask for the external or remote source bytes of the burst (R293); the channel gives up its path. -/
def Blk.readOut (b : Blk) (n len : Nat) : Blk × FabRes :=
  let s := srcSide (b.ch n)
  let a := s.at (b.chX n) (b.chY n)
  let b := (b.chNumber n).chLeave n
  let c := { b.ch n with outR := true }
  match b.sideNode s with
  | some nd => (b.setCh n c).fabMover n c.xfer nd false a len []
  | none =>
    if (b.chanFor a).isNone then (b.chFailed n 3 (s.addr (b.chX n) (b.chY n)), [])
    else ((b.setCh n c).mpAsk { mst := 16, write := false, addr := a / 64 * 64, be := 0, data := List.replicate 64 0, tries := 0,
                                who := .mover n c.xfer, tag := 0 }, [])

/-- The staged bytes of the next write: a beat for a word of the block, the whole burst for another target (R290, R293). -/
def Blk.chOutBytes (b : Blk) (n : Nat) : List Byte :=
  let c := b.ch n
  let a := (dstSide c).at (b.chX n) (b.chY n)
  if b.sideLocal (dstSide c) (b.chX n) (b.chY n) then c.buf.take (toWordEnd a c.buf.length) else c.buf

/-- Hand staged bytes to a destination outside the block, or to the release logic as outputs of the pair that owns the channel (R293, R306,
R317): the channel gives up its path. (DEDUCED, log 149). (DEDUCED, log 95). -/
def Blk.writeOut (b : Blk) (n : Nat) : Blk × FabRes :=
  let d := dstSide (b.ch n)
  let a := d.at (b.chX n) (b.chY n)
  let g := d.addr (b.chX n) (b.chY n)
  let l := b.chOutBytes n
  let b := (b.chNumber n).chLeave n
  let c := { b.ch n with outW := true }
  match b.chOwner n with
  | some p =>
    let spc := (b.pair p).spc
    let b := b.setCh n c
    (match b.sideNode d with
     | some _ => b.enqueue p { cls := .fabric, act := .chanRemote n c.xfer g l, tgt := g, spc := spc
                               data := 2 :: 0 :: toBe 2 l.length ++ l }
     | none => b.enqueue p { cls := if place a = .ext then .external else .shared, act := .chan n c.xfer a l, tgt := a / 16 * 16
                             spc := spc, data := maskBytes a l.length ++ l }, [])
  | none =>
    match b.sideNode d with
    | some nd => (b.setCh n c).fabMover n c.xfer nd true a l.length l
    | none => if (b.chanFor a).isNone then (b.chFailed n 3 g, []) else ((b.setCh n c).mpStore 16 (.mover n c.xfer) a l 2, [])

/-- Is the next write beat performed at once: local, and no Shared output of a pair (R317)? -/
def Blk.writesHere (b : Blk) (n : Nat) : Bool :=
  let d := dstSide (b.ch n)
  b.sideLocal d (b.chX n) (b.chY n) && !((b.chOwner n).isSome && decide (place (d.at (b.chX n) (b.chY n)) = .packet))

/-- At most `k` beats of the burst in flight (R290 to R294): its read beats, then its write beats, up to its end, a halt, or a transfer. -/
def Blk.chBeats (b : Blk) (n : Nat) : Nat → Blk × FabRes
  | 0 => (b, [])
  | k + 1 =>
    let c := b.ch n
    let x := b.chX n
    let y := b.chY n
    let len := b.burstLen n
    if !(c.burst && decide (b.chState n = chRunning)) then (b, [])
    else if c.buf.length < len then
      (if b.sideLocal (srcSide c) x y then (b.readBeat n len).chBeats n k else b.readOut n len)
    else if b.writesHere n then (b.writeBeat n ((dstSide c).at x y) (b.chOutBytes n)).chBeats n k
    else b.writeOut n

/-- A path carries up to `k` beats of a burst of channel `n` (R290 to R294), once the channel holds one. (DEDUCED, log 107). -/
def Blk.moverBurst (b : Blk) (n k : Nat) : Blk × FabRes :=
  let z := b.chTurn n
  if z.2 = false ∨ (b.ch n).phase ≠ .data then (z.1, [])
  else
    match (if (z.1.ch n).burst then .ok z.1 else z.1.burstStart n) with
    | .error b => (b, [])
    | .ok b => b.chBeats n k

/-! Outcomes of outstanding transfers. -/

/-- A bus error of the burst (R301): performed again from its first beat, still in flight (R303), or the channel retires at the third. -/
def Blk.chBusError (b : Blk) (n a : Nat) : Blk :=
  let r := b.rf (Reg.chStat n) 6 2
  let b := (b.transient.pmMover 0x06 n).setCh n { b.ch n with buf := [], outR := false, outW := false }
  if 2 ≤ r then ((((b.setCh n { b.ch n with burst := false, banks := [] }).chFault n 2).chStop n chRetired 7 a).permanent)
  else b.setF (Reg.chStat n) 6 2 (r + 1)

/-- The read data of the burst arrive. -/
def Blk.chGot (b : Blk) (n : Nat) (l : List Byte) : Blk := b.setCh n { b.ch n with buf := l, outR := false }

/-- A write of `m` staged bytes is performed, if the channel still waits for the transfer `id` (R302). -/
def Blk.chWrote (b : Blk) (n id m : Nat) : Blk :=
  let c := b.ch n
  if c.outW && decide (c.xfer = id) then (b.setCh n { c with outW := false }).chAdvance n m else b

/-- The address that an outstanding transfer of channel `n` concerns. -/
def Blk.chOutAddr (b : Blk) (n : Nat) : Nat :=
  let c := b.ch n
  (if c.outR then srcSide c else dstSide c).addr (b.chX n) (b.chY n)

/-- Does the channel wait for the transfer `id`? The answer of a stopped or rolled-back channel's transfer is discarded (R302). -/
def Blk.chWaits (b : Blk) (n id : Nat) : Bool := ((b.ch n).outR || (b.ch n).outW) && decide ((b.ch n).xfer = id)

/-- The memory port's answer to a channel (R293, R301, R416). -/
def Blk.chPort (b : Blk) (n id unit : Nat) (r : MpRes) : Blk :=
  if !(b.chWaits n id) then b
  else
    let a := b.chOutAddr n
    match r with
    | .data l => b.chGot n ((l.drop (a % 2 ^ 40 - unit)).take (b.burstLen n))
    | .wrote => b.chWrote n id (b.ch n).buf.length
    | .bus => b.chBusError n a
    | .lost => b.chFailed n 3 a
    | .dataErr => b.chFailed n 5 a

/-- The halt code of a remote status (R300, R406). (DEDUCED, log 91). -/
def remoteCode (st : Nat) : Nat :=
  if st = 1 then 2 else if st = 2 then 3 else if st = 3 then 4 else if st = 4 then 5 else 1

/-- The fabric unit's answer to a channel (R293, R301, R407). -/
def Blk.chFabric (b : Blk) (n id st : Nat) (l : List Byte) : Blk :=
  if !(b.chWaits n id) then b
  else
    let a := b.chOutAddr n
    if st = 0 then (if (b.ch n).outR then b.chGot n (l.take (b.burstLen n)) else b.chWrote n id (b.ch n).buf.length)
    else if 6 ≤ st then b.chBusError n a
    else b.chFailed n (remoteCode st) a

/-- Every completion that the fabric unit reports to channels. -/
def Blk.fabFor (z : Blk × FabRes) : Blk := z.2.foldl (fun b r => b.chFabric r.1 r.2.1 r.2.2.1 r.2.2.2) z.1

/-- A frame is received on a switch port, and the fabric unit acts on what is its own (R395). -/
def Blk.frameIn (b : Blk) (p : Nat) (ts : BitVec 64) (err : Bool) (d : List Byte) : Blk :=
  match b.receive p ts err d with
  | (some h, b) => Blk.fabFor (b.fabFrameIn h)
  | (none, b) => b

/-- Is every burst and transfer of the mover over (R304)? -/
def Blk.moverQuiet (b : Blk) : Bool :=
  (b.chans.all fun x => !x.2.burst && !x.2.outR && !x.2.outW) && (List.range 64).all fun n => (b.chXfers n).isEmpty

end Sys2Proof.Machine
end

