-- ==== Sys2Proof/Machine/SecOps.lean ====
section
/-! DEFINITION. Reset, fuses, lifecycle, boot and the key store (R452 to R473, R509, R510, R537, R538). The boot ROM's code is not
listed by the spec; what it does is. -/
namespace Sys2Proof.Machine

/-! Reset. -/

/-- Input levels and records that a reset does not change: external source levels, encoder inputs, PHY links, temperature alerts,
droop inputs, pins. -/
def Blk.inputsOnly (b : Blk) : Blk :=
  let x : Blk := { router := { ext := b.router.ext }, drive := { enc := b.drive.enc, lost := b.drive.lost, req := b.drive.req },
                   tb := { lost := b.tb.lost }, sec := { phase := 0, rstLow := b.sec.rstLow, porLow := b.sec.porLow, test := b.sec.test,
                                                                        progLow := b.sec.progLow },
                   pow := { code := b.pow.code, held := b.pow.held, cap := b.pow.cap, vack := b.pow.vack }
                   hst := { low := b.hst.low }, sw := { irq := b.sw.irq }, free := b.free, stamp := b.stamp, out := b.out,
                   lanes := b.lanes.filterMap fun x =>
                     if x.2.irq || x.2.sig || x.2.rxl then some (x.1, { irq := x.2.irq, sig := x.2.sig, rxl := x.2.rxl }) else none,
                   sys := { base := 1 } }
  let x := (List.range 16).foldl (fun x n => if b.rb (Reg.estat n) 0 then x.setBit (Reg.estat n) 0 else x) x
  let x := (List.range 6).foldl (fun x k => if (b.lane k).sig then x.setBit (Reg.lstat k) 3 else x) x
  let x := (x.setF Reg.pwrStat 9 2 (b.rf Reg.pwrStat 9 2)).setF Reg.pwrStat 0 3 (b.rf Reg.pwrStat 0 3)
  x

/-- The block enters Reset from source `src` of R452 (R453, R454, R501, R522). A power-on reset reaches the kept registers too; a
source that joins a reset already in force is recorded and counts as no further reset. (DEDUCED, log 135). -/
def Blk.enterReset (b : Blk) (src : Nat) : Blk :=
  let por := decide (src = 0)
  let inside := decide (b.sys.base = 1) && decide (b.sec.phase = 0)
  let old := if por then 2 * bit b.sec.rstLow else if inside then b.rf Reg.rstCause 0 8 else 0
  let x := b.inputsOnly
  let x := x.setReg Reg.rstCause (orBit (BitVec.ofNat 32 old) src)
  let x := if por then x
    else x.setReg Reg.rstCnt (BitVec.ofNat 32 (Nat.min (2 ^ 16 - 1) (b.rf Reg.rstCnt 0 16 + bit (!inside))))
  if por then { x with tap := {} } else { x.setF Reg.dbgCtrl 1 1 (b.rf Reg.dbgCtrl 1 1) with tap := b.tap }

/-- The core supply is removed (R21, R438, R452). -/
def Blk.powerOff (b : Blk) : Blk :=
  let x := b.enterReset 0
  { x with sys := { x.sys with base := 0 }, sec := { x.sec with test := false } }

/-- The supply becomes valid with `por_n` low (R21). -/
def Blk.powerOn (b : Blk) : Blk :=
  if b.sys.base = 0 then
    { b.setF Reg.rstCause 1 1 (bit b.sec.rstLow) with sys := { b.sys with base := 1 }, sec := { b.sec with porLow := true } }
  else b

/-- `por_n` changes (R452, R453); in Off only its level is noted. -/
def Blk.porPin (b : Blk) (low : Bool) : Blk :=
  let was := b.sec.porLow
  let b := { b with sec := { b.sec with porLow := low } }
  if low && !was && decide (b.sys.base ≠ 0) then b.enterReset 0 else b

/-- `rst_n` changes (R452, R453); in Off only its level is noted. -/
def Blk.rstPin (b : Blk) (low : Bool) : Blk :=
  let was := b.sec.rstLow
  let b := { b with sec := { b.sec with rstLow := low } }
  if low && !was && decide (b.sys.base ≠ 0) then b.enterReset 1 else b

/-- Release (R453, R455): fuse load and zeroing start. -/
def Blk.release (b : Blk) : Blk :=
  if b.sys.base = 1 ∧ b.sec.phase = 0 ∧ b.sec.rstLow = false ∧ b.sec.porLow = false then
    { b with sec := { b.sec with phase := 1, next := 0, shadow := [], fuseErr := false } }
  else b

/-- A fuse word read ends (R455, R456, R457). -/
def Blk.fuseRead (b : Blk) (i : Nat) (v : Word) (err : Bool) : Blk :=
  if b.sys.base = 1 ∧ b.sec.phase = 1 ∧ b.sec.next = i ∧ i < 64 then
    if err then ({ b with sec := { b.sec with next := 64, fuseErr := true } }).event 0x0A0 1
    else { b with sec := { b.sec with next := i + 1, shadow := Tab.set (fun _ => 0) b.sec.shadow i v } }
  else b

/-- The fused anti-rollback count (R458). -/
def Blk.arbFused (b : Blk) : Nat := ((List.range 32).filter fun i => tbit (b.fuse 9) i).length

/-! Mailbox 0 and the staging area (R461). -/

/-- A post of OUT buffer `k` is performed (R431): FULL, or discarded where the buffer is still full. -/
def Blk.outPost (b : Blk) (k len : Nat) : Blk :=
  if b.rb (Reg.mbOutstat k) 31 then (b.flt 0x090 1).setBit Reg.hattn 2
  else b.setReg (Reg.mbOutstat k) (BitVec.ofNat 32 (2 ^ 31 + len))

/-- The boot ROM posts a message of one or two bytes to mailbox 0. -/
def Blk.bootPost (b : Blk) (len v : Nat) : Blk :=
  if b.rb (Reg.mbOutstat 0) 31 then b.outPost 0 len else (b.setReg (Reg.outBuf 0 0) (BitVec.ofNat 32 v)).outPost 0 len

/-- The host port's access to the staging area, banks 0 to 10, is granted or removed (R461). -/
def Blk.staging (b : Blk) (on : Bool) : Blk :=
  if on then (b.setReg (Reg.regLo 18 0) 0x10000000).setReg (Reg.regHi 18 0) 0x300002BF
  else (b.setReg (Reg.regLo 18 0) 0).setReg (Reg.regHi 18 0) 0

/-- The boot ROM opens the staging area and posts READY (R461). -/
def Blk.bootReady (b : Blk) : Blk :=
  ({ b with sec := { b.sec with ready := true } }.setReg (Reg.mbCtrl 0) 3).staging true |>.bootPost 1 0x10

/-- Does the boot ROM still run on P0: not handed over, its engines not stopped (R464)? -/
def Blk.romRuns (b : Blk) : Bool :=
  decide (b.sys.base = 2) && !(b.rb Reg.bootStat 12) && !((b.eng (b.lead 0)).halted) && !((b.eng (b.lead 0)).df)

/-- Boot begins (R455, R461, R482); in test mode the block is ready for test instead (R510). Where the boot has begun and READY
stands out, the boot ROM posts it. -/
def Blk.bootBegin (b : Blk) : Blk :=
  if b.sys.base = 1 ∧ b.sec.phase = 1 ∧ b.sec.next = 64 then
    if b.sec.test then { b with sec := { b.sec with phase := 2, tstOk := true } }
    else
      let b := { b with sys := { base := 2 }, sec := { b.sec with phase := 2 } }
      let b := b.setTask 0 0 { tstat := 3, pc := 0x30000000, st := .running }
      let b := b.setEng 0 { run := true, cur := 0 }
      let b := b.driveAll.phyEvents.irqEvents
      if b.rb Reg.dbgCtrl 1 && decide (b.lifecycle ≠ 2) then b.haltNow 0 5 0 else b.bootReady
  else if b.romRuns && !b.sec.ready then b.bootReady
  else b

/-- The IN message of mailbox 0 is the 1-byte LOAD (R461). -/
def Blk.isLoad (b : Blk) : Bool :=
  decide (b.rf (Reg.mbInstat 0) 0 7 = 1) && decide ((b.reg (Reg.inBuf 0 0)).toNat % 256 = 1)

/-- The boot ROM frees IN buffer 0 and answers (R461). -/
def Blk.bootAnswer (b : Blk) (code n : Nat) : Blk := (b.setReg (Reg.mbInstat 0) 0).bootPost 2 (code + 256 * (n % 256))

/-- The boot ROM takes a LOAD message (R461, R464). -/
def Blk.bootLoad (b : Blk) : Blk :=
  if b.romRuns && b.sec.ready && !b.sec.busy && b.rb (Reg.mbInstat 0) 31 && b.isLoad then
    if b.sys.hold then b.bootAnswer 7 b.sec.checked
    else { b with sec := { b.sec with busy := true, count := b.sec.count + 1 } }.staging false
  else b

/-- The boot ROM answers any other IN message (R461). -/
def Blk.bootBad (b : Blk) : Blk :=
  if b.romRuns && b.sec.ready && !b.sec.busy && b.rb (Reg.mbInstat 0) 31 && !b.isLoad then b.bootAnswer 8 b.sec.count else b

/-! Verification (R462, R463). -/

/-- Little-endian value of image bytes. -/
def Blk.img (b : Blk) (o n : Nat) : Nat := leNat (b.bytes o n)

/-- The image hash's bytes: header and body with the signature read as zero. -/
def Blk.imgBytes (b : Blk) : List Byte :=
  b.bytes 0 0xA0 ++ List.replicate 96 0 ++ b.bytes 0x100 (0x100 + b.img 8 4)

/-- Check 1 of R463. -/
def Blk.imgFormat (b : Blk) : Bool :=
  decide (b.img 0 4 = 0x4F583132) && decide (b.img 4 2 = 1) && decide (b.img 7 1 < 16) &&
  (b.bytes 0x14 44).all (fun x => x == 0) && (b.bytes 0x100 256).all (fun x => x == 0) &&
  decide (b.img 8 4 % 16 = 0) && decide (b.img 8 4 ≤ 0x2BFE00) &&
  decide (0x200 ≤ b.img 12 4) && decide (b.img 12 4 < 0x200 + b.img 8 4) && decide (b.img 6 1 ≤ 3) && decide (b.img 16 4 ≤ 32)

/-- Is key hash `k` revoked (R456, R458)? -/
def Blk.revoked (b : Blk) (k : Nat) : Bool := b.sec.fuseErr || tbit (b.fuse 10) k

/-- The result of a candidate (R463). -/
def Blk.imgResult (b : Blk) : Nat :=
  let k := b.img 6 1
  let lc := b.lifecycle
  let pub := b.bytes 0x40 96
  if !b.imgFormat then 1
  else if lc = 0 then 0
  else if b.revoked k then 2
  else if Config.sha384 pub ≠ (List.range 12).map (fun i => b.fuse (0x10 + 12 * k + i)) then 3
  else if !((b.img 7 1).testBit lc) then 4
  else if lc = 2 ∧ b.img 16 4 < b.arbFused then 5
  else if !(Config.ecdsaOk pub (Config.sha384 b.imgBytes) (b.bytes 0xA0 96)) then 6
  else 0

/-- Handover to the accepted image `n` (R465, R538). -/
def Blk.handover (b : Blk) (n : Nat) : Blk :=
  let h := Config.sha384 b.imgBytes
  let dbg := (b.img 7 1).testBit 0
  let entry := b.img 12 4
  let last := (0x1FF + b.img 8 4) / 4096
  let b := (List.range 12).foldl (fun b i => b.setReg (Reg.imgHash i) (h.getD i 0)) b
  let b := (b.setReg Reg.secVer (BitVec.ofNat 32 (b.img 16 4))).setBit Reg.bootStat 12
  let b := (b.setReg (Reg.regLo 0 0) 0x70000000).setReg (Reg.regHi 0 0) (BitVec.ofNat 32 (0x70000000 + last))
  let b := (b.bankZero 11).bootAnswer 0 n
  let b := { b with sec := { b.sec with dbg := dbg } }
  let b := (b.event 0x0A0 0).setBase 3
  let l := b.lead 0
  let b := b.setTask l 0 { b.task l 0 with pc := BitVec.ofNat 32 entry, tstat := putFld (b.task l 0).tstat 0 2 3 }
  (b.applyPending l).refetch l

/-- `BOOT_TRIES` (R458). -/
def Blk.bootTries (b : Blk) : Nat := if fld (b.fuse 10) 4 4 = 0 then 4 else fld (b.fuse 10) 4 4

/-- Verification of the candidate completes (R463, R464, R465). -/
def Blk.bootResult (b : Blk) : Blk :=
  if b.romRuns && b.sec.busy then
    let r := b.imgResult
    let n := b.sec.count
    let b := { b with sec := { b.sec with busy := false, checked := b.sec.checked + 1,
                                          fails := b.sec.fails + (if r = 0 then 0 else 1) } }
    let b := b.setReg Reg.bootStat (BitVec.ofNat 32 (r + 256 * Nat.min 15 b.sec.checked + 2 ^ 16 * (b.img 6 1 % 4)))
    if r = 0 then (if b.sys.hold then b.bootAnswer 0 n else b.handover n)
    else if b.sys.hold then b.bootAnswer r n
    else if b.bootTries ≤ b.sec.fails ∨ b.sec.tmo = true then (b.bootAnswer r n).safeHold 5
    else (b.staging true).bootAnswer r n
  else b

/-- `BOOT_TMO` elapses (R464). -/
def Blk.bootTimeout (b : Blk) : Blk :=
  if b.sys.base = 2 ∧ b.rb Reg.bootStat 12 = false ∧ fld (b.fuse 10) 8 8 ≠ 0 ∧ b.sec.tmo = false then
    let b := { b with sec := { b.sec with tmo := true } }
    if b.sec.busy then b else b.safeHold 5
  else b

/-! Fuses (R460). -/

/-- May master `m` at level `pl` give fuse and reset commands: an engine at PL 3? -/
def fromMach (m pl : Nat) : Bool := decide (m < 16) && decide (pl = 3)

/-- `fuse_prog_ok` changes (R460). (DESIGN CHOICE, log 98). -/
def Blk.fuseProgPin (b : Blk) (low : Bool) : Blk := { b with sec := { b.sec with progLow := low } }

/-- May a program command of master `m` at level `pl` start a cycle: an engine at PL 3, `fuse_prog_ok` high, no cycle in progress (R460)? -/
def Blk.mayProg (b : Blk) (m pl : Nat) : Bool := fromMach m pl && !b.sec.progLow && b.sec.prog.isNone

/-- A program cycle starts. (DESIGN CHOICE, log 98). -/
def Blk.fuseStart (b : Blk) (i : Nat) (v : Word) : Blk := { b with sec := { b.sec with prog := some (i, v) } }.emit (.fuse i v)

/-- `FUSE_PROG` (R460). -/
def Blk.fuseProg (b : Blk) (m pl : Nat) (v : Word) : Blk :=
  if b.mayProg m pl && decide (b.lifecycle = 0) then b.fuseStart (b.rf Reg.fuseIdx 0 6) v else b.flt 0x0A0 0

/-- `LC_ADV` (R460). -/
def Blk.lcAdvance (b : Blk) (m pl : Nat) (v : Word) : Blk :=
  let t := fld v 0 3
  if b.mayProg m pl && decide (b.lifecycle < t) && decide (t ≤ 3) && decide (fld v 16 16 = 0xC3C3) then
    b.fuseStart 8 (BitVec.ofNat 32 (2 ^ t - 1))
  else b.flt 0x0A0 0

/-- `ARB_SET` (R460). -/
def Blk.arbSet (b : Blk) (m pl : Nat) (v : Word) : Blk :=
  let n := fld v 0 6
  if b.mayProg m pl && decide (b.mode = 3) && decide (b.arbFused ≤ n) && decide (n ≤ 32) && decide (n ≤ b.rf Reg.secVer 0 6) then
    b.fuseStart 9 (BitVec.ofNat 32 (2 ^ n - 1))
  else b.flt 0x0A0 0

/-- A program cycle ends (R460). -/
def Blk.fuseDone (b : Blk) (err : Bool) : Blk :=
  if b.sec.prog.isSome then
    let b := { b with sec := { b.sec with prog := none } }
    if err then b.flt 0x0A0 1 else b
  else b

/-- `RST_REQ` of the SECURITY page (R452). -/
def Blk.softReset (b : Blk) (m pl : Nat) (v : Word) : Blk :=
  if fromMach m pl && decide (fld v 0 16 = 0x5A5A) then b.enterReset 4 else b

/-- `LC`, `ARB_CNT` and `FUSE_DATA` as they read (R459, R460, R472). -/
def Blk.lcWord (b : Blk) : Word := BitVec.ofNat 32 (b.lifecycle + 256 * bit b.dbgOpen)
def Blk.arbWord (b : Blk) : Word := BitVec.ofNat 32 b.arbFused
def Blk.fuseWord (b : Blk) : Word := if b.rf Reg.fuseIdx 0 6 < 8 then 0 else b.fuse (b.rf Reg.fuseIdx 0 6)

/-! Key store (R469 to R471). -/

/-- Replace a key slot. -/
def Blk.setKey (b : Blk) (s : Nat) (k : KeySlot) : Blk := { b with keys := Tab.set (fun _ => {}) b.keys s k }

/-- The words of `KDATA` and `KSALT`. -/
def Blk.kdataWords (b : Blk) : List Word := (List.range 8).map fun i => b.reg (Reg.kdata i)
def Blk.ksaltWords (b : Blk) : List Word := (List.range 3).map fun i => b.reg (Reg.ksalt i)

/-- A refused key command (R470). (DEDUCED, log 99). -/
def Blk.keyRefused (b : Blk) : Blk := b.flt 0x0A1 1

/-- May key material be written while mirroring is configured (R471)? -/
def Blk.mirKeysOk (b : Blk) : Bool :=
  !(b.rb Reg.mcfgReg 0) || (List.range 2).all fun k => !(b.rb Reg.mcfgReg (2 + k)) || b.rb (Reg.secy (4 + k)) 0

/-- A slot is erased. -/
def Blk.keyZero (b : Blk) (s : Nat) : Blk := (b.setKey s {}).setReg (Reg.kstat s) (b.reg (Reg.kstat s) &&& 6)

/-- A slot takes a key from a source (1 written, 2 derived). -/
def Blk.keyPut (b : Blk) (s src : Nat) (k : List Word) : Blk :=
  ((b.setKey s ⟨k, b.ksaltWords⟩).setBit (Reg.kstat s) 0).setF (Reg.kstat s) 3 2 src

/-- `KCMD` (R470, R471): 1 WRITE, 2 ERASE, 3 LOCK, 4 DERIVE, 5 ERASE_ALL; other codes do nothing. -/
def Blk.keyCmd (b : Blk) (c : Nat) : Blk :=
  let s := b.rf Reg.ksel 0 5
  let locked := b.rb (Reg.kstat s) 1
  let used := b.rb (Reg.kstat s) 2
  let go := fun (b : Blk) => { b with sec := { b.sec with keyCmd := true } }
  if c = 1 ∨ c = 2 then
    if locked then b.keyRefused
    else if used then b.keyRefused.flt 0x07B 0
    else if c = 1 then (if b.mirKeysOk then go (b.keyPut s 1 b.kdataWords) else b.keyRefused)
    else go (b.keyZero s)
  else if c = 3 then (if locked then b.keyRefused else go (b.setBit (Reg.kstat s) 1))
  else if c = 4 then
    if locked ∨ b.lifecycle = 0 ∨ b.lifecycle = 3 then b.keyRefused
    else go (b.keyPut s 2 (Config.derive ((List.range 8).map b.fuse)
      (toLe 4 (b.reg (Reg.kdata 0)).toNat ++ toLe 4 (b.reg (Reg.kdata 1)).toNat ++ toLe 1 s)))
  else if c = 5 then go ((List.range 32).foldl Blk.keyZero b)
  else b

/-- A key command completes (R470). -/
def Blk.keyDone (b : Blk) : Blk :=
  if b.sec.keyCmd then
    let b := (List.range 8).foldl (fun b i => b.setReg (Reg.kdata i) 0) b
    let b := (List.range 3).foldl (fun b i => b.setReg (Reg.ksalt i) 0) b
    { b with sec := { b.sec with keyCmd := false } }.event 0x0A1 0
  else b

/-! Test mode (R509, R510). -/

/-- `tst_allowed`. -/
def Blk.tstAllowed (b : Blk) : Bool := decide (b.sec.phase = 2) && decide (b.lifecycle ≠ 2)

/-- `tst_mode` rises, or falls. -/
def Blk.testOn (b : Blk) : Blk :=
  if b.tstAllowed && !b.sec.test && decide (b.sys.base ≠ 0) then (({ b with sec := { b.sec with test := true } }).enterReset 0) else b
def Blk.testOff (b : Blk) : Blk :=
  if b.sec.test then ({ b with sec := { b.sec with test := false } }).enterReset 0 else b

/-- A memory test starts, or completes. -/
def Blk.mbistGo (b : Blk) (sel : Nat) : Blk :=
  if b.sec.tstOk && (decide (sel ≤ 132) || decide (sel = 255)) then
    { b with sec := { b.sec with mbist := some sel, mbDone := none } }
  else b
def Blk.mbistDone (b : Blk) (fail : Bool) : Blk :=
  if b.sec.mbist.isSome then { b with sec := { b.sec with mbist := none, mbDone := some fail } } else b

end Sys2Proof.Machine
end

