-- ==== Sys2Proof/Machine/PowerOps.lean ====
section
/-! DEFINITION. The power controller: pacing (R442, R443), Sleep entry and wake (R444 to R449), supplies (R440). -/
namespace Sys2Proof.Machine

/-! Pacing. -/

/-- The droop level of the bits held: index of the highest plus 1. -/
def droopLevel (h : BitVec 4) : Nat :=
  if h.getLsbD 3 then 4 else if h.getLsbD 2 then 3 else if h.getLsbD 1 then 2 else if h.getLsbD 0 then 1 else 0

/-- The level in force (R443). -/
def Blk.paceLevel (b : Blk) : Nat := Nat.max (droopLevel b.pow.held) (Nat.max b.pow.cap (b.rf Reg.pcfg 0 2))

/-- A supply fault is recorded by the safety manager (R41, R337, R448). -/
def Blk.supplyFault (b : Blk) : Blk := (b.transient.flt pgSafety 4).emit (.pulse "pwr_fault" 0)

/-- Bring the level in force up to date, with the records of an entry into a level, from above or below (R41, R443). (DEDUCED, log 100). -/
def Blk.paceShow (b : Blk) : Blk :=
  let n := b.paceLevel
  if n = b.rf Reg.pwrStat 0 3 then b
  else
    let b := { b.setF Reg.pwrStat 0 3 n with pow := { b.pow with peak := Nat.max b.pow.peak n } }
    let b := if n = 0 then b else b.count (Reg.droopCnt (n - 1)) 0 16
    if 3 ≤ n then (((b.event 0x001 2).flt 0x001 2).event 0x005 0).supplyFault else b

/-- `pwr_droop` changes (R442, R443). -/
def Blk.droop (b : Blk) (c : BitVec 4) : Blk := { b with pow := { b.pow with code := c, held := b.pow.held ||| c } }.paceShow

/-- Bit `k` of `pwr_droop` has been low for 50 ns. -/
def Blk.droopOver (b : Blk) (k : Nat) : Blk :=
  if b.pow.code.getLsbD k then b
  else { b with pow := { b.pow with held := b.pow.held &&& ~~~ (BitVec.ofNat 4 (2 ^ k)) } }.paceShow

/-- `pwr_cap` changes; 0b11 is read as 2 (R441). -/
def Blk.capWrite (b : Blk) (c : Nat) : Blk := { b with pow := { b.pow with cap := Nat.min 2 c } }.paceShow

/-- A temperature alert changes: bit 9 TJ_WARN, bit 10 TJ_CRIT of `STAT` (R449). -/
def Blk.tjAlert (b : Blk) (i : Nat) (level : Bool) : Blk :=
  let was := b.rb Reg.pwrStat (9 + i)
  let b := b.setF Reg.pwrStat (9 + i) 1 (bit level)
  if level && !was then b.event 0x001 (3 + i) else b

/-- A supply is out of range for 100 ns (R440, R449). -/
def Blk.supplyLow (b : Blk) (core mem : Bool) : Blk :=
  if (core && mem) || decide (b.sys.base < 2) || decide (b.sys.base = 0xA) then b
  else (b.emit (.pulse "pwr_fault" 0)).enterReset 2

/-! Sleep entry. -/

/-- The lowest-numbered source that qualifies as a wake event (R215). -/
def Blk.wakeSource (b : Blk) : Option Nat := b.enabledSrcs.find? fun n => b.requesting n && !(b.srcBit Reg.quar n)

/-- Has the timebase reached `WAKE_AT` with `WAKE_TIMED_EN` (R446)? -/
def Blk.wakeTime (b : Blk) : Bool :=
  b.rb Reg.pcfg 4 && decide ((b.reg Reg.wakeAtLo).toNat + (b.reg Reg.wakeAtHi).toNat * 2 ^ 32 ≤ b.tb.cnt.toNat)

/-- Is a halt request of the debug module pending (R446)? -/
def Blk.haltAsked (b : Blk) : Bool := b.engines.any fun x => x.2.haltReq

/-- Is every drive group DISABLED, SAFE, or released to free run (R276)? -/
def Blk.driveRests (b : Blk) : Bool :=
  (List.range 8).all fun g => decide (b.gState g = 0) || decide (b.gState g = 2) ||
    (decide (b.gState g = 1) && b.rb (Reg.gctrlReg g) 4)

/-- Why a Sleep request is refused; 0 where it is not (R444). -/
def Blk.denyWhy (b : Blk) : Nat :=
  if b.mode ≠ 4 ∧ b.mode ≠ 5 then 1
  else if b.driveRests = false then 2
  else if b.wakeSource.isSome ∨ b.wakeTime = true ∨ b.haltAsked = true then 3
  else 0

/-- A Sleep request (R444, R445): was it granted? Entry asks every Twin pair for a Milestone point. -/
def Blk.sleepReq (b : Blk) : Bool × Blk :=
  let w := b.denyWhy
  if w ≠ 0 then (false, (((b.setBit Reg.pwrStat 3).setF Reg.pwrStat 4 4 w).event 0x001 1))
  else if b.rb Reg.pwrStat 8 then (true, b)
  else
    let b := b.setBit Reg.pwrStat 8
    (true, (List.range 8).foldl (fun b p =>
      if b.joined p && !(b.retired p) && !(b.idleSpare p) then b.setPair p { b.pair p with take := true } else b) b)

/-- Is engine `e` stopped or able to stop at a switch point at PL 0 or 1 (R445)? -/
def Blk.engStops (b : Blk) (e : Nat) : Bool :=
  let l := b.lead e
  !(b.eng l).run || (decide (b.pl l ≠ 3) && !(b.midInstr l))

/-- Is everything drained for the commit (R304, R422, R445)? -/
def Blk.drained (b : Blk) : Bool :=
  b.moverQuiet && (b.mp.all fun x => x.2.q.isEmpty && x.2.outst.isEmpty) &&
  ((List.range 8).all fun p => !(b.joined p) || b.retired p || b.idleSpare p ||
    (!((b.pair p).take) && (b.pair p).pend.isNone && (b.pair p).q.isEmpty)) &&
  ((List.range 16).all fun e => b.engStops e)

/-- The commit of Sleep (R242, R389, R410, R445). -/
def Blk.sleepCommit (b : Blk) : Blk :=
  if b.rb Reg.pwrStat 8 && (decide (b.mode = 4) || decide (b.mode = 5)) && b.drained then
    let on := (List.range 96).filter fun k => decide ((b.bank k).cur = 0) && (b.bank k).going.isNone
    let b := on.foldl (fun b k => (b.setBank k { b.bank k with cur := 1 }).bankShow k) b
    let b := (List.range 6).foldl (fun b k =>
      if (b.lane k).step = 0 ∨ (b.lane k).step = 9 then b else (b.mirDown k).laneStart k) b
    let b := b.engines.foldl (fun b x => b.setEng x.1 { x.2 with sel := none, selEv := false, seen := [] }) b
    let b := (b.swSleep.clrBit Reg.pwrStat 8).count Reg.sleepCnt 0 16
    { b with pow := { b.pow with phase := 1, prior := b.sys.base, slept := on, late := false } }.setBase 0xA
  else b

/-- No commit within `ENTRY_TMO` (R445). -/
def Blk.sleepTimeout (b : Blk) : Blk := b.sleepAbort 4

/-! Wake. -/

/-- A wake event of kind 1 to 5 (R446) holds: a router source, `hp_wake`, `pwr_wake_ext`, the timed wake, a debug halt. -/
def Blk.wakeHolds (b : Blk) (kind : Nat) : Bool :=
  match kind with
  | 1 => b.wakeSource.isSome
  | 2 => true
  | 3 => b.rb Reg.pcfg 3
  | 4 => b.wakeTime
  | 5 => b.haltAsked
  | _ => false

/-- The kind recorded: the lowest of those that qualify together (R446). -/
def Blk.wakeKind (b : Blk) (kind : Nat) : Nat :=
  if b.wakeSource.isSome then 1 else if kind = 2 ∨ kind = 3 then kind else if b.wakeTime then 4 else kind

/-- A wake event (R215, R445, R446). Another one during a wake is recorded and has no other effect (R449). (DEDUCED, log 168). -/
def Blk.wake (b : Blk) (kind : Nat) : Blk :=
  if !(b.wakeHolds kind) then b
  else if b.rb Reg.pwrStat 8 then b.sleepAbort 6
  else if b.sys.base = 0xA ∧ b.pow.phase = 1 then
    let b := b.setReg Reg.wakeLast (BitVec.ofNat 32 (2 ^ 31 + b.wakeKind kind))
    let b := match b.wakeSource with
      | some n => b.setReg Reg.wakeSrc (BitVec.ofNat 32 (2 ^ 31 + n))
      | none => b.setReg Reg.wakeSrc 0
    { b with pow := { b.pow with phase := 2 } }
  else if b.sys.base = 0xA then b.setReg Reg.wakeLast (BitVec.ofNat 32 (2 ^ 31 + b.wakeKind kind))
  else b

/-- The retained banks return to on (R242, R447). -/
def Blk.banksBack (b : Blk) : Blk :=
  let b := b.pow.slept.foldl (fun b k => (b.setBank k { b.bank k with cur := 0 }).bankShow k) b
  { b with pow := { b.pow with phase := 3, slept := [] } }

/-- The 4.5 µs row of the wake schedule (R447, R448). -/
def Blk.wakeBanks (b : Blk) : Blk :=
  if b.sys.base = 0xA ∧ b.pow.phase = 2 then
    if b.pow.vack then b.banksBack else { b with pow := { b.pow with late := true } }
  else b

/-- `pwr_vack` changes; a late rise resumes the schedule (R448). (DESIGN CHOICE, log 101). -/
def Blk.vack (b : Blk) (level : Bool) : Blk :=
  let b := { b with pow := { b.pow with vack := level } }
  if level && b.pow.late && decide (b.pow.phase = 2) then
    ((b.flt 0x001 1).supplyFault).banksBack
  else b

/-- At the wake point `ch_en` rises again on the enabled channels of the memory port, and their credits are loaded (R413, R422). -/
def Blk.mpWake (b : Blk) : Blk :=
  [0, 1].foldl (fun b c =>
    if (b.chan c).en then b.setChan c { b.chan c with reqCrd := Config.reqCrdMax c % 64, wdCrd := Config.wdCrdMax c % 256 } else b) b

/-- The wake point, `ns` after the wake event (R389, R447, R448). -/
def Blk.wakePoint (b : Blk) (ns : Nat) : Blk :=
  if b.sys.base = 0xA ∧ b.pow.phase = 3 then
    let b := b.setReg Reg.wakeNs (BitVec.ofNat 32 (if b.pow.late then ns else 6000))
    let b := { b with pow := { b.pow with phase := 0, late := false } }
    let b := ((b.setBase b.pow.prior).event 0x001 0).mpWake
    (List.range 16).foldl (fun b e =>
      if (b.eng e).haltReq && decide (b.lead e = e) then b.haltNow e ((b.eng e).haltWhy % 8) ((b.eng e).haltWhy / 8) else b) b
  else b

end Sys2Proof.Machine
end

