-- ==== Sys2Proof/Machine/HostOps.lean ====
section
/-! DEFINITION. The host unit: commands (R432, R433), mailboxes (R431), services, the takeover request (R358, R361). Requests of the
port stand with the register pages. -/
namespace Sys2Proof.Machine

/-! Takeover. -/

/-- A takeover trigger on a follower (R358, R359, R361). -/
def Blk.takeover (b : Blk) : Blk :=
  if b.sys.base ≠ 7 ∨ b.mir.taking = true ∨ b.sys.hold = true then b
  else if !(b.rb Reg.mstat 1) then (b.flt 0x004 4).safeHold 7
  else ({ b with mir := { b.mir with taking := true } }).setBit Reg.mstat 6

/-! Services (R433, R409). -/

/-- The DoIP service's enable changes: a rise starts three announcements (R409). -/
def Blk.doipEnable (b : Blk) (was : Bool) : Blk :=
  if !was && b.rb Reg.doipCtrl 0 then { b with sw := { b.sw with ann := 3 } }
  else if b.rb Reg.doipCtrl 0 then b else { b with sw := { b.sw with ann := 0 } }

/-- The register and bit of a service's enable. -/
def svcBit (k : Nat) : Nat × Nat :=
  if k = 1 then (Reg.swCtrl, 0) else if k = 2 then (Reg.asCfg, 0) else if k = 3 then (Reg.doipCtrl, 0) else (Reg.fabCfg, 16)

/-- Write a service's enable. -/
def Blk.svcSet (b : Blk) (k : Nat) (on : Bool) : Blk :=
  let x := svcBit k
  let was := b.rb Reg.doipCtrl 0
  (b.setF x.1 x.2 1 (bit on)).doipEnable was

/-- The enables as `HRES.STATE` shows them. -/
def Blk.svcState (b : Blk) : Nat :=
  bit (b.rb Reg.swCtrl 0) + 2 * bit (b.rb Reg.asCfg 0) + 4 * bit (b.rb Reg.doipCtrl 0) + 8 * bit (b.rb Reg.fabCfg 16)

/-! Commands. -/

/-- Does the port accept requests (R432, R434, R435)? -/
def Blk.hostOn (b : Blk) : Bool :=
  decide (2 ≤ b.sys.base) && decide (b.sys.base ≠ 0xA) && !b.hst.low && !(b.rb Reg.pwrStat 8)

/-- A refused request is counted (R437). -/
def Blk.hostRefused (b : Blk) : Blk := b.count Reg.hperr 16 16

/-- May the command modes of START and STOP hold (R433)? -/
def Blk.svcMode (b : Blk) : Bool := decide (b.mode = 4) || decide (b.mode = 5) || decide (b.mode = 6)

/-- Safe Hold by command or by `hp_hold_n` (R21, R426, R433), in Sleep too; the block then stays asleep until a wake event. (DEDUCED, log 161). -/
def Blk.hostHold (b : Blk) : Blk := if 2 ≤ b.sys.base then b.safeHold 2 else b

/-- Status of a host command and its effect (R433): 0 OK, 1 MODE, 2 DISABLED, 3 BAD_CMD, 4 DENIED. -/
def Blk.hcmdDo (b : Blk) (c svc arg : Nat) : Nat × Blk :=
  let cfg := b.reg Reg.hcfg
  if c = 0 ∨ c = 3 then (0, b)
  else if c = 1 ∨ c = 2 then
    if svc = 0 ∨ 4 < svc then (3, b)
    else if !(tbit cfg 2) then (2, b)
    else if !b.svcMode then (1, b)
    else (0, b.svcSet svc (decide (c = 1)))
  else if c = 4 then (0, b.hostHold)
  else if c = 5 then
    if !(tbit cfg 3) then (2, b)
    else
      let z := b.sleepReq
      (if z.1 then 0 else 4, z.2)
  else if c = 6 then (if b.sys.base = 7 ∧ b.mode = 7 then (0, b.takeover) else (1, b))
  else if c = 7 then
    if arg ≠ 0x5A5A then (3, b)
    else if !(tbit cfg 4) then (2, b)
    else (0, b.enterReset 3)
  else (3, b)

/-- The host writes `HCMD` (R432): was it accepted? -/
def Blk.hcmd (b : Blk) (c svc arg : Nat) : Bool × Blk :=
  if b.hst.cmd.isSome || b.rb Reg.hres 0 then (false, b)
  else
    let z := b.hcmdDo c svc arg
    (true, if c = 7 ∧ z.1 = 0 then z.2 else { z.2 with hst := { z.2.hst with cmd := some (z.1, decide (z.1 = 0)) } })

/-- The command completes (R432, R433). -/
def Blk.hcmdDone (b : Blk) : Blk :=
  match b.hst.cmd with
  | none => b
  | some (st, done) =>
    let b := b.setReg Reg.hres (BitVec.ofNat 32 (1 + 2 * st + (if done then 2 ^ 16 * b.svcState else b.rf Reg.hres 16 4 * 2 ^ 16)))
    { b with hst := { b.hst with cmd := none } }.event 0x090 17

/-- The host frees the result (R432). -/
def Blk.hresClear (b : Blk) : Blk := b.clrBit Reg.hres 0

/-! Mailboxes (R431). -/

/-- The host posts IN message `k`: accepted? A length outside 1 to 64 is ignored. (DEDUCED, log 112). -/
def Blk.inPost (b : Blk) (k len : Nat) : Bool × Blk :=
  if b.rb (Reg.mbInstat k) 31 || !(b.rb (Reg.mbCtrl k) 1) then (false, b)
  else if len = 0 ∨ 64 < len then (true, b)
  else (true, (b.setReg (Reg.mbInstat k) (BitVec.ofNat 32 (2 ^ 31 + len))).event 0x090 k)

/-- The host takes OUT message `k`. (DEDUCED, log 111). -/
def Blk.outTake (b : Blk) (k : Nat) : Blk :=
  if b.rb (Reg.mbOutstat k) 31 then (b.setReg (Reg.mbOutstat k) 0).event 0x090 16 else b

/-- Firmware's post of OUT message `k` as it is released (R14, R339, R431). A length outside 1 to 64 is ignored. (DEDUCED, log 112). (DEDUCED, log 24). -/
def Blk.mailOut (b : Blk) (k len : Nat) : Blk :=
  if len = 0 ∨ 64 < len then b
  else if b.sys.hold ∨ b.sys.base = 7 then b.seqDrop
  else b.outPost k len

/-- The message of OUT buffer `k`. -/
def Blk.outMsg (b : Blk) (k len : Nat) : List Byte :=
  ((List.range 16).flatMap fun j => toLe 4 (b.reg (Reg.outBuf k j)).toNat).take len

end Sys2Proof.Machine
end

