-- ==== Sys2Proof/Machine/DebugOps.lean ====
section
/-! DEFINITION. The debug module (R474 to R499): the TAP's data registers, halts, resumes and steps, the trace ring and the counter
units. The accesses of DBGACC and the re-forming of a pair stand with the register pages and the Milestones. -/
namespace Sys2Proof.Machine

/-! The TAP (R475, R476). -/

/-- What a Capture-DR of DBGACC returns (R476): the status of the last access, BUSY while one is in progress, and its data. -/
def Blk.dbgaccWord (b : Blk) : BitVec 128 :=
  BitVec.ofNat 128 ((if b.tap.acc.isSome then 7 else b.tap.sts) + 8 * b.tap.data.toNat)

/-- The value of DBGSTAT (R475). -/
def Blk.dbgstatWord (b : Blk) : BitVec 128 :=
  BitVec.ofNat 128 (b.rf Reg.haltedReg 0 16 + 2 ^ 16 * bit b.dbgOpen + 2 ^ 17 * b.mode + 2 ^ 21 * bit b.tap.acc.isSome)

/-- Is an address reachable by the debug module now: in Sleep only pages of the AO domain are (R476, R536)? -/
def Blk.dbgReach (b : Blk) (a : Nat) : Bool :=
  if b.sys.base < 2 then false
  else if b.sys.base = 0xA then decide (place a = .page) && tbit (BitVec.ofNat 32 (pageCap ((a - 0x20000000) / 0x4000))) 2
  else true

/-- An Update-DR of DBGACC with GO (R476, R477): refused while debug is closed, BUSY where another access is in progress or the target
is unreachable. -/
def Blk.dbgGo (b : Blk) (a : Nat) (write : Bool) (v : Word) : Blk :=
  if b.tap.acc.isSome then b
  else if !b.dbgOpen then { b with tap := { b.tap with sts := 6 } }
  else if !(b.dbgReach (a / 4 * 4)) then { b with tap := { b.tap with sts := 7 } }
  else { b with tap := { b.tap with acc := some (a / 4 * 4, write, v), late := false } }

/-- The access in progress completes with a status and the data read. -/
def Blk.dbgEnd (b : Blk) (sts : Nat) (data : Option Word) : Blk :=
  { b with tap := { b.tap with acc := none, late := false, sts := sts, data := data.getD b.tap.data } }

/-! Halts, resumes, steps (R478 to R483). -/

/-- A request while debug is closed is ignored (R477). -/
def Blk.dbgRefused (b : Blk) : Blk := b.flt 0x0B0 0

/-- A halt request for engine `e` (R478, R483): a resting engine halts at once, another one at its next halt point. -/
def Blk.haltOne (b : Blk) (why e : Nat) : Blk :=
  let l := b.lead e
  if (b.eng l).halted ∧ (b.eng l).stepping = false then b
  else if !(b.eng l).run && b.steady l && decide (b.sys.base ≠ 0xA) && decide (2 ≤ b.sys.base) then b.haltNow l why 0
  else b.askHalt l why 0

/-- Halt requests for the engines of a mask. -/
def Blk.haltMask (b : Blk) (why : Nat) (m : Word) : Blk :=
  (List.range 16).foldl (fun b e => if tbit m e then b.haltOne why e else b) b

/-- Engine `e` reaches its halt point with a halt request outstanding (R479). -/
def Blk.haltPoint (b : Blk) (e : Nat) : Blk :=
  let l := b.lead e
  if (b.eng l).haltReq && b.steady l && decide (b.sys.base ≠ 0xA) && decide (2 ≤ b.sys.base) && !(b.midInstr l) then
    b.haltNow l ((b.eng l).haltWhy % 8) ((b.eng l).haltWhy / 8)
  else b

/-- The task that the halt of engine `l` made Halted becomes Ready (R480). -/
def Blk.unhalt (b : Blk) (l : Nat) : Blk :=
  let t := b.rf (Reg.dstat l) 7 6
  if (b.task l t).dbgHalt then (b.setTask l t { b.task l t with dbgHalt := false }).makeReady l t else b

/-- One engine's halt bits are cleared. -/
def Blk.clearHalt (b : Blk) (e : Nat) : Blk := (b.clrBit Reg.haltedReg e).clrBit (Reg.dstat e) 31

/-- `RESUME_REQ` for engine `e` (R480); both engines of a re-formed pair resume (R489). A pair being re-formed stays halted. -/
def Blk.resumeOne (b : Blk) (e : Nat) : Blk :=
  let l := b.lead e
  if (b.eng l).halted && decide (b.tap.ref ≠ some (e / 2)) then
    let b := (b.setEng l { b.eng l with halted := false, stepping := false }).clearHalt l
    let b := if b.joined (l / 2) then
        (b.setEng (l + 1) { b.eng (l + 1) with halted := false, stepping := false }).clearHalt (l + 1)
      else b
    (b.unhalt l).showMode
  else b

/-- Resume requests for the engines of a mask. -/
def Blk.resumeMask (b : Blk) (m : Word) : Blk :=
  (List.range 16).foldl (fun b e => if tbit m e then b.resumeOne e else b) b

/-- `STEP_REQ` for engine `e` (R481): the task the halt made Halted is dispatched and runs to its next halt point. (DEDUCED, log 52). -/
def Blk.stepOne (b : Blk) (e : Nat) : Blk :=
  let l := b.lead e
  if !((b.eng l).halted) || (b.eng l).stepping then b
  else if b.rb (Reg.dstat l) 6 then b.flt 0x0B0 0
  else
    let t := b.rf (Reg.dstat l) 7 6
    if (b.task l t).dbgHalt && decide (b.tap.ref ≠ some (e / 2)) then
      let b := (b.setEng l { b.eng l with stepping := true }).putOn l t
      if (b.eng l).vecFetch.isSome && (b.eng l).run then b.haltNow l 2 0 else b
    else b

/-- Step requests for the engines of a mask. -/
def Blk.stepMask (b : Blk) (m : Word) : Blk :=
  (List.range 16).foldl (fun b e => if tbit m e then b.stepOne e else b) b

/-- `REFORM` (R489): a broken pair with both engines halted; what it does is its completion. -/
def Blk.reformGo (b : Blk) (p : Nat) : Blk :=
  if b.broken p && (b.eng (2 * p)).halted && (b.eng (2 * p + 1)).halted && !((b.eng (2 * p)).stepping) &&
      !((b.eng (2 * p + 1)).stepping) && b.tap.ref.isNone then
    { b with tap := { b.tap with ref := some p } }.setBit Reg.dbgStatReg 1
  else b.flt 0x0B0 1

/-! Counters (R493 to R495). -/

/-- Registers of a counter unit: count, shadow, control, overflow, snapshot time. Units 0 to 15 are the engines, 16 the mover, 17 the
switch. -/
def pmCntOf (u c : Nat) : Nat := if u < 16 then Reg.pmCnt u c else if u = 16 then Reg.mvPmCnt c else Reg.swPmCnt c
def pmShadOf (u c : Nat) : Nat := if u < 16 then Reg.pmShad u c else if u = 16 then Reg.mvPmShad c else Reg.swPmShad c
def pmCtrlOf (u : Nat) : Nat := if u < 16 then Reg.pmCtrl u else if u = 16 then Reg.mvPmCtrl else Reg.swPmCtrl
def pmTbOf (u : Nat) : Nat × Nat :=
  if u < 16 then (Reg.pmSnapTbLo u, Reg.pmSnapTbHi u) else (Reg.dbgPmTbLo, Reg.dbgPmTbHi)

/-- A snapshot of one unit's counters (R495), with the time that has just been read. -/
def Blk.pmSnap (b : Blk) (u : Nat) : Blk :=
  let now := b.tb.last
  let b := b.pmFreeUnit u
  let b := (List.range 8).foldl (fun b c => b.setReg (pmShadOf u c) (b.reg (pmCntOf u c))) b
  (b.setReg (pmTbOf u).1 (now.setWidth 32)).setReg (pmTbOf u).2 (BitVec.ofNat 32 (now.toNat / 2 ^ 32))

/-- A snapshot of every unit of a mask in one step (R495). -/
def Blk.pmGsnap (b : Blk) (m : Word) : Blk :=
  if fld m 0 18 = 0 then b
  else (List.range 18).foldl (fun b u => if tbit m u then b.pmSnap u else b) b.noteInterp

/-- Every counter of a unit becomes 0 (R498). -/
def Blk.pmClear (b : Blk) (u : Nat) : Blk := (List.range 8).foldl (fun b c => b.setReg (pmCntOf u c) 0) b

/-- A write of `v` to a unit's `PMCTRL` (R495, R498): the self-clearing bits act, FREEZE is stored. (DEDUCED, log 64). -/
def Blk.pmCtrlWrite (b : Blk) (u : Nat) (v : Word) : Blk :=
  let b := if tbit v 0 then b.noteInterp.pmSnap u else b
  let b := if tbit v 2 then b.pmClear u else b
  b.setReg (pmCtrlOf u) (v &&& 2)

/-! The trace ring (R490). -/

/-- A change of `TRC_CTRL`: where EN rises, a TIME record comes first and the ring is written from its start. (DEDUCED, log 110). -/
def Blk.trcCtrlWrite (b : Blk) (v : Word) : Blk :=
  let rise := !(b.rb Reg.trcCtrl 0) && tbit v 0
  let b := b.setReg Reg.trcCtrl v
  if rise then ({ b with trc := { b.trc with hi := none } }).setReg Reg.trcWptr 0 else b

/-- A record drains into the ring as a write of master 20 (R490). (DEDUCED, log 110). -/
def Blk.trcDrain (b : Blk) : Blk :=
  match b.trc.fifo with
  | [] => b
  | r :: rest =>
    let size := (b.reg Reg.trcSize).toNat
    let w := (b.reg Reg.trcWptr).toNat
    if b.rb Reg.trcStat 1 || b.rb Reg.trcStat 2 || decide (b.sys.base < 2) || decide (b.sys.base = 0xA) || decide (size = 0) then b
    else
      let w := if size ≤ w then 0 else w
      let a := 0x10000000 + (b.reg Reg.trcBase).toNat + w
      match b.mCheck 20 none .store a 16 with
      | some e => (b.mRefused 20 true e).setBit Reg.trcStat 2
      | none =>
        let b := { b with trc := { b.trc with fifo := rest } }.writeMem none false a (toLe 16 r.toNat) 2
        let w := w + 16
        if w < size then b.setReg Reg.trcWptr (BitVec.ofNat 32 w)
        else if b.rb Reg.trcCtrl 1 then (b.setReg Reg.trcWptr 0).setBit Reg.trcStat 0
        else ((b.setReg Reg.trcWptr (BitVec.ofNat 32 w)).setBit Reg.trcStat 1).event 0x0B0 1

end Sys2Proof.Machine
end

