-- ==== Sys2Proof/Machine/Ctl.lean ====
section
/-! DEFINITION. Control words (R83 to R89): their levels, what a read returns and what a write stores; and the context window of the
ENGINE page (R192, R193), which obeys the same rules. -/
namespace Sys2Proof.Machine

/-- The least level that reads a control word, and the least that writes it, none where it is read-only (R84). -/
def ctlLevels (i : Nat) : Option (Nat × Option Nat) :=
  if i = 0x000 then some (0, some 1)
  else if i = 0x001 ∨ i = 0x004 ∨ i = 0x005 ∨ i = 0x006 then some (0, some 0)
  else if i = 0x010 ∨ i = 0x011 ∨ i = 0x012 ∨ i = 0x014 ∨ i = 0x015 ∨ i = 0x016 then some (0, some 1)
  else if i = 0x018 then some (0, none)
  else if 0x020 ≤ i ∧ i ≤ 0x023 then some (1, some 1)
  else if i = 0x028 then some (1, some 3)
  else if 0x040 ≤ i ∧ i ≤ 0x043 then some (3, some 3)
  else if 0x048 ≤ i ∧ i ≤ 0x04A then some (3, some 3)
  else if i = 0x04C ∨ i = 0x080 ∨ i = 0x081 ∨ i = 0x082 ∨ i = 0x083 then some (0, none)
  else none

/-- Is a control word of task scope (R84)? -/
def ctlTask (i : Nat) : Bool := decide (i < 0x024)

/-- `STKSTAT` for given occupancies (R86). -/
def stkStat (d r : Nat) : Word := BitVec.ofNat 32 (d + 256 * r)

/-- `TASKID` of engine `l` (R85); the spare of a migration reads the retired pair's (R338). -/
def Blk.taskId (b : Blk) (l : Nat) : Word :=
  let p := if b.rb Reg.twin 27 && decide (b.rf Reg.pairCfg 8 3 = l / 2) then b.rf Reg.twin 24 3 else l / 2
  let e := if b.twin p then 2 * p else 2 * p + l % 2
  BitVec.ofNat 32 ((b.eng l).cur + e * 256 + p * 4096 + bit (b.twin p) * 2 ^ 15)

/-- The value of task `t`'s word at index `i`. -/
def Blk.ctlTaskGet (b : Blk) (l t i : Nat) : Word :=
  let c := b.task l t
  if i = 0x000 then b.tstatRead l t
  else if i = 0x001 then c.astat
  else if i = 0x004 then c.lc
  else if i = 0x005 then c.vix
  else if i = 0x006 then c.vcfg
  else if i = 0x010 then c.dsp
  else if i = 0x011 then c.dsbase
  else if i = 0x012 then c.dslim
  else if i = 0x014 then c.rsp
  else if i = 0x015 then c.rsbase
  else if i = 0x016 then c.rslim
  else if i = 0x018 then stkStat c.ds.length c.rs.length
  else if i = 0x020 then c.ssavePc
  else if i = 0x021 then c.ssaveStat
  else if i = 0x022 then c.scause
  else if i = 0x023 then c.sinfo
  else 0

/-- The value of engine `l`'s word at index `i`. -/
def Blk.ctlEngGet (b : Blk) (l i : Nat) : Word :=
  let x := b.eng l
  if i = 0x028 then x.svec
  else if i = 0x040 then x.msavePc
  else if i = 0x041 then x.msaveStat
  else if i = 0x042 then x.mcause
  else if i = 0x043 then x.minfo
  else if i = 0x048 then x.mvec
  else if i = 0x049 then x.deleg
  else if i = 0x04A then x.mstk
  else if i = 0x04C then b.taskId l
  else if i = 0x080 then 0x3F
  else if i = 0x081 then 0x40
  else if i = 0x082 then 0x04041010
  else if i = 0x083 then 0x00010201
  else 0

/-- What a control word reads as. -/
def Blk.ctlGet (b : Blk) (l t i : Nat) : Word := if ctlTask i then b.ctlTaskGet l t i else b.ctlEngGet l i

/-- A write of `VCFG` (R133): a reserved element width leaves its field. -/
def vcfgWrite (old v : Word) : Word :=
  if fld v 2 2 = 3 then putFld (v &&& 0x1F) 2 2 (fld old 2 2) else v &&& 0x1F

/-- A write of task `t`'s word at index `i` (R64, R67, R80, R81, R133); NESTED reads 0 in `SCAUSE` (R152). (DEDUCED, log 56). -/
def Blk.ctlTaskSet (b : Blk) (l t i : Nat) (v : Word) : Blk :=
  let c := b.task l t
  let p := v &&& 0x1FFFFF0
  if i = 0x000 then b.setTask l t { c with tstat := (c.tstat &&& ~~~ 0xF010C) ||| (v &&& 0xF010C) }
  else if i = 0x001 then b.setTask l t { c with astat := v &&& 0x73F3F }
  else if i = 0x004 then b.setTask l t { c with lc := v }
  else if i = 0x005 then b.setTask l t { c with vix := v &&& 0xFFFF }
  else if i = 0x006 then b.setTask l t { c with vcfg := vcfgWrite c.vcfg v }
  else if i = 0x010 then b.setTask l t { c with dsp := p, ds := [] }
  else if i = 0x011 then b.setTask l t { c with dsbase := p }
  else if i = 0x012 then b.setTask l t { c with dslim := p }
  else if i = 0x014 then b.setTask l t { c with rsp := p, rs := [] }
  else if i = 0x015 then b.setTask l t { c with rsbase := p }
  else if i = 0x016 then b.setTask l t { c with rslim := p }
  else if i = 0x020 then b.setTask l t { c with ssavePc := v }
  else if i = 0x021 then b.setTask l t { c with ssaveStat := v }
  else if i = 0x022 then b.setTask l t { c with scause := v &&& 0xFFFFFDFF }
  else if i = 0x023 then b.setTask l t { c with sinfo := v }
  else b

/-- A write of engine `l`'s word at index `i` (R70, R87, R156, R240). (DEDUCED, log 56). -/
def Blk.ctlEngSet (b : Blk) (l i : Nat) (v : Word) : Blk :=
  let x := b.eng l
  let m := v &&& 0x1FFF000
  if i = 0x028 then b.setEng l { x with svec := v &&& 0xFFFFFC00 }
  else if i = 0x040 then b.setEng l { x with msavePc := v }
  else if i = 0x041 then b.setEng l { x with msaveStat := v }
  else if i = 0x042 then b.setEng l { x with mcause := v }
  else if i = 0x043 then b.setEng l { x with minfo := v }
  else if i = 0x048 then b.setEng l { x with mvec := v &&& 0xFFFFFC00 }
  else if i = 0x049 then b.setEng l { x with deleg := v &&& 0x3BCFE }
  else if i = 0x04A then
    b.setEng l { x with mstk := m, mds := [], mrs := [], mdsp := 0x1000, mrsp := 0x800, area := some (x.area.getD m.toNat) }
  else b

/-- A write of a control word. -/
def Blk.ctlSet (b : Blk) (l t i : Nat) (v : Word) : Blk := if ctlTask i then b.ctlTaskSet l t i v else b.ctlEngSet l i v

/-- Does engine `l` accept a write of `MSTK` in the block's mode (R70)? -/
def Blk.mstkOk (b : Blk) : Bool := (decide (b.sys.base = 2) || decide (b.sys.base = 3)) && !b.sys.hold

/-! The context window (R192, R193). -/

/-- State code of R172. -/
def TaskSt.code : TaskSt → Nat
  | .idle => 0
  | .ready => 1
  | .running => 2
  | .waiting => 3
  | .halted => 4

/-- `TASK_STAT` of a task (R190). -/
def Blk.taskStat (b : Blk) (l t : Nat) : Word :=
  let c := b.task l t
  let s := b.tstatRead l t
  BitVec.ofNat 32 (TaskSt.code c.st + bit c.evf * 8 + bit c.byp * 16 + bit (b.accepts l t) * 32 + fld s 0 2 * 256 + fld s 12 4 * 4096)

/-- The eight predicates of a task as one value. -/
def TaskCtx.preds (c : TaskCtx) : Nat :=
  (List.range 8).foldl (fun a j => a + (Tab.get (fun _ => 0) c.p j).toNat * 2 ^ (16 * j)) 0

/-- The value of item `i` of task `t`, none where the table has none (R193). -/
def Blk.ctxGet (b : Blk) (l t i : Nat) : Option Nat :=
  let c := b.task l t
  if i ≤ 0x00B then some ((c.ds.getD i 0).toNat)
  else if 0x010 ≤ i ∧ i ≤ 0x01B then some ((c.rs.getD (i - 0x010) 0).toNat)
  else if 0x020 ≤ i ∧ i ≤ 0x02F then some (Tab.get (fun _ => 0) c.v (i - 0x020)).toNat
  else if i = 0x030 then some c.preds
  else if i = 0x040 then some c.pc.toNat
  else if i = 0x041 then some (b.taskStat l t).toNat
  else if 0x800 ≤ i ∧ ctlTask (i - 0x800) = true ∧ (ctlLevels (i - 0x800)).isSome = true then some (b.ctlTaskGet l t (i - 0x800)).toNat
  else none

/-- May item `i` of the task be written, by a requester at level `pl` (R193)? (DEDUCED, log 50). -/
def Blk.ctxMay (b : Blk) (l t i pl : Nat) : Bool :=
  let c := b.task l t
  if i ≤ 0x00B then decide (i < c.ds.length)
  else if 0x010 ≤ i ∧ i ≤ 0x01B then decide (i - 0x010 < c.rs.length)
  else if 0x020 ≤ i ∧ i ≤ 0x02F then true
  else if i = 0x030 ∨ i = 0x040 then true
  else if 0x800 ≤ i ∧ ctlTask (i - 0x800) = true then
    match ctlLevels (i - 0x800) with
    | some (_, some w) => decide (w ≤ pl)
    | _ => false
  else false

/-- Write a value to item `i`. -/
def Blk.ctxPut (b : Blk) (l t i : Nat) (v : BitVec 128) : Blk :=
  let c := b.task l t
  if i ≤ 0x00B then b.setTask l t { c with ds := c.ds.set i v }
  else if i ≤ 0x01B then b.setTask l t { c with rs := c.rs.set (i - 0x010) v }
  else if i ≤ 0x02F then b.setTask l t { c with v := Tab.set (fun _ => 0) c.v (i - 0x020) v }
  else if i = 0x030 then
    b.setTask l t { c with p := (List.range 8).foldl (fun q j => Tab.set (fun _ => 0) q j (BitVec.ofNat 16 (v.toNat / 2 ^ (16 * j)))) c.p }
  else if i = 0x040 then b.setTask l t { c with pc := v.setWidth 32 }
  else b.ctlTaskSet l t (i - 0x800) (v.setWidth 32)

/-- Is item `i` a cache slot at or beyond the task's occupancy? The spec states no value for it: it reads as a free value. (DESIGN CHOICE, log 49). -/
def Blk.ctxOpen (b : Blk) (l t i : Nat) : Bool :=
  let c := b.task l t
  (decide (i ≤ 0x00B) && decide (c.ds.length ≤ i)) || (decide (0x010 ≤ i) && decide (i ≤ 0x01B) && decide (c.rs.length ≤ i - 0x010))

/-- `CTX_CMD` on the page of engine `l` by a requester at level `pl` (R192): an Idle or Halted task's item is read or written; a broken pair's
write acts on both engines (R185). (DESIGN CHOICE, log 49). -/
def Blk.ctxCmd (b : Blk) (l pl : Nat) (v : Word) : Blk :=
  let t := b.rf (Reg.taskSel l) 0 6
  let i := b.rf (Reg.ctxIdx l) 0 12
  let free := decide ((b.task l t).st = .idle) || decide ((b.task l t).st = .halted)
  let bad := fun (b : Blk) => b.flt (0x020 + l) 1
  if tbit v 0 && tbit v 1 then bad b
  else if tbit v 0 then
    if !free then bad (b.setWin4 (Reg.ctxD l) 0)
    else if b.ctxOpen l t i then (b.setWin4 (Reg.ctxD l) b.freeVal).freeNext
    else match b.ctxGet l t i with
      | some x => b.setWin4 (Reg.ctxD l) (BitVec.ofNat 128 x)
      | none => bad b
  else if tbit v 1 then
    if free && b.ctxMay l t i pl then
      let b := b.ctxPut l t i (b.win4 (Reg.ctxD l))
      if b.apart l then b.ctxPut (l + 1) t i (b.win4 (Reg.ctxD l)) else b
    else bad b
  else b

end Sys2Proof.Machine
end

