-- ==== Sys2Proof/Machine/MirrorOps.lean ====
section
/-! DEFINITION. The mirror unit before the streams (R347 to R349, R357): digest, peer, configuration, status, and the modes' requests
(R21, R26, R348, R468). -/
namespace Sys2Proof.Machine

/-- `CFG_DIGEST` (R348): the items as 32-bit words, least significant byte first, in the rule's order. (DEDUCED, log 108). -/
def Blk.cfgDigest (b : Blk) : Word :=
  let pairs := b.rf Reg.mcfgReg 8 8
  let excl := (List.range 8).flatMap fun p => if pairs.testBit p then (List.range 3).map fun j => b.reg (Reg.excl p j) else []
  let items : List Word := [0x00020300, BitVec.ofNat 32 pairs, b.reg Reg.pairCfg, b.reg Reg.area, b.reg Reg.msCfg, b.reg Reg.stepCap] ++
    excl ++ [b.reg Reg.lagCap]
  crc32c (items.flatMap fun w => toLe 4 w.toNat)

/-- The ROLE in force: that of the mode where the block is primary or follower, so that a new primary is one (R365), else `MCFG.ROLE`
(R348). -/
def Blk.roleNow (b : Blk) : Bool := if b.sys.base = 6 then false else if b.sys.base = 7 then true else b.rb Reg.mcfgReg 1

/-- Is the Causeway paired (R348)? -/
def Blk.peered (b : Blk) : Bool :=
  b.rb Reg.mcfgReg 0 && (b.mirUp 4 || b.mirUp 5) &&
  (match b.mir.hello with
   | some (role, _, dig) => decide (role ≠ b.roleNow) && decide (dig = b.cfgDigest)
   | none => false)

/-- Is a join or a resynchronisation of some pair in progress? -/
def Blk.joining (b : Blk) : Bool := (List.range 8).any fun p => b.mirPair p && (decide ((b.pair p).join = 1) || decide ((b.pair p).join = 2))

/-- `MSTAT` as it reads (R367). (DEDUCED, log 54). -/
def Blk.mstatWord (b : Blk) : Word :=
  putFld (putFld (b.reg Reg.mstat) 0 1 (bit b.peered)) 5 1 (bit ((b.sys.base = 6 || b.sys.base = 7) && b.joining))

/-- Send this block's HELLO (R348, R350). (DEDUCED, log 109). -/
def Blk.helloSend (b : Blk) : Blk := b.cwSend (.hello b.roleNow 0x00020300 b.cfgDigest)

/-- A write of `MCFG` (R347). (DEDUCED, log 109). -/
def Blk.mcfgWrite (b : Blk) (v : Word) : Blk :=
  if !b.inConfig || (List.range 8).any (fun p => tbit v (8 + p) && !(b.twin p)) then b.flt 0x004 0
  else
    let b := b.setReg Reg.mcfgReg v
    if tbit v 0 then b.helloSend else b

/-- `MSTAT.READY` follows the pairs' bits (R349): JOINED is raised where it becomes 1. (DEDUCED, log 123). -/
def Blk.readyShow (b : Blk) : Blk :=
  let now := b.rb Reg.mcfgReg 0 && decide (b.rf Reg.mcfgReg 8 8 ≠ 0) &&
    (List.range 8).all fun p => !(b.rb Reg.mcfgReg (8 + p)) || b.rb Reg.mstat (8 + p)
  if now = b.rb Reg.mstat 1 then b
  else if now then (b.setBit Reg.mstat 1).event 0x004 0 else b.clrBit Reg.mstat 1

/-- `PAIR_READY` of the mirrored pair that pair `p` runs changes. (DEDUCED, log 123). -/
def Blk.pairReady (b : Blk) (p : Nat) (on : Bool) : Blk := (b.setF Reg.mstat (8 + b.mirName p) 1 (bit on)).readyShow

/-- The primary repeats the join of a pair (R349, R354). -/
def Blk.rejoin (b : Blk) (p : Nat) : Blk :=
  if b.sys.base = 6 ∧ b.mirPair p = true then
    (((b.setPair p { b.pair p with join := 1, marked := [] }).lagOver p).event 0x004 3).pairReady p false
  else b

/-- What a follower's pair holds of the stream is of no use: it waits for an image (R349, R354). -/
def Blk.joinAnew (b : Blk) (p : Nat) : Blk :=
  let x := b.pair p
  (b.setPair p { x with join := 1, cursor := [], nextIns := [], nextRel := [], nextHor := 0, nextOn := false, mark := none, imgBuf := []
                        rels := [], q := [], older := 0, hor := x.spc, phase := .follow }).pairReady p false

/-- A follower's pair asks to be resynchronised (R354). -/
def Blk.resyncPair (b : Blk) (p : Nat) : Blk :=
  if b.sys.base = 7 ∧ b.mirPair p = true then
    (((b.joinAnew p).cwSend (.resync (b.mirName p))).count Reg.resyncCnt 0 16).event 0x004 3
  else b

/-- A follower's pair diverges (R354). -/
def Blk.diverge (b : Blk) (p : Nat) : Blk := (b.resyncPair p).transient

/-- `MCMD.RESYNC` (R366): every mirrored pair. -/
def Blk.cwResync (b : Blk) : Blk :=
  (List.range 8).foldl (fun b p => if b.sys.base = 6 then b.rejoin p else b.resyncPair p) b

/-! Mode requests. -/

/-- Does R468 refuse Run: a Twin pair other than an unused spare with a task that is not Idle and no exclusive bank, or a bank of the
reserved area that is not on? -/
def Blk.runBarred (b : Blk) : Bool :=
  ((List.range 8).any fun p =>
    b.twin p && !(b.idleSpare p) && ((List.range 64).any fun t => decide ((b.task (2 * p) t).st ≠ .idle)) &&
    ((List.range 96).all fun k => !(b.exclBit p k))) ||
  ((List.range b.areaBanks).any fun k => !(b.bankOn (b.areaBase + k)))

/-- The block enters a running mode: every Twin pair takes its first point at its first switch point, and mirrored pairs join
(R322, R349, R353). -/
def Blk.startRun (b : Blk) (m : Nat) : Blk :=
  let first := !b.sys.ran
  let b := { b with sys := { b.sys with ran := true } }
  let b := (List.range 8).foldl (fun b p =>
    if b.joined p then
      let x := b.pair p
      let x := { x with take := x.take || first }
      let x := { x with join := bit (decide (m = 6 ∨ m = 7) && b.mirPair p) }
      let x := if m = 7 ∧ b.mirPair p = true then { x with phase := .follow, hor := x.spc, nextOn := false } else x
      b.setPair p x
    else b) b
  b.setBase m

/-- `MODE_REQ` (R21, R26, R348, R468). (DEDUCED, log 167). -/
def Blk.modeReq (b : Blk) (v : Word) : Blk :=
  let refuse := b.setBit Reg.mode 8
  let ok := fun (b : Blk) => b.clrBit Reg.mode 8
  let tgt := fld v 0 4
  if tgt = 9 then
    if b.sys.base < 2 ∨ b.sys.base = 0xA ∨ b.sys.hold = true then refuse else ok (b.safeHold 1)
  else if tgt = 3 then
    if b.mode = 9 ∧ b.sys.base ≠ 0xA ∧ b.reg (regKey pgSafety Reg.hFault) = 0 then ok ((b.leaveHold).mirrorEnd.setBase 3) else refuse
  else if tgt = 4 then
    if b.mode ≠ 3 ∨ b.runBarred = true then refuse
    else if b.rb Reg.mcfgReg 0 then
      if b.peered then ok (b.startRun (if b.rb Reg.mcfgReg 1 then 7 else 6)) else refuse
    else ok (b.startRun 4)
  else refuse

/-- `MODE_FLAGS` (R27). -/
def Blk.modeFlags (b : Blk) : Word :=
  BitVec.ofNat 32 (bit b.degraded + 2 * bit b.anyRecovering + 4 * bit b.anyHalted + 8 * bit b.sys.hold +
    16 * bit (b.rb Reg.mcfgReg 0 && (b.mirUp 4 || b.mirUp 5)) + 32 * bit (b.rf Reg.twin 0 8 ≠ 0))

end Sys2Proof.Machine
end

