-- ==== Sys2Proof/Machine/PagesA.lean ====
section
/-! DEFINITION. Register pages, part one: what an accepted write does on the pages of the block's control, the router, the engines,
the memories, the mover and the drive unit. `r` is the offset in the page, `new` the word that R10 and R11 leave for an RW register
and the written bits for a WO register. Offsets not named store the word. -/
namespace Sys2Proof.Machine

/-- Store a register's new word. -/
def Blk.keep (b : Blk) (p r : Nat) (new : Word) : Blk := b.setReg (regKey p r) new

/-- GLOBAL (R24 to R29). -/
def Blk.wrGlobal (b : Blk) (r : Nat) (new : Word) : Blk :=
  if r = 0x44 then b.modeReq new
  else if r = 0x50 then (if b.inConfig then b.keep 0x000 r new else b.flt 0x000 0)
  else b.keep 0x000 r new

/-- POWER (R444, R450, R451). -/
def Blk.wrPower (b : Blk) (r : Nat) (new : Word) : Blk :=
  if r = 0x40 then (if b.rb Reg.pwrStat 8 then b.flt 0x001 0 else (b.keep 0x001 r new).paceShow)
  else if r = 0x44 then (if tbit new 0 then b.sleepReq.2 else b)
  else b.keep 0x001 r new

/-- The scheduling registers of an ENGINE page, from R187 and R498, that a pair in Twin holds once (R185, R486). -/
def twinRegs : List Nat :=
  (List.range 4).map (fun i => 0x68 + 4 * i) ++ (List.range 8).map (fun i => 0x78 + 4 * i) ++ [0x44, 0x98] ++
  (List.range 4).map (fun i => 0xA0 + 4 * i) ++ (List.range 24).map (fun i => 0xC0 + 0x10 * (i / 3) + 4 * (i % 3))

/-- A pair leaves Twin: both engines hold what it held as one (R313, R314). (DEDUCED, log 27). -/
def Blk.splitPair (b : Blk) (p : Nat) : Blk :=
  if b.broken p then b.clrBit Reg.twin p
  else
    let e := 2 * p
    let b := (List.range 64).foldl (fun b t => b.setTask (e + 1) t (b.task e t)) b
    let b := b.setEng (e + 1) (b.eng e)
    let b := twinRegs.foldl (fun b o => b.setReg (regKey (0x021 + e) o) (b.reg (regKey (0x020 + e) o))) b
    let b := (List.range 32).foldl (fun b i => b.setReg (Reg.regLo (e + 1) 0 + 4 * i) (b.reg (Reg.regLo e 0 + 4 * i))) b
    b.setReg (Reg.thresh (e + 1)) (b.reg (Reg.thresh e))

/-- `PAIRCFG` (R313, R342). -/
def Blk.pairCfgWrite (b : Blk) (new : Word) : Blk :=
  if (b.sys.base = 2 ∨ b.sys.base = 3) ∧ b.sys.hold = false then
    let b := (List.range 8).foldl (fun b p => if b.twin p && !(tbit new p) then b.splitPair p else b) b
    b.setReg Reg.pairCfg new
  else b.flt pgSafety 7

/-- SAFETY (R342). -/
def Blk.wrSafety (b : Blk) (r : Nat) (new : Word) : Blk :=
  if r = 0x40 then b.pairCfgWrite new else b.keep pgSafety r new

/-- Does an area of `n` banks from `base` on hold a bank that is exclusive to some pair? -/
def Blk.areaClash (b : Blk) (base n : Nat) : Bool :=
  (List.range n).any fun i => (List.range 8).any fun p => b.exclBit p (base + i)

/-- `AREA` (R326, R344). -/
def Blk.areaWrite (b : Blk) (new : Word) : Blk :=
  let n := 4 * 2 ^ fld new 8 2
  let base := fld new 0 7
  if fld new 8 2 = 3 ∨ base % n ≠ 0 ∨ 96 < base + n then b.flt 0x003 0
  else if b.areaClash base n then b.flt 0x003 1
  else b.areaLeave.setReg Reg.area new

/-- `EXCLp_j` (R315): no bank of the reserved area, none of another pair. -/
def Blk.exclWrite (b : Blk) (p j : Nat) (new : Word) : Blk :=
  if (List.range 32).any fun i => tbit new i && (b.inArea (32 * j + i) ||
      (List.range 8).any fun q => decide (q ≠ p) && b.exclBit q (32 * j + i)) then b.flt 0x003 1
  else b.setReg (Reg.excl p j) new

/-- `MS_CMD` (R322, R346): a point is asked for of a Twin pair that is neither broken, recovering nor retired. -/
def Blk.msCmd (b : Blk) (v : Word) : Blk :=
  let p := fld v 0 3
  if tbit v 8 && b.twin p && !(b.broken p) && !(b.recovering p) && !(b.retired p) then b.setPair p { b.pair p with take := true }
  else b

/-- MILESTONE (R344). -/
def Blk.wrMilestone (b : Blk) (r : Nat) (new : Word) : Blk :=
  if r = 0x50 then b.msCmd new
  else if !b.inConfig then b.flt 0x003 0
  else if r = 0x40 then (if fld new 0 10 < 2 ∨ 1000 < fld new 0 10 then b.flt 0x003 0 else b.keep 0x003 r new)
  else if r = 0x44 then (if fld new 0 24 < 16384 then b.flt 0x003 0 else b.keep 0x003 r new)
  else if r = 0x48 then b.areaWrite new
  else b.exclWrite ((r - 0x80) / 0x10) ((r - 0x80) % 0x10 / 4) new

/-- MIRROR (R347, R358, R366). RESYNC asks the primary's pairs to join again. -/
def Blk.wrMirror (b : Blk) (r : Nat) (new : Word) : Blk :=
  if r = 0x40 then b.mcfgWrite new
  else if r = 0x44 then
    let b := if tbit new 0 then b.takeover else b
    if tbit new 1 then b.cwResync else b
  else if r = 0x4C then
    (if !b.inConfig || decide (fld new 0 17 < 4096) || decide (73050 < fld new 0 17) then b.flt 0x004 0 else b.keep 0x004 r new)
  else b.keep 0x004 r new

/-- An increment's write (R48): in Boot and Configure, and only where the increment lies from 4.0 ns to 40.0 ns. -/
def Blk.incWrite (b : Blk) (r : Nat) (new : Word) : Blk :=
  let b' := b.keep 0x005 r new
  if (b.sys.base = 2 ∨ b.sys.base = 3) ∧ b.sys.hold = false ∧ 4 * 2 ^ 32 ≤ b'.incUnits ∧ b'.incUnits ≤ 40 * 2 ^ 32 then b'
  else b.flt 0x005 2

/-- `OFFSET_ADJ` (R49). -/
def Blk.offsetAdj (b : Blk) (v : Word) : Blk :=
  let s := b.tb.slew + v.toInt * 2 ^ 32
  if 1000000 * 2 ^ 32 < s.natAbs then b.flt 0x005 0 else { b with tb := { b.tb with slew := s } }

/-- `RATE_ADJ` (R49): clamped. -/
def Blk.rateWrite (b : Blk) (v : Word) : Blk :=
  let n := v.toInt
  b.setReg Reg.rateAdj (BitVec.ofInt 32 (if 2147483 < n then 2147483 else if n < -2147483 then -2147483 else n))

/-- `TB_CTRL.LOAD` (R50). -/
def Blk.tbLoad (b : Blk) : Blk :=
  if b.inConfig then
    let n := BitVec.ofNat 64 ((b.reg Reg.timeSetLo).toNat + (b.reg Reg.timeSetHi).toNat * 2 ^ 32)
    { b with tb := { b.tb with cnt := n, frac := 0, slew := 0, last := n } }
  else b.flt 0x005 1

/-- TIMEBASE (R48 to R54). The time-sync service and a follower's mirror unit write through the same operations. -/
def Blk.wrTimebase (b : Blk) (r : Nat) (new : Word) : Blk :=
  if r = 0x40 then (if tbit new 0 then b.tbLoad else b)
  else if r = 0x44 ∨ r = 0x48 then b.incWrite r new
  else if r = 0x4C then b.rateWrite new
  else if r = 0x50 then b.offsetAdj new
  else b.keep 0x005 r new

/-- ROUTER pages (R216 to R220). -/
def Blk.wrRouter (b : Blk) (p r : Nat) (new : Word) : Blk :=
  if p = 0x010 then
    let n := fld new 0 10
    if r = 0x48 then b.setBit (Reg.swpend (n / 32)) (n % 32)
    else if r = 0x4C then b.clrBit (Reg.swpend (n / 32)) (n % 32)
    else b.keep p r new
  else b.keep p r new

/-- `TASK_CMD` on the page of engine `l` (R173, R189): from a master of the pair at once, from another one as an input of the pair; on both
engines of a broken pair (R185). -/
def Blk.taskCmdWrite (b : Blk) (m l : Nat) (v : Word) : Blk :=
  let t := b.rf (Reg.taskSel l) 0 6
  let c := fld v 0 3
  if c = 0 then b
  else
    let r := if m < 16 ∧ m / 2 = l / 2 ∧ (b.joined (l / 2) = true ∨ m = l) then b.taskCmd (b.lead l) t c else b.extCmd l t c
    match r with
    | none => b.flt (0x020 + l) 0
    | some b => if b.apart l then (b.taskCmd (l + 1) t c).getD b else b

/-- Performance counters' control on an ENGINE page and the rest of it (R187, R192, R498). Every task index exists, so no binding is
refused. -/
def Blk.wrEngine (b : Blk) (m pl e r : Nat) (new : Word) : Blk :=
  if r = 0x48 then b.taskCmdWrite m e new
  else if r = 0x9C then b.ctxCmd e pl new
  else if r = 0x1C0 then b.pmCtrlWrite e new
  else b.keep (0x020 + e) r new

/-- The value of a region register goes on governing engine `l` until its next event of R89 (R233). -/
def Blk.regHold (b : Blk) (l k : Nat) : Blk :=
  let x := b.eng l
  if x.regOld.any fun y => y.1 == k then b else b.setEng l { x with regOld := x.regOld ++ [(k, b.reg k)] }

/-- REGIONS (R233, R247): an engine's own registers govern with their old values until its next event of R89. -/
def Blk.wrRegions (b : Blk) (r : Nat) (new : Word) : Blk :=
  let m := (r - 0x40) / 0x80
  let k := regKey 0x041 r
  if m < 16 then
    let b := b.regHold (b.lead m) k
    (if b.apart m then b.regHold (m + 1) k else b).setReg k new
  else b.setReg k new

/-- A MOVER page (R307 to R312). -/
def Blk.wrMover (b : Blk) (q r : Nat) (new : Word) : Blk :=
  if r < 0x100 then b.keep (0x050 + q) r new
  else
    let n := 16 * q + (r - 0x100) / 0x40
    let o := (r - 0x100) % 0x40
    if o = 0x00 then
      (if b.chState n ≠ 0 ∨ (tbit new 8 = true ∧ (b.ch n).buf ≠ []) then b.chFault n 0 else b.keep (0x050 + q) r new)
    else if o = 0x04 then b.chCmd n (fld new 0 2)
    else if o = 0x0C then (if b.chState n ≠ 0 then b.chFault n 0 else b.keep (0x050 + q) r new)
    else if o = 0x10 then (if tbit new 0 then b.chAppend n else b)
    else b.keep (0x050 + q) r new

/-- A DRIVE page (R279, R280): a change of MODE, `PCNT` or `START` of an enabled group, and a `PCNT` below 16, are refused. -/
def Blk.wrDrive (b : Blk) (h r : Nat) (new : Word) : Blk :=
  let g := 4 * h + (r - 0x100) / 0x80
  let o := (r - 0x100) % 0x80
  let p := 0x060 + h
  let old := b.reg (regKey p r)
  if o = 0x00 then
    (if b.gEn g && decide (tbit new 1 ≠ tbit old 1) then b.flt p 0 else (b.keep p r new).gUpdate g)
  else if o = 0x04 then
    (if fld new 0 20 < 16 ∨ (b.gEn g = true ∧ new ≠ old) then b.flt p 0 else b.keep p r new)
  else if o = 0x08 ∨ o = 0x0C then (if b.gEn g = true ∧ new ≠ old then b.flt p 0 else b.keep p r new)
  else if o = 0x14 then (b.keep p r new).gUpdate g
  else b.keep p r new

/-- SAMPLE, TRIP and CAPTURE (R281 to R283). -/
def Blk.wrIo (b : Blk) (p r : Nat) (new : Word) : Blk :=
  if p = 0x063 then (b.keep p r new).driveAll
  else if p = 0x064 ∧ 0x140 ≤ r ∧ r < 0x1C0 ∧ r % 0x10 = 0x0C then
    let c := (r - 0x140) / 0x10
    let b := if tbit new 0 then b.setCap c ((b.cap c).drop 1) else b
    if tbit new 1 then b.clrBit (Reg.capStat c) 4 else b
  else b.keep p r new

end Sys2Proof.Machine
end

