-- ==== Sys2Proof/Machine/PagesB.lean ====
section
/-! DEFINITION. Register pages, part two: what an accepted write does on the pages of the links, the switch, the ports, the boot and
security unit and the debug module, and what a write of 1 to a W1C bit does. -/
namespace Sys2Proof.Machine

/-- A LANE page (R389 to R391): SUBL and LPBK stand while EN = 1, and an M lane has one sublane. -/
def Blk.wrLane (b : Blk) (k r : Nat) (new : Word) : Blk :=
  let p := lanePage k
  if r = 0x40 then
    let old := b.reg (Reg.lctrlReg k)
    if (tbit old 0 && decide (fld new 1 3 ≠ fld old 1 3)) || (decide (4 ≤ k) && tbit new 1) then b.flt p 0
    else (b.keep p r new).laneEnable k (tbit old 0) (tbit new 0)
  else if r = 0x44 then (if tbit new 0 then b.laneRetire k else if tbit new 1 then b.laneRelink k else b)
  else if r = 0x90 then (if b.inConfig then b.keep p r new else b.flt p 0)
  else b.keep p r new

/-- A post of transmit queue `q` is performed, or its frames are discarded with the sequenced outputs (R14, R317, R339, R397). -/
def Blk.txPostOut (b : Blk) (q tail : Nat) : Blk :=
  if b.seqOpen then b.txPost q tail else (List.range (b.txCount q tail)).foldl (fun b _ => b.seqDrop) b

/-- SWITCH and TSN (R399, R400, R411). The head of a receive ring is the switch's. -/
def Blk.wrSwitch (b : Blk) (p r : Nat) (new : Word) : Blk :=
  if p = 0x078 then
    if r = 0x58 then b.fdbCmd new
    else if r = 0x6C then b.vlanCmd new
    else if 0x100 ≤ r ∧ r < 0x180 ∧ r % 0x10 = 4 then b.keep p r (putFld new 0 16 (b.rf (regKey p r) 0 16))
    else if 0x100 ≤ r ∧ r < 0x180 ∧ r % 0x10 = 0x0C then b.txPostOut ((r - 0x100) / 0x10) (fld new 0 16)
    else b.keep p r new
  else
    if r = 0x50 then b.strmCmd new
    else if 0x100 ≤ r ∧ r % 0x20 = 0 then (b.keep p r (andBit new 31)).gateOper ((r - 0x100) / 0x20) new
    else b.keep p r new

/-- FABRIC (R408, R411). -/
def Blk.wrFabric (b : Blk) (r : Nat) (new : Word) : Blk :=
  if 0x100 ≤ r ∧ r % 0x40 = 0x18 then b.fabIssue ((r - 0x100) / 0x40) new else b.keep 0x07A r new

/-- Is the port of SecY `k` enabled (R411)? (DEDUCED, log 113). -/
def Blk.secyPortOn (b : Blk) (k : Nat) : Bool := if k < 6 then b.rb (Reg.lctrlReg k) 0 else b.rb (Reg.ecfgReg (k - 6)) 0

/-- MACSEC and EDGE (R401, R403, R411). -/
def Blk.wrPort (b : Blk) (p r : Nat) (new : Word) : Blk :=
  if p = 0x07B then
    if r < 0xC0 then (if b.secyPortOn ((r - 0x40) / 4) then b.flt p 0 else b.keep p r new)
    else if r = 0xC4 then b.saCmd new
    else b.keep p r new
  else if r % 0x20 = 0 then b.ecfgWrite ((r - 0x40) / 0x20) new
  else b.keep p r new

/-- MEMPORT (R413, R418). -/
def Blk.wrMemport (b : Blk) (r : Nat) (new : Word) : Blk :=
  if r = 0x40 then ((b.keep 0x080 r new).mpEnable 0 (tbit new 0)).mpEnable 1 (tbit new 1)
  else if 0x100 ≤ r then (if b.inConfig then b.keep 0x080 r new else b.flt 0x080 0)
  else b.keep 0x080 r new

/-- HOST (R431, R432, R437), written by master `m` at level `pl`: the page after it, and whether the host is answered REFUSED. -/
def Blk.wrHost (b : Blk) (m pl r : Nat) (new : Word) : Blk × Bool :=
  let host := decide (m = 18)
  if r = 0x40 ∨ (0x54 ≤ r ∧ r < 0x70) then
    if decide (m < 16) && decide (pl = 3) && b.inConfig then
      let was := b.rb Reg.doipCtrl 0
      ((b.keep 0x090 r new).doipEnable was, false)
    else (b.flt 0x090 0, true)
  else if r = 0x44 then
    if host then
      let z := b.hcmd (fld new 0 4) (fld new 8 4) (fld new 16 16)
      (z.2, !z.1)
    else (b.flt 0x090 0, false)
  else if 0x100 ≤ r ∧ r < 0x200 then
    if r % 0x10 = 8 then (if host then (b, true) else (b.mailOut ((r - 0x100) / 0x10) (fld new 0 7), false))
    else (b.keep 0x090 r new, false)
  else if 0x200 ≤ r ∧ r < 0x240 then
    if host then
      let z := b.inPost ((r - 0x200) / 4) (fld new 0 7)
      (z.2, !z.1)
    else (b, false)
  else if 0x400 ≤ r ∧ r < 0x800 then
    let k := (r - 0x400) / 0x40
    if host then (if b.rb (Reg.mbInstat k) 31 || !(b.rb (Reg.mbCtrl k) 1) then (b, true) else (b.keep 0x090 r new, false))
    else (b, false)
  else if 0x800 ≤ r ∧ r < 0xC00 then
    if host then (b, true)
    else if b.rb (Reg.mbOutstat ((r - 0x800) / 0x40)) 31 then (b.flt 0x090 2, false)
    else (b.keep 0x090 r new, false)
  else (b.keep 0x090 r new, false)

/-- SECURITY and KEYS (R452, R460, R470, R472, R473). -/
def Blk.wrSecurity (b : Blk) (p m pl r : Nat) (new : Word) : Blk :=
  if p = 0x0A0 then
    if r = 0x4C then b.softReset m pl new
    else if r = 0x64 then b.fuseProg m pl new
    else if r = 0x68 then b.lcAdvance m pl new
    else if r = 0x6C then b.arbSet m pl new
    else b.keep p r new
  else if r = 0x44 then b.keyCmd (fld new 0 3)
  else b.keep p r new

/-- DEBUG (R459, R477 to R501). (DEDUCED, log 110). -/
def Blk.wrDebug (b : Blk) (m r : Nat) (new : Word) : Blk :=
  if r = 0x40 then b.keep 0x0B0 r (if b.lifecycle = 1 then new else andBit new 0)
  else if r = 0x48 ∨ r = 0x4C ∨ r = 0x50 ∨ r = 0x58 ∨ r = 0x5C then
    if !b.dbgOpen then b.dbgRefused
    else if r = 0x48 then b.haltMask 1 new
    else if r = 0x4C then b.resumeMask new
    else if r = 0x50 then b.stepMask new
    else if r = 0x58 then (if tbit new 8 then b.reformGo (fld new 0 3) else b)
    else if m = 20 ∧ fld new 0 16 = 0x5A5A then b.enterReset 6 else b
  else if r = 0x60 then b.trcCtrlWrite new
  else if r = 0x64 ∨ r = 0x68 then
    (if !b.inConfig || b.rb Reg.trcCtrl 0 || (decide (r = 0x68) && decide (0 < new.toNat) && decide (new.toNat < 256)) then b.flt 0x0B0 2
     else b.keep 0x0B0 r new)
  else if r = 0x78 then b.pmGsnap new
  else if r = 0x180 then b.pmCtrlWrite 16 new
  else if r = 0x188 then b.pmCtrlWrite 17 new
  else b.keep 0x0B0 r new

/-- What an accepted write of master `m` at level `pl` does; true where the host is answered REFUSED. -/
def Blk.wrReg (b : Blk) (m pl p r : Nat) (new : Word) : Blk × Bool :=
  if p = 0x000 then (b.wrGlobal r new, false)
  else if p = 0x001 then (b.wrPower r new, false)
  else if p = 0x002 then (b.wrSafety r new, false)
  else if p = 0x003 then (b.wrMilestone r new, false)
  else if p = 0x004 then (b.wrMirror r new, false)
  else if p = 0x005 then (b.wrTimebase r new, false)
  else if p < 0x020 then (b.wrRouter p r new, false)
  else if p < 0x030 then (b.wrEngine m pl (p - 0x020) r new, false)
  else if p = 0x040 then (if 0x60 ≤ r ∧ r < 0x78 then b.bankPwrWrite ((r - 0x60) / 4) new else b.keep p r new, false)
  else if p = 0x041 then (b.wrRegions r new, false)
  else if p < 0x054 then (b.wrMover (p - 0x050) r new, false)
  else if p < 0x062 then (b.wrDrive (p - 0x060) r new, false)
  else if p < 0x065 then (b.wrIo p r new, false)
  else if p < 0x076 then (b.wrLane (p - 0x070) r new, false)
  else if p < 0x07A then (b.wrSwitch p r new, false)
  else if p = 0x07A then (b.wrFabric r new, false)
  else if p < 0x07D then (b.wrPort p r new, false)
  else if p = 0x080 then (b.wrMemport r new, false)
  else if p = 0x090 then b.wrHost m pl r new
  else if p < 0x0A2 then (b.wrSecurity p m pl r new, false)
  else (b.wrDebug m r new, false)

/-! W1C bits. -/

/-- A quarantined source is released (R213). -/
def Blk.quarFree (b : Blk) (j : Nat) (v : Word) : Blk :=
  (List.range 32).foldl (fun b i =>
    if tbit v i && b.rb (Reg.quar j) i then
      { b.clrBit (Reg.quar j) i with router := { b.router with storm := Tab.set (fun _ => 0) b.router.storm (32 * j + i) 0 } }
    else b) b

/-- The W1C bits of `GSTAT` (R259, R261, R280): CLK clears only with `drv_refclk` present. -/
def Blk.gstatFree (b : Blk) (g : Nat) (v : Word) : Blk :=
  let b := if tbit v 5 then b.clrBit (Reg.gstat g) 5 else b
  (if tbit v 6 && !b.drive.lost then b.clrBit (Reg.gstat g) 6 else b).gUpdate g

/-- A write of `v` to the W1C bits of a register, `v` already confined to them. -/
def Blk.w1c (b : Blk) (m p r : Nat) (v : Word) : Blk :=
  let plain := b.setReg (regKey p r) (b.reg (regKey p r) &&& ~~~ v)
  if p = 0x016 then b.quarFree ((r - 0xC0) / 4) v
  else if p = 0x040 then (if tbit v 31 then b.collideClear else b)
  else if 0x060 ≤ p ∧ p < 0x062 then b.gstatFree (4 * (p - 0x060) + (r - 0x100) / 0x80) v
  else if p = 0x063 then b.tlatchWrite v
  else if p = 0x07A then (if tbit v 0 then b.peerClear (b.rf Reg.peerIdx 0 9) else b)
  else if p = 0x090 ∧ 0x100 ≤ r then
    if r % 0x10 = 4 then (if tbit v 31 && decide (m ≠ 18) then b.keep p r 0 else b)
    else (if tbit v 31 && decide (m = 18) then b.outTake ((r - 0x100) / 0x10) else b)
  else plain

end Sys2Proof.Machine
end

