-- ==== Sys2Proof/Machine/Pages.lean ====
section
/-! DEFINITION. An access to a register page (R10, R11, R525 to R534): quarters and aliases, the common header, lock and level, and
what a read returns. -/
namespace Sys2Proof.Machine

/-- How an access to a page ends: performed, no page there, level too low, refused by a lock or a rule that answers the host REFUSED. -/
inductive PgSts where
  | ok | target | priv | refused
  deriving DecidableEq, Repr

/-- The page and offset that hold a register: what a pair in Twin holds once stands on the even engine's page or in its registers (R185, R216, R233, R486), and
both M pages share `MFR_CFG` (R390). -/
def Blk.pgFold (b : Blk) (p r : Nat) : Nat × Nat :=
  if 0x020 ≤ p ∧ p < 0x030 ∧ p % 2 = 1 ∧ b.twin ((p - 0x020) / 2) = true ∧ 0x40 ≤ r ∧ r < 0x140 ∧ ¬ (0xB0 ≤ r ∧ r < 0xC0) then (p - 1, r)
  else if p = 0x017 ∧ 0x40 ≤ r then
    let s := if r < 0x100 then 4 else 0x40
    let e := if r < 0x80 then (r - 0x40) / 4 else if r < 0x100 then (r - 0x80) / 4 else (r - 0x100) / 0x40
    if e % 2 = 1 ∧ b.twin (e / 2) = true then (p, r - s) else (p, r)
  else if p = 0x041 ∧ 0x40 ≤ r ∧ r < 0x840 ∧ (r - 0x40) / 0x80 % 2 = 1 ∧ b.twin ((r - 0x40) / 0x100) = true then (p, r - 0x80)
  else if p = 0x075 ∧ r = 0x90 then (0x074, r)
  else (p, r)

/-- A page is locked (R532). -/
def Blk.locked (b : Blk) (p : Nat) : Bool := b.rb (regKey p Reg.hLock) 31

/-- A write that a lock refuses. -/
def Blk.lockRefused (b : Blk) (p : Nat) : Blk × PgSts := (b.flt p 31, .refused)

/-- A write of `PAGE_LOCK` (R532). -/
def Blk.lockWrite (b : Blk) (p : Nat) (v : Word) : Blk × PgSts :=
  let w := b.reg (regKey p Reg.hLock)
  if tbit v 31 ∧ b.locked p = false then (b.setReg (regKey p Reg.hLock) (BitVec.ofNat 32 (2 ^ 31 + fld v 0 16)), .ok)
  else if tbit v 31 = false ∧ b.locked p = true ∧ fld v 0 16 = fld w 0 16 then (b.setReg (regKey p Reg.hLock) 0, .ok)
  else b.lockRefused p

/-- Every counter of a page that clears on a read is cleared (R530). -/
def Blk.cntClear (b : Blk) (p : Nat) : Blk :=
  let b := (pageRows p).foldl (fun b r =>
    if r.acc = .rc then
      (List.range r.n1).foldl (fun b i => (List.range r.n2).foldl (fun b j => b.setReg (regKey p (r.off + r.s1 * i + r.s2 * j)) 0) b) b
    else b) b
  if p = 0x07A then b.dbTake else b

/-- The value that a write of `v` leaves in an RW register: reserved bits read zero, a reserved encoding leaves its field (R11). -/
def RegRow.merge (row : RegRow) (old v : Word) : Word :=
  let m : Word := BitVec.ofNat 32 row.mask
  row.bad.foldl (fun w f => if f.2.2.1 ≤ fld v f.1 f.2.1 ∧ fld v f.1 f.2.1 ≤ f.2.2.2 then putFld w f.1 f.2.1 (fld old f.1 f.2.1) else w)
    ((old &&& ~~~ m) ||| (v &&& m))

/-- CAPTURE's `EVT_RAW` bits stand while their FIFO is not empty (R283), a lane's PHY bit while `phy_irq` is high (R379). (DEDUCED, log 104). -/
def Blk.evtAgain (b : Blk) (p : Nat) : Blk :=
  if 0x070 ≤ p ∧ p < 0x076 ∧ (b.lane (p - 0x070)).irq = true then b.event p 4 else
  if p = 0x064 then (List.range 8).foldl (fun b c => if (b.cap c).isEmpty then b else b.event p c) b else b

/-- A plain write to the common header (R530, R532). -/
def Blk.headWrite (b : Blk) (p r : Nat) (v : Word) : Blk × PgSts :=
  let k := regKey p r
  if r = Reg.hLock then b.lockWrite p v
  else if r = Reg.hEvtRaw then ((b.setReg k (b.reg k &&& ~~~ v)).evtAgain p, .ok)
  else if r = Reg.hFault then (b.setReg k (b.reg k &&& ~~~ v), .ok)
  else if r = Reg.hCtrl ∨ r = Reg.hEvtEn ∨ r = Reg.hPriv then
    if b.locked p then b.lockRefused p
    else if r = Reg.hCtrl then (if tbit v 0 then b.cntClear p else b, .ok)
    else if r = Reg.hEvtEn then (b.setReg k v, .ok)
    else (if fld v 0 2 = 2 then b else b.setReg k (v &&& 3), .ok)
  else (b, .ok)

/-- A plain write of master `m` at level `pl` to the register at offset `r`. -/
def Blk.plainWrite (b : Blk) (m pl p r : Nat) (v : Word) : Blk × PgSts :=
  if r < 0x40 then b.headWrite p r v
  else
    match regRow p r with
    | none => (b, .ok)
    | some row =>
      let z := b.pgFold p r
      if row.acc = .ro ∨ row.acc = .rc then
        (if row.w1c = 0 then b else b.w1c m z.1 z.2 (v &&& BitVec.ofNat 32 row.w1c), .ok)
      else if b.locked p then b.lockRefused p
      else
        let new := if row.acc = .wo then v &&& BitVec.ofNat 32 row.mask else row.merge (b.reg (regKey z.1 z.2)) v
        let y := b.wrReg m pl z.1 z.2 new
        (y.1, if y.2 then .refused else .ok)

/-- A write through the set (`on`) or the clear alias (R526, R527). -/
def Blk.aliasWrite (b : Blk) (m pl p r : Nat) (on : Bool) (x : Word) : Blk × PgSts :=
  let go := fun (old : Word) => if on then old ||| x else old &&& ~~~ x
  if r = Reg.hEvtEn then
    if b.locked p then b.lockRefused p else (b.setReg (regKey p r) (go (b.reg (regKey p r))), .ok)
  else if r < 0x40 then (if r < 0x30 ∧ r % 4 = 0 then b.flt p 30 else b, .ok)
  else
    match regRow p r with
    | none => (b, .ok)
    | some row =>
      if row.acc ≠ .rwa then (b.flt p 30, .ok)
      else if b.locked p then b.lockRefused p
      else
        let old := b.reg (regKey p r)
        ((b.wrReg m pl p r (row.merge old (go old))).1, .ok)

/-- Does a write of master `m` at level `pl` reach a block of the channels 0 to 3 that is closed to it (R312)? -/
def chLocked (m pl p o : Nat) : Bool :=
  decide (p = 0x050) && decide (o < 0x3000) && decide (0x100 ≤ o % 0x1000) && decide (o % 0x1000 < 0x200) &&
  !((decide (m < 16) && decide (pl = 3)) || decide (m = 20))

/-- A write of master `m` at level `pl` to offset `o` of the slot of page `p` (R525, R529). -/
def Blk.pageWrite (b : Blk) (m pl p o : Nat) (v : Word) : Blk × PgSts :=
  if !(pageExists p) then (b, .target)
  else if !(b.pageAdmits p o pl true) then (b, .priv)
  else if chLocked m pl p o then (b.chFault ((o % 0x1000 - 0x100) / 0x40) 1, .ok)
  else if o < 0x1000 then b.plainWrite m pl p o v
  else if o < 0x2000 then b.aliasWrite m pl p (o - 0x1000) true v
  else if o < 0x3000 then b.aliasWrite m pl p (o - 0x2000) false v
  else (b, .ok)

/-! Reads. -/

/-- A bit map of the tasks of engine `l` in one state, tasks `32j` to `32j + 31`. -/
def Blk.taskMap (b : Blk) (l j : Nat) (st : TaskSt) : Word :=
  BitVec.ofNat 32 ((List.range 32).foldl (fun a i => a + bit (decide ((b.task l (32 * j + i)).st = st)) * 2 ^ i) 0)

/-- The computed registers of the page of engine `e` (R187 to R190); `l` holds its state. -/
def Blk.rdEngine (b : Blk) (e r : Nat) : Word :=
  let l := b.lead e
  let x := b.eng l
  if r = 0x40 then
    BitVec.ofNat 32 (x.cur + 64 * bit (!x.run) + 128 * bit (b.atMach l) + 256 * bit (x.run && (b.task l x.cur).byp))
  else if r = 0x4C then b.taskStat l (b.rf (Reg.taskSel e) 0 6)
  else if r = 0x50 ∨ r = 0x54 then b.taskMap l ((r - 0x50) / 4) .ready
  else if r = 0x58 ∨ r = 0x5C then b.taskMap l ((r - 0x58) / 4) .waiting
  else if r = 0x60 ∨ r = 0x64 then b.taskMap l ((r - 0x60) / 4) .halted
  else b.reg (regKey (0x020 + e) r)

/-- Thirty-two sources as a word. -/
def srcWord (j : Nat) (f : Nat → Bool) : Word := BitVec.ofNat 32 ((List.range 32).foldl (fun a i => a + bit (f (32 * j + i)) * 2 ^ i) 0)

/-- The computed registers of the ROUTER pages (R217 to R220). -/
def Blk.rdRouter (b : Blk) (p r : Nat) : Word :=
  if p = 0x010 ∧ r = 0x54 then BitVec.ofNat 32 (b.rotHead (b.rf Reg.rrIdx 0 10))
  else if p = 0x015 ∧ r < 0xC0 then srcWord ((r - 0x40) / 4) b.level
  else if p = 0x015 ∧ 0x140 ≤ r then srcWord ((r - 0x140) / 4) b.isPending
  else if p = 0x016 ∧ 0x140 ≤ r then srcWord ((r - 0x140) / 4) b.isActive
  else if p = 0x017 ∧ 0x80 ≤ r ∧ r < 0x100 then
    let l := b.lead ((r - 0x80) / 4)
    let s := (b.eng l).stack
    BitVec.ofNat 32 (s.length + (match s with
      | [] => 0
      | t :: _ => t.prio * 256) + 4096 * bit (b.closed l))
  else if p = 0x017 ∧ 0x100 ≤ r then
    let l := b.lead ((r - 0x100) / 0x40)
    match (b.eng l).stack.reverse[(r - 0x100) % 0x40 / 4]? with
    | some s => BitVec.ofNat 32 (s.src + s.task * 1024 + s.prio * 2 ^ 16 + 2 ^ 31)
    | none => 0
  else b.reg (regKey p r)

/-- The computed registers of a pair's block on the MILESTONE page (R346). -/
def Blk.rdMilestone (b : Blk) (r : Nat) : Word :=
  if r < 0x100 then b.reg (regKey 0x003 r)
  else
    let x := b.pair ((r - 0x100) / 0x40)
    let o := (r - 0x100) % 0x40
    if o = 0x0C then BitVec.ofNat 32 (x.undo.length % 2 ^ 13 + x.rels.length % 2 ^ 13 * 2 ^ 16)
    else if o = 0x10 then BitVec.ofNat 32 (x.ins.length % 2 ^ 13)
    else if o = 0x14 then BitVec.ofNat 32 x.spc
    else b.reg (regKey 0x003 r)

/-- A read of the TIMEBASE page by master `m` (R49, R51). -/
def Blk.rdTimebase (b : Blk) (m r : Nat) : Word × Blk :=
  let k := regKey 0x005 r
  if r = 0x54 then
    (b.tb.cnt.setWidth 32, { b with tb := { b.tb with hi := Tab.set (fun _ => 0) b.tb.hi m ((b.tb.cnt >>> 32).setWidth 32) } })
  else if r = 0x58 then (Tab.get (fun _ => 0) b.tb.hi m, b)
  else if r = 0x64 then (BitVec.ofInt 32 (Int.tdiv b.tb.slew (2 ^ 32)), b)
  else (b.reg k, b)

/-- The common header (R530, R532). -/
def Blk.rdHead (b : Blk) (p r : Nat) : Word :=
  let k := regKey p r
  if r = 0x00 then BitVec.ofNat 32 (pageId p)
  else if r = 0x04 then 0x00020300
  else if r = 0x08 then BitVec.ofNat 32 (pageCap p)
  else if r = Reg.hLock then b.reg k &&& 0x80000000
  else if r = Reg.hCtrl then 0
  else if r = Reg.hStat then
    BitVec.ofNat 32 (bit (b.locked p) + 2 * bit (b.evtPend p ≠ 0) + 4 * bit (b.reg (regKey p Reg.hFault) ≠ 0))
  else if r = Reg.hEvtPend then b.evtPend p
  else b.reg k

/-- What a register other than the header's reads as where the read has no effect of its own. -/
def Blk.rdReg (b : Blk) (p r : Nat) : Word :=
  if p = 0x000 ∧ r = 0x48 then b.modeFlags
  else if p = 0x003 then b.rdMilestone r
  else if p = 0x004 ∧ r = 0x48 then b.mstatWord
  else if p = 0x004 ∧ r = 0x5C then (if b.rb Reg.mcfgReg 0 then b.cfgDigest else 0)
  else if 0x010 ≤ p ∧ p < 0x020 then b.rdRouter p r
  else if 0x020 ≤ p ∧ p < 0x030 then b.rdEngine (p - 0x020) r
  else if p = 0x07A ∧ r = 0x54 then b.dbStatWord
  else if p = 0x07A ∧ r = 0x5C then b.peerStatWord
  else if p = 0x080 ∧ r = 0x44 then b.mpStatWord
  else if p = 0x0A0 ∧ r = 0x40 then b.lcWord
  else if p = 0x0A0 ∧ r = 0x58 then b.arbWord
  else if p = 0x0A0 ∧ r = 0x60 then b.fuseWord
  else if p = 0x0B0 ∧ r = 0x44 then putFld (b.reg Reg.dbgStatReg) 0 1 (bit b.dbgOpen)
  else b.reg (regKey p r)

/-- A read of master `m` at slot offset `o` of page `p`: the value and what the read does (R10, R51, R525). A pair in Twin that loads a
counter of its own reads the even engine's (R493). -/
def Blk.pageRead (b : Blk) (m p o : Nat) : Word × Blk :=
  let r := o % 0x1000
  if 0x3000 ≤ o then (0, b)
  else if r < 0x40 then (b.rdHead p r, b)
  else
    match regRow p r with
    | none => (0, b)
    | some row =>
      let z := if 0x020 ≤ p ∧ p < 0x030 ∧ p % 2 = 1 ∧ 0x140 ≤ r ∧ m < 16 ∧ m / 2 = (p - 0x020) / 2 ∧ b.joined (m / 2) = true then (p - 1, r)
        else b.pgFold p r
      if row.acc = .wo then (0, b)
      else if z.1 = 0x005 ∧ row.acc ≠ .rc then b.rdTimebase m z.2
      else if z.1 = 0x07A ∧ z.2 = 0x50 then ((b.fab.db.headD (0, 0)).1, b.dbTake)
      else if row.acc = .rc then (b.reg (regKey z.1 z.2), b.setReg (regKey z.1 z.2) 0)
      else
        let b := b.pmFresh z.1 z.2
        (b.rdReg z.1 z.2, b)

/-- A read checked as R529 checks it. -/
def Blk.pageLoad (b : Blk) (m pl p o : Nat) : Option Word × PgSts × Blk :=
  if !(pageExists p) then (none, .target, b)
  else if !(b.pageAdmits p o pl false) then (none, .priv, b)
  else
    let z := b.pageRead m p o
    (some z.1, .ok, z.2)

end Sys2Proof.Machine
end

