-- ==== Sys2Proof/Machine/ReleaseOps.lean ====
section
/-! DEFINITION. Twin pairs: the release logic and its digests (R316 to R321, R339, R353), recovery (R330 to R336, R341), retirement and
migration (R338), Milestone points and commits (R322 to R325), the joins and streams of a mirrored pair that a commit drives
(R349, R351), and the re-forming of a broken pair (R489). -/
namespace Sys2Proof.Machine

/-! Numbered outputs (R317, R320, R321). -/

/-- The class code of a numbered output. -/
def OutCls.code : OutCls → Option Nat
  | .priv => none
  | .duty => none
  | .shared => some 0
  | .control => some 1
  | .frame => some 2
  | .mailbox => some 3
  | .external => some 4
  | .fabric => some 5

/-- The digest of a numbered output of class `c` (R321). -/
def outDigest (c tgt : Nat) (data : List Byte) : Word :=
  crc32c (BitVec.ofNat 8 c :: toLe 8 tgt ++ toLe 2 data.length ++ data)

/-- Page and slot offset of a register address. -/
def pageOf (a : Nat) : Nat := (a - 0x20000000) / 0x4000
def slotOf (a : Nat) : Nat := (a - 0x20000000) % 0x4000

/-- The digest data of a Talloth operation of slot `e`, as its `OP_CMD` write `v` sends it (R408). -/
def Blk.opDigest (b : Blk) (e : Nat) (v : Word) : List Byte :=
  match b.opMsg e v with
  | some m => BitVec.ofNat 8 m.op :: BitVec.ofNat 8 m.ws :: toBe 2 m.len ++ m.payload
  | none => [v.setWidth 8, ((v >>> 8).setWidth 8) &&& 15, 0, 0]

/-- The data of frame `k` of a post up to `tail` (R321). -/
def postData (tail k : Nat) : List Byte := toLe 2 tail ++ toLe 2 k

/-- Target and data of the numbered outputs that one output of a pair makes: one, or the frames of a post. -/
def Blk.outItems (b : Blk) (o : Out) : List (Nat × List Byte) :=
  match o.act with
  | .post q tail => (List.range (b.txCount q tail.toNat)).map fun k => (q, postData tail.toNat k)
  | .page a v _ =>
    let r := slotOf a % 0x1000
    if o.cls = .mailbox then [((r - 0x100) / 0x10, b.outMsg ((r - 0x100) / 0x10) (fld v 0 7))]
    else if o.cls = .fabric then [(b.opGlobal ((r - 0x100) / 0x40), b.opDigest ((r - 0x100) / 0x40) v)]
    else [(o.tgt, o.data)]
  | _ => [(o.tgt, o.data)]

/-- A pair's release sequence counter. -/
def Blk.seqOf (b : Blk) (p c : Nat) : Nat := Tab.get (fun _ => 0) (b.pair p).seq c

/-- Set it. -/
def Blk.setSeq (b : Blk) (p c n : Nat) : Blk := b.setPair p { b.pair p with seq := Tab.set (fun _ => 0) (b.pair p).seq c n }

/-- The number after `n`. -/
def nextSeq (n : Nat) : Nat := (n + 1) % 2 ^ 32

/-- One numbered output takes its number and its release entry (R320, R328, R351). -/
def Blk.number (b : Blk) (p c tgt spc : Nat) (data : List Byte) : Blk :=
  let n := nextSeq (b.seqOf p c)
  let e : RelEntry := ⟨BitVec.ofNat 32 n, BitVec.ofNat 3 c, outDigest c tgt data, BitVec.ofNat 32 spc⟩
  let b := (b.setSeq p c n).setReg (Reg.seqLast p c) (BitVec.ofNat 32 n)
  if b.captured p then
    let b := b.setPair p { b.pair p with rels := (b.pair p).rels ++ [e] }
    if b.mirrored p then b.cwSend (.release (b.mirName p) e) else b
  else b

/-- The output at the front of the pair's queue leaves it. -/
def Blk.popOut (b : Blk) (p : Nat) : Blk :=
  b.setPair p { b.pair p with q := (b.pair p).q.drop 1, older := (b.pair p).older - 1 }

/-! Performing an output. -/

/-- A released `SEV` (R121). -/
def Blk.sevDo (b : Blk) (d : Word) : Blk :=
  (if tbit d 12 then List.range 64 else [fld d 0 6]).foldl (fun b t => b.extFlag (fld d 8 4) t) b

/-- The new value of an atomic and whether it is written (R116): 0x50 `CAS`, 0x51 `SWAPM`, 0x52 `ADDM`. -/
def atomicNew (op : BitVec 8) (w old val exp : Nat) : Option Nat :=
  if op = 0x50 then (if old = exp then some val else none)
  else if op = 0x51 then some val
  else some ((old + val) % 2 ^ (8 * w))

/-- The old value of an atomic at memory, and the memory after it (R116); `logged` is the old value that the input log gives. (DEDUCED, log 129). -/
def Blk.atomicDo (b : Blk) (p : Option Nat) (a : TwinAtomic) (logged : Option Nat) : Nat × Blk :=
  let b := b.mNotes (unalias a.addr) a.bytes 2
  let old := logged.getD (b.memNat a.addr a.bytes)
  (old, match atomicNew a.op a.bytes old (a.val.toNat % 2 ^ (8 * a.bytes)) (a.exp.toNat % 2 ^ (8 * a.bytes)) with
    | some v => b.writeMem p false a.addr (toLe a.bytes v) 2
    | none => b)

/-- The atomic that a pair has waited for is performed: the instruction completes with its old value (R540). -/
def Blk.atomicEnd (b : Blk) (l : Nat) (a : TwinAtomic) (old : Nat) : Blk :=
  let b := b.setEng l { b.eng l with atomic := none, mid := false }
  let op : Op := { len := a.len, base := a.base, din := a.pops, dout := 1 }
  let pl := b.pl l
  let pending := (b.eng l).arith.isSome
  match b.runOp l op (fun b _ _ _ => .done b [BitVec.ofNat 128 old] []) with
  | .stop b => b.atPoint l
  | .stay b => b
  | .pause b => b
  | .fin b pc post =>
    if a.rep = 0 then b.retire l op pl pending pc post
    else
      let z := b.iterate l op a.rep pl
      if z.2 then z.1.atPoint l else z.1

/-- The registers whose words a message is formed from: the slots of the FABRIC page and the OUT buffers. -/
def msgReg (p r : Nat) : Bool := (p == 0x07A && decide (0x100 ≤ r)) || (p == 0x090 && decide (0x800 ≤ r) && decide (r < 0xC00))

/-- A released register write of pair `p` (R533); the word it replaces in a message's registers is noted. -/
def Blk.pageOut (b : Blk) (p a pl : Nat) (v : Word) : Blk :=
  let r := slotOf a % 0x1000
  let k := regKey (pageOf a) r
  let b := if b.captured p && msgReg (pageOf a) r then b.setPair p { b.pair p with pg := (k, b.reg k) :: (b.pair p).pg } else b
  (b.pageWrite (2 * p) pl (pageOf a) (slotOf a) v).1

/-- What the release of an output performs (R14, R317, R339). -/
def Blk.perform (b : Blk) (p : Nat) (o : Out) : Blk :=
  match o.act with
  | .store a l => if place a = .ext ∧ b.seqOpen = false then b.seqDrop else b.performStore (2 * p) (some p) a l
  | .stores ps =>
    if (ps.any fun x => decide (place x.1 = .ext)) && !b.seqOpen then b.seqDrop
    else ps.foldl (fun b x => b.performStore (2 * p) (some p) x.1 x.2) b
  | .atomic a =>
    let z := b.atomicDo (some p) a none
    let b := if o.cls = .shared then z.2.logIn p 2 a.addr z.1 else z.2
    b.atomicEnd (2 * p) a z.1
  | .page a v pl => b.pageOut p a pl v
  | .duty n v e => b.dutyCommit n e v
  | .sev d => b.sevDo d
  | .post q tail => (b.pageWrite (2 * p) 3 0x078 (0x10C + 0x10 * q) (tail.setWidth 32)).1
  | .chan n id a l =>
    if place a = .ext then (if b.seqOpen then b.mpStore 16 (.mover n id) a l 2 else b.seqDrop.chWrote n id l.length)
    else if (b.ch n).outW && decide ((b.ch n).xfer = id) then (b.setCh n { b.ch n with outW := false }).writeBeat n a l
    else b.writeMem (some p) true a l 2
  | .chanRemote n id g l =>
    if b.seqOpen then Blk.fabFor (b.fabMover n id (g / 2 ^ 55) true (g % 2 ^ 40) l.length l) else b.seqDrop.chWrote n id l.length

/-! Owned mover channels (R306). -/

/-- The channels that pair `p` owns. -/
def Blk.ownedChans (b : Blk) (p : Nat) : List Nat := (List.range 64).filter fun n => decide (b.chOwner n = some p)

/-- The registers of a channel that a Milestone captures. -/
def chRegs (n : Nat) : List Nat :=
  [Reg.ccfg n, Reg.chStat n, Reg.desc n, Reg.posReg n, Reg.doneReg n, Reg.errAddrLo n, Reg.errAddrHi n]

/-- From detection on the pair's channels are PAUSED. -/
def Blk.pauseChans (b : Blk) (p : Nat) : Blk :=
  (b.ownedChans p).foldl (fun b n => if b.chState n = chRunning then b.chGo n chPaused else b) b

/-- At RESUMED they run on. -/
def Blk.resumeChans (b : Blk) (p : Nat) : Blk :=
  (b.ownedChans p).foldl (fun b n => if b.chState n = chPaused then b.chGo n chRunning else b) b

/-- A channel takes the captured state (R306, R331); a retired one stays retired (R301). The answers of its reads are discarded. A write
that it waited for at the point was released before the point committed: it stands, and where its answer has come since, it is performed.
(DEDUCED, log 150). -/
def Blk.restoreChan (b : Blk) (regs : List (Nat × Word)) (x : Nat × Chan) : Blk :=
  if b.chState x.1 = chRetired then b else
  let still := (b.chXfers x.1).contains x.2.xfer
  let b := b.chLeave x.1
  let b := (chRegs x.1).foldl (fun b k => match regs.find? fun r => r.1 == k with
    | some r => b.setReg k r.2
    | none => b) b
  let st := b.chState x.1
  let b := (b.setCh x.1 { x.2 with outR := false }).clrBit (Reg.chStat x.1) 5
  let b := if still then b else b.chWrote x.1 x.2.xfer (b.chOutBytes x.1).length
  b.chGo x.1 (if st = chRunning then chPaused else st)

/-! Safety records (R330, R336, R342, R343). -/

/-- A point that is taken and not committed is discarded: what the logs gained since counts from the point before. (DEDUCED, log 26). -/
def Pair.dropPoint (x : Pair) : Pair :=
  match x.pend with
  | none => x
  | some s =>
    { x with
      pend := none
      older := 0
      spc := x.spc + s.spcAt
      digest := none
      rels := x.rels.map fun e =>
        if atOrBelow e.seq.toNat (Tab.get (fun _ => 0) s.seq e.cls.toNat) then e else { e with spc := e.spc + BitVec.ofNat 32 s.spcAt }
      ins := x.ins.take s.insN ++ (x.ins.drop s.insN).map fun i => { i with spc := i.spc + s.spcAt } }

/-- Discard the pending point of a pair; the switch points behind it count from the point before, for the lag too (R355). -/
def Blk.dropPoint (b : Blk) (p : Nat) : Blk :=
  let n := (b.reg (Reg.msCount p)).toNat
  let x := b.pair p
  let at' := match x.pend with
    | some s => s.spcAt
    | none => 0
  let x := { x.dropPoint with hist := x.hist.map fun h => if h.1 = n + 1 then (n, h.2.1 + at', h.2.2) else h }
  (b.setPair p x).clrBit Reg.msStat (8 + p)

/-- `LAST_MM` and `LAST_MM_SEQ` (R343): kind, class code, number or SPC. -/
def Blk.noteMm (b : Blk) (p kind cls seq : Nat) : Blk :=
  ((b.setReg Reg.lastMm (BitVec.ofNat 32 (p + kind * 16 + cls * 256 + 2 ^ 31))).setReg Reg.lastMmSeq (BitVec.ofNat 32 seq)).setF
    (regKey pgSafety Reg.hFaultInfo) 4 3 p

/-- The class code and the number or SPC that a mismatch of kind `kind` records. -/
def Blk.mmItem (b : Blk) (p kind : Nat) : Nat × Nat :=
  let x := b.pair p
  if kind ≠ 0 then (0, x.spc)
  else match x.q with
    | [] => (0, x.spc)
    | o :: _ => match o.cls.code with
      | some c => (c, nextSeq (b.seqOf p c))
      | none => (7, o.spc)

/-! Retirement and migration (R338). -/

/-- A field of `k` that names an engine of pair `p` names the spare's engine of the same parity. -/
def Blk.redirectField (b : Blk) (p s k lo : Nat) : Blk :=
  if b.rf k lo 4 / 2 = p then b.setF k lo 4 (2 * s + b.rf k lo 4 % 2) else b

/-- A router source's targets: the bits of pair `p`'s engines move to the spare's. -/
def Blk.redirectSrc (b : Blk) (p s n : Nat) : Blk :=
  let c := b.rf (Reg.srcCfg n) (2 * p) 2
  if c = 0 then b else (b.setF (Reg.srcCfg n) (2 * p) 2 0).setF (Reg.srcCfg n) (2 * s) 2 (c ||| b.rf (Reg.srcCfg n) (2 * s) 2)

/-- The registers that name pair `p`'s engines name pair `s`'s instead. -/
def Blk.redirectRegs (b : Blk) (p s : Nat) : Blk :=
  let b := (List.range 1024).foldl (fun b n => b.redirectSrc p s n) b
  let b := (List.range 8).foldl (fun b g => b.redirectField p s (Reg.gctrlReg g) 8) b
  let b := (List.range 32).foldl (fun b n => b.redirectField p s (Reg.spCfg n) 4) b
  (List.range 64).foldl (fun b n => (b.redirectField p s (Reg.ccfg n) 4).redirectField p s (Reg.ccfg n) 22) b

/-- A pending write of a region of pair `p`'s engines stands for the same region of pair `s`'s (R89, R338). -/
def redirectKey (p s k : Nat) : Nat :=
  if Reg.regLo (2 * p) 0 ≤ k ∧ k < Reg.regLo (2 * p) 0 + 0x100 then k - Reg.regLo (2 * p) 0 + Reg.regLo (2 * s) 0 else k

/-- The spare's registers that take the retired pair's values: regions, exclusive masks, `LVLMAP`, `BYPMAP`. -/
def Blk.copyPairRegs (b : Blk) (p s : Nat) : Blk :=
  let b := (List.range 2).foldl (fun b i =>
    let b := (List.range 16).foldl (fun b r =>
      (b.setReg (Reg.regLo (2 * s + i) r) (b.reg (Reg.regLo (2 * p + i) r))).setReg (Reg.regHi (2 * s + i) r)
        (b.reg (Reg.regHi (2 * p + i) r))) b
    let b := (List.range 4).foldl (fun b j => b.setReg (Reg.lvlmap (2 * s + i) j) (b.reg (Reg.lvlmap (2 * p + i) j))) b
    (List.range 8).foldl (fun b j => b.setReg (Reg.bypmap (2 * s + i) j) (b.reg (Reg.bypmap (2 * p + i) j))) b) b
  let b := (List.range 3).foldl (fun b j => b.setReg (Reg.excl s j) (b.reg (Reg.excl p j))) b
  (List.range 6).foldl (fun b c => b.setReg (Reg.seqLast s c) (b.reg (Reg.seqLast p c))) b

/-- Does a spare stand by for pair `p` (R338)? (DEDUCED, log 48). -/
def Blk.spareFor (b : Blk) (p : Nat) : Option Nat :=
  let s := b.rf Reg.pairCfg 8 3
  if b.rb Reg.pairCfg 11 && decide (s ≠ p) && !(b.retired s) && !(b.rb Reg.twin 27) && b.twin s && (b.pair p).img.isSome then some s
  else none

/-- The retired pair's tasks move to the spare, which recovers from its last committed image and logs (R338). (DEDUCED, log 48). -/
def Blk.migrate (b : Blk) (p s : Nat) : Blk :=
  let x := b.pair p
  let b := ((b.setF Reg.twin 24 3 p).setBit Reg.twin 27).copyPairRegs p s
  let b := (b.pauseChans p).redirectRegs p s
  let y : Pair := { img := x.img, undo := x.undo, mv := x.mv, rels := x.rels, ins := x.ins, pg := x.pg, detSpc := x.detSpc
                    heldIn := x.heldIn, join := bit (decide (b.sys.base = 6) && b.mirPair s), seg := some (x.seg.getD p), undoAt := x.undoAt, relAt := x.relAt, inAt := x.inAt, imgB := x.imgB }
  let b := b.setPair s { y with phase := .rollback }
  let b := ((b.setBit Reg.twin (8 + s)).clrBit Reg.msStat s).setPair p { x with img := none, undo := [], rels := [], ins := [], mv := [], pg := [], heldIn := [] }
  b.showMode

/-- A permanent fault of a pair (R337, R338). -/
def Blk.pairFail (b : Blk) (p : Nat) : Blk :=
  let b := b.dropPoint p
  let x := b.pair p
  let b := b.setPair p { x with q := [], phase := .live, detSpc := if x.phase = .live then x.spc else x.detSpc }
  let b := [2 * p, 2 * p + 1].foldl (fun b l => b.setEng l { b.eng l with atomic := none, sel := none, selEv := false, seen := [] }) b
  let b := ((b.setBit Reg.twin (16 + p)).clrBit Reg.twin (8 + p)).setF (regKey pgSafety Reg.hFaultInfo) 4 3 p
  let b := if b.rb Reg.mcfgReg 0 && b.rb Reg.mcfgReg (8 + b.mirName p) then b.pairReady p false else b
  let b := b.permanent
  match b.spareFor p with
  | some s => b.migrate p s
  | none => (b.safeHold 3).showMode

/-! Mismatch (R330, R336, R341, R354). -/

/-- Recovery begins (R330). -/
def Blk.recover (b : Blk) (p : Nat) : Blk :=
  let b := b.dropPoint p
  let x := b.pair p
  let b := b.setPair p { x with q := [], phase := .rollback, detSpc := x.spc, since := some 0 }
  let b := b.setEng (2 * p) { b.eng (2 * p) with fbuf := [], atomic := none, sel := none, selEv := false, seen := [], mid := false }
  let b := (((b.transient).setBit Reg.twin (8 + p)).clrBit Reg.msStat p).event pgSafety 0
  (b.pauseChans p).showMode.sleepAbort 5

/-- Does R341 apply: no committed Milestone serves a mismatch of pair `p`, in a mode other than Mirror Follower? -/
def Blk.noTarget (b : Blk) (p : Nat) : Bool :=
  decide (b.sys.base ≠ 7) && ((b.pair p).img.isNone || b.inConfig || decide (b.sys.base = 2) || (b.sys.hold && !b.sys.ran))

/-- A twin mismatch of kind `kind` (R343). A pair that no image serves in Mirror Follower, an unmirrored one, discards the compared item and goes
on: R21 and R341 take it nowhere. (DEDUCED, log 31). -/
def Blk.mismatch (b : Blk) (p kind : Nat) : Blk :=
  let x := b.pair p
  if !(b.twin p) || b.retired p || decide (x.phase = .rollback) then b
  else
    let it := b.mmItem p kind
    let b := b.noteMm p kind it.1 it.2
    if x.phase = .follow then
      if x.since.isSome then ((b.event pgSafety 0).pairFail p)
      else (b.setPair p { x with since := some 0 }).event pgSafety 0 |>.diverge p
    else if b.noTarget p then b.enterReset 5
    else if b.broken p then (b.popOut p).event pgSafety 0
    else if x.img.isNone then ((b.popOut p).event pgSafety 0).transient
    else if x.since.isSome then (b.event pgSafety 0).pairFail p
    else b.recover p

/-- A chaff output does not agree with the log, or has no entry there (R336). -/
def Blk.chaffFail (b : Blk) (p c : Nat) : Blk :=
  (((b.noteMm p 4 c (nextSeq (b.seqOf p c))).flt pgSafety 2).event pgSafety 0).pairFail p

/-- The completion watchdog (R319). -/
def Blk.compareStuck (b : Blk) (p : Nat) : Blk :=
  if b.twin p && !(b.broken p) && !(b.retired p) then ((b.noteMm p 5 0 (b.pair p).spc).flt pgSafety 3).pairFail p else b

/-! Release (R318, R332, R353, R397). -/

/-- The release entry or RELEASE record of a class and number. -/
def Pair.entry (x : Pair) (c n : Nat) : Option RelEntry :=
  x.rels.find? fun e => decide (e.cls.toNat = c) && decide (e.seq.toNat = n)

/-- The entries of class Frame from number `n` on, one after the other, that carry the switch-point count `spc`; `k` bounds them. -/
def Pair.posted (x : Pair) (spc n : Nat) : Nat → List RelEntry
  | 0 => []
  | k + 1 => match x.entry 2 n with
    | some e => if e.spc = BitVec.ofNat 32 spc then e :: x.posted spc (nextSeq n) k else []
    | none => []

/-- The block as the messages of a replayed pair read it. (DEDUCED, log 118). -/
def Blk.asReplayed (b : Blk) (p : Nat) : Blk := (b.pair p).shad.foldl (fun b x => b.setReg x.1 x.2) b

/-- A replayed write of a message's register. (DEDUCED, log 118). -/
def Blk.shadWrite (b : Blk) (p : Nat) (o : Out) : Blk :=
  match o.act with
  | .page a v _ =>
    let r := slotOf a % 0x1000
    if msgReg (pageOf a) r then
      b.setPair p { b.pair p with shad := (b.pair p).shad.filter (fun x => x.1 != regKey (pageOf a) r) ++ [(regKey (pageOf a) r, v)] }
    else b
  | _ => b

/-- The numbers and digests that a regenerated output should have, beside the entries it should meet: none where an entry is not
there. -/
def Blk.chaffItems (b : Blk) (p : Nat) (o : Out) (c : Nat) : List (Option RelEntry × Nat × Nat × List Byte) :=
  let n := nextSeq (b.seqOf p c)
  match o.act with
  | .post q tail =>
    let es := (b.pair p).posted o.spc n 4096
    (List.range es.length).map fun k => (es[k]?, (n + k) % 2 ^ 32, q, postData tail.toNat k)
  | _ => ((b.asReplayed p).outItems o).map fun d => ((b.pair p).entry c n, n, d.1, d.2)

/-- Do the entries agree with the regenerated output? -/
def chaffOk (c : Nat) (l : List (Option RelEntry × Nat × Nat × List Byte)) : Bool :=
  l.all fun x => match x.1 with
    | some e => decide (e.seq.toNat = x.2.1) && decide (e.digest = outDigest c x.2.2.1 x.2.2.2)
    | none => false

/-- The logged value of a Shared atomic, and the log behind it. (DEDUCED, log 125). -/
def Pair.loggedAtomic (x : Pair) (addr : Nat) : Option (Nat × List InEntry) :=
  match x.cursor with
  | i :: rest => if i.kind = 2 ∧ i.aux = BitVec.ofNat 64 addr then some (i.data.toNat, rest) else none
  | [] => none

/-- Move a class's counter past `n` outputs. -/
def Blk.skipSeq (b : Blk) (p c n : Nat) : Blk := b.setSeq p c ((b.seqOf p c + n) % 2 ^ 32)

/-- A chaff output in a replay: checked and not performed; a Shared atomic returns its logged value. -/
def Blk.chaffOut (b : Blk) (p c : Nat) (o : Out) : Blk :=
  let l := b.chaffItems p o c
  if !(chaffOk c l) then b.chaffFail p c
  else
    let b := ((b.skipSeq p c l.length).popOut p).shadWrite p o
    match o.act with
    | .atomic a =>
      (match (b.pair p).loggedAtomic a.addr with
       | some (v, rest) => (b.setPair p { b.pair p with cursor := rest }).atomicEnd (2 * p) a v
       | none => b.chaffFail p c)
    | .chan n id _ l => b.chWrote n id l.length
    | .chanRemote n id _ l => b.chWrote n id l.length
    | _ => b

/-- Have the RELEASE records of all that a follower's pair made up to SPC `s` of its present interval come: one of what it made later has,
or the mark of its next point? Records come in the order in which the primary releases (R318, R350). -/
def Pair.pastRel (x : Pair) (s : Nat) : Bool :=
  x.mark.isSome || decide (0 < x.older) || x.rels.any fun e => decide (s < e.spc.toNat)

/-- An output of a follower's mirrored pair (R353, R356): held until its record is there, checked, performed where its class is local. (DEDUCED, log 125). -/
def Blk.followOut (b : Blk) (p c : Nat) (o : Out) : Blk :=
  let l := b.chaffItems p o c
  let wait := match o.act with
    | .post _ _ => l.isEmpty && !((b.pair p).pastRel o.spc)
    | _ => l.any fun x => x.1.isNone
  if wait then b
  else if !(chaffOk c l) then b.diverge p
  else
    let n := l.length
    let b := b.skipSeq p c n
    let b := (b.setReg (Reg.seqLast p c) (BitVec.ofNat 32 (b.seqOf p c))).popOut p
    let b := b.setPair p { b.pair p with rels := (b.pair p).rels.filter fun e => !(l.any fun x => x.1 == some e) }
    match o.act with
    | .atomic a =>
      (match (b.pair p).loggedAtomic a.addr with
       | some (v, rest) => ((b.setPair p { b.pair p with cursor := rest }).atomicDo (some p) a (some v)).2.atomicEnd (2 * p) a v
       | none => b.diverge p)
    | .chan n id _ l => b.chWrote n id l.length
    | .chanRemote n id _ l => b.chWrote n id l.length
    | .post q tail => b.txSkip q tail.toNat
    | _ => if o.cls = .shared ∨ o.cls = .control then b.perform p o else b

/-- The release of the output at the front of pair `p`'s queue (R318): both engines' copies agree. -/
def Blk.releaseOut (b : Blk) (p : Nat) : Blk :=
  let x := b.pair p
  match x.q with
  | [] => b
  | o :: _ =>
    if !(b.twin p) || b.retired p || decide (x.phase = .rollback) then b
    else match o.cls.code with
      | none => if o.cls = .duty ∧ x.phase = .replay then b.popOut p else (b.popOut p).perform p o
      | some c =>
        if x.phase = .follow then b.followOut p c o
        else if atOrBelow (nextSeq (b.seqOf p c)) (b.reg (Reg.seqLast p c)).toNat then b.chaffOut p c o
        else if x.phase = .replay || (b.mir.taking && b.mirPair p) then b
        else
          let b := (b.outItems o).foldl (fun b d => b.number p c d.1 o.spc d.2) b
          (b.popOut p).perform p o

/-- How one comparison ended (R316). -/
def Blk.compared (b : Blk) (p : Nat) (c : Compare) : Blk :=
  match c with
  | .agree => b.releaseOut p
  | .output => if (b.pair p).q.isEmpty then b else b.mismatch p 0
  | .exception => b.mismatch p 1
  | .digest => b.mismatch p 2
  | .doubleFault => b.mismatch p 3

end Sys2Proof.Machine
end

