-- ==== Sys2Proof/Machine/MilestoneOps.lean ====
section
/-! DEFINITION. Milestones and the streams of a mirrored pair: points and commits (R322 to R325), rollback and RESUMED (R331 to R333),
the join and the records that commits send (R349, R351), the follower's records and takeover (R353 to R365), re-forming (R489). -/
namespace Sys2Proof.Machine

/-! Snapshots (R323). -/

/-- The release sequence counters at a point: those of the outputs that still wait for their release included (R320, R323). (DEDUCED, log 23). -/
def Blk.seqAfter (b : Blk) (p : Nat) : Tab Nat :=
  (b.pair p).q.foldl (fun t o =>
    match o.cls.code with
    | some c => Tab.set (fun _ => 0) t c ((Tab.get (fun _ => 0) t c + (b.outItems o).length) % 2 ^ 32)
    | none => t) (b.pair p).seq

/-- The snapshot of pair `p`. (DEDUCED, log 23). -/
def Blk.snapshot (b : Blk) (p : Nat) : Snap Chan :=
  let x := b.pair p
  let own := b.ownedChans p
  { engine := { b.eng (2 * p) with extReq := [], extGot := [], extBad := none, atomic := none }
    tasks := (List.range 64).map fun t => (t, b.task (2 * p) t)
    regs := own.flatMap fun n => (chRegs n).map fun k => (k, b.reg k)
    seq := b.seqAfter p
    chans := own.map fun n => (n, b.ch n)
    tb := b.tb.cnt
    undoN := x.undo.length, mvN := x.mv.length, relN := x.rels.length, insN := x.ins.length, pgN := x.pg.length
    spcAt := x.spc, stepAt := x.steps }

/-- The Ready order of a snapshot's tasks as ranks, which both blocks of a mirrored pair number alike. -/
def Snap.ranked (s : Snap Chan) : Snap Chan :=
  { s with tasks := s.tasks.map (fun x => (x.1, { x.2 with readyAt := (s.tasks.filter fun y => decide (y.2.readyAt < x.2.readyAt)).length }))
           tb := 0, undoN := 0, mvN := 0, relN := 0, insN := 0, pgN := 0, spcAt := 0, stepAt := 0 }

/-- The digest of an image (R324). -/
def imageDigest (s : Snap Chan) : Word := crc32c (Config.imageBytes s.ranked)

/-! Points (R322, R325, R353, R355). -/

/-- The point is taken. A primary's mirrored pair stops instead while the follower has not acknowledged the point before (R355). -/
def Blk.takePoint (b : Blk) (p : Nat) : Blk :=
  if !(b.pointOk p) then b
  else if b.mirrored p && decide ((b.pair p).acked.1 ≠ (b.reg (Reg.msCount p)).toNat) then b.lagPause p
  else
    let x := b.pair p
    let y := { x with pend := some (b.snapshot p), spc := 0, take := false, older := x.q.length }
    let y := match x.phase, x.mark with
      | .follow, some m => { y with mark := none, digest := some m.2.2.2, cursor := x.nextIns, nextIns := [], nextOn := false
                                    rels := x.rels ++ x.nextRel, nextRel := [], hor := x.nextHor, nextHor := 0 }
      | _, _ => y
    (b.setPair p y).setBit Reg.msStat (8 + p)

/-! What a commit sends (R349, R351). -/

/-- The image in IMAGE records of 1 KiB. -/
def Blk.sendImage (b : Blk) (p : Nat) (s : Snap Chan) : Blk :=
  let l := Config.imageBytes s
  (List.range 48).foldl (fun b i =>
    b.cwSend (.image (b.mirName p) (1024 * i) ((l.drop (1024 * i) ++ List.replicate 1024 0).take 1024))) b

/-- A line of memory in a LINE record. -/
def Blk.sendLine (b : Blk) (p line : Nat) : Blk := b.cwSend (.line (b.mirName p) line (b.bytes (line * 64) 64))

/-- Every line of the pair's exclusive banks. -/
def Blk.exclLines (b : Blk) (p : Nat) : List Nat :=
  ((List.range 96).filter fun k => b.exclBit p k).flatMap fun k => (List.range 4096).map fun i => k * 4096 + i

/-- The mark of a committed point. (DEDUCED, log 120). -/
def Blk.sendMark (b : Blk) (p : Nat) (s : Snap Chan) : Blk :=
  b.cwSend (.msmark (b.mirName p) s.spcAt (b.reg (Reg.msCount p)) s.tb (imageDigest s))

/-- Does another pair's join go on, for which pair `p`'s waits (R349)? -/
def Blk.joinBusy (b : Blk) (p : Nat) : Bool := (List.range 8).any fun i => decide (i ≠ p) && b.mirPair i && decide ((b.pair i).join = 2)

/-- The part of the join, or of the stream, that a commit of pair `p` brings on the primary. (DEDUCED, log 120). -/
def Blk.commitSends (b : Blk) (p : Nat) (s : Snap Chan) : Blk :=
  let x := b.pair p
  if !(decide (b.sys.base = 6) && b.mirPair p) then b
  else if x.join = 1 then
    if b.joinBusy p then b else
    ((b.exclLines p).foldl (fun b i => b.sendLine p i) (b.sendImage p s)).setPair p { x with join := 2, marked := [] }
  else if x.join = 2 then
    if x.marked = [] then
      let b := (b.sendImage p s).sendMark p s
      let b := x.ins.foldl (fun b i => b.cwSend (.input (b.mirName p) i)) b
      let b := x.rels.foldl (fun b e => b.cwSend (.release (b.mirName p) e)) b
      let b := b.setPair p { x with join := 3, total := 0, hist := [], acked := ((b.reg (Reg.msCount p)).toNat, 0) }
      (b.lagOver p).pairReady p true
    else (x.marked.foldl (fun b i => b.sendLine p i) b).setPair p { x with marked := [] }
  else if x.join = 3 then b.sendMark p s
  else b

/-! Commits (R324). -/

/-- The logs after a commit: what stood there at the point is discarded. (DEDUCED, log 26). -/
def Pair.afterCommit (x : Pair) (s : Snap Chan) : Pair :=
  { x with
    img := some s
    pend := none
    digest := none
    undo := x.undo.take (x.undo.length - s.undoN)
    mv := x.mv.take (x.mv.length - s.mvN)
    rels := x.rels.drop s.relN
    ins := x.ins.drop s.insN
    pg := x.pg.take (x.pg.length - s.pgN)
    steps := x.steps - s.stepAt
    since := match x.since with
      | some n => if n < 9 then some (n + 1) else none
      | none => none }

/-- The pending point of pair `p` commits. -/
def Blk.commitPoint (b : Blk) (p : Nat) (s : Snap Chan) : Blk :=
  let b := b.logsLeave p s.undoN s.relN s.insN
  let b := b.setPair p { b.pair p with imgB := !(b.pair p).imgB }
  let b := (b.setPair p ((b.pair p).afterCommit s)).clrBit Reg.msStat (8 + p)
  let b := b.setReg (Reg.msCount p) (b.reg (Reg.msCount p) + 1)
  let b := (b.setReg (Reg.msTbLo p) (s.tb.setWidth 32)).setReg (Reg.msTbHi p) (BitVec.ofNat 32 (s.tb.toNat / 2 ^ 32))
  (b.event 0x003 p).commitSends p s

/-- The image of the pending point is written and the two engines' digests compared: agreement commits it. A follower's pair also
compares its digest with the mark's (R353). The outputs made before the point leave first, so that none is lost (R334). (DEDUCED, log 116). -/
def Blk.pointDone (b : Blk) (p : Nat) (agree : Bool) : Blk :=
  let x := b.pair p
  match x.pend with
  | none => b
  | some s =>
    let b := b.imagePut p 0 (Config.imageBytes s)
    if 0 < x.older then b
    else if !agree then b.mismatch p 2
    else if x.phase = .follow ∧ x.digest ≠ none ∧ x.digest ≠ some (imageDigest s) then b.diverge p
    else b.commitPoint p s

/-! Rollback and RESUMED (R331 to R333). -/

/-- Every undo entry goes back to its line, newest first. -/
def Blk.undoAll (b : Blk) (l : List UndoEnt) : Blk := l.foldl (fun b u => b.writeMem none false (u.line * 64) u.data 4) b

/-- The registers of a message as they stood at the rollback target. -/
def Pair.targetWords (x : Pair) : List (Nat × Word) :=
  x.pg.foldl (fun l w => l.filter (fun y => y.1 != w.1) ++ [w]) []

/-- A snapshot is loaded into the engines of pair `p`. (DEDUCED, log 28). -/
def Blk.loadSnap (b : Blk) (p : Nat) (s : Snap Chan) : Blk :=
  let x := b.eng (2 * p)
  let b := b.setEng (2 * p) { s.engine with haltReq := x.haltReq, haltWhy := x.haltWhy, halted := x.halted, atomic := none }
  let b := s.tasks.foldl (fun b t => b.setTask (2 * p) t.1 t.2) b
  s.chans.foldl (fun b c => b.restoreChan s.regs c) b

/-- Rollback is complete and replay begins. (DEDUCED, log 28). -/
def Blk.rollbackDone (b : Blk) (p : Nat) : Blk :=
  let x := b.pair p
  match x.phase, x.img with
  | .rollback, some s =>
    let b := (b.undoAll x.undo).loadSnap p s
    let b := if b.migrated (b.rf Reg.twin 24 3) && decide (b.rf Reg.pairCfg 8 3 = p) then
        let m := b.rf Reg.twin 24 3
        let x := b.eng (2 * p)
        (b.redirectRegs m p).setEng (2 * p) { x with regOld := x.regOld.map fun y => (redirectKey m p y.1, y.2) }
      else b
    let y := b.pair p
    let b := b.setPair p { y with seq := s.seq, spc := 0, steps := 0, cursor := y.ins, phase := .replay, q := [], shad := y.targetWords }
    b.refetch (2 * p)
  | _, _ => b

/-- RESUMED, `ns` after detection (R333). -/
def Blk.resumed (b : Blk) (p ns : Nat) : Blk :=
  if b.replayEnd p then
    let b := b.setPair p { b.pair p with phase := .live, shad := [], take := true }
    let b := (((b.setBit Reg.msStat p).clrBit Reg.twin (8 + p)).event 0x003 (8 + p)).event pgSafety 3
    ((b.setReg (Reg.recNs p) (BitVec.ofNat 32 ns)).resumeChans p).showMode
  else b

/-! Re-forming a pair (R489). -/

/-- The even engine's state stands on the odd engine too. -/
def Blk.copyOdd (b : Blk) (p : Nat) : Blk :=
  let b := (List.range 64).foldl (fun b t => b.setTask (2 * p + 1) t (b.task (2 * p) t)) b
  b.setEng (2 * p + 1) (b.eng (2 * p))

/-- The re-forming of pair `p` is complete. -/
def Blk.reformDone (b : Blk) (p : Nat) : Blk :=
  if b.tap.ref ≠ some p then b
  else
    let b := { b with tap := { b.tap with ref := none } }.clrBit Reg.dbgStatReg 1
    let x := b.pair p
    let b := if b.sys.ran && !b.inConfig && decide (b.sys.base ≠ 2) then
        let s := { b.snapshot p with undoN := x.undo.length, insN := x.ins.length, relN := x.rels.length }
        let b := (b.setPair p { x with q := [], pend := some s, phase := .live, seq := x.seq }).commitPoint p s
        let b := b.logsOut p
        b.setPair p { b.pair p with undo := [], mv := [], rels := [], ins := [], pg := [], spc := 0, steps := 0, cursor := [], shad := [], take := false }
      else b.setPair p { x with q := [] }
    let b := (b.copyOdd p).clrBit Reg.twin p
    (if b.sys.base = 7 then b.resyncPair p else b.rejoin p).showMode

/-! The peer's records (R348, R349, R353 to R356). -/

/-- A HELLO (R348). A primary whose peer is new joins its pairs again (R365). A takeover takes no record (R359). (DEDUCED, log 62). -/
def Blk.helloIn (b : Blk) (role : Bool) (ver dig : Word) : Blk :=
  if !(b.rb Reg.mcfgReg 0) || b.mir.taking then b
  else
    let b := { b with mir := { b.mir with hello := some (role, ver, dig) } }.setReg Reg.peerDigest dig
    let b := if dig = b.cfgDigest then b else b.flt 0x004 1
    if b.sys.base = 6 then
      let b := b.helloSend
      (List.range 8).foldl (fun b p => if b.mirPair p then
          ((b.setPair p { b.pair p with join := 1, marked := [] }).lagOver p).pairReady p false else b) b
    else b

/-- Does this block take records of pair `p` from a primary? (DESIGN CHOICE, log 119). -/
def Blk.takesFrom (b : Blk) (p : Nat) : Bool :=
  decide (b.sys.base = 7) && b.mirPair p && !b.mir.taking && decide ((b.pair p).phase = .follow)

/-- Is the pair's image loaded, so that it replays? -/
def Blk.inStep (b : Blk) (p : Nat) : Bool := b.takesFrom p && decide ((b.pair p).join = 3)

/-- The latest switch point known moves on. -/
def Pair.known (x : Pair) (s : Nat) : Pair := { x with hor := Nat.max x.hor s }

/-- The latest switch point known of the interval after the next point moves on; that interval has begun. -/
def Pair.knownNext (x : Pair) (s : Nat) : Pair := { x with nextOn := true, nextHor := Nat.max x.nextHor s }

/-- An INPUT record (R353): an entry whose switch point lies before the last one known belongs to the interval after the next point.
(DEDUCED, log 121). -/
def Blk.inputIn (b : Blk) (p : Nat) (e : InEntry) : Blk :=
  if !(b.inStep p) then b
  else
    let x := b.pair p
    let next := x.nextOn || x.mark.isSome || decide (e.spc < x.hor)
    let b := b.setPair p (if next then { x with nextIns := x.nextIns ++ [e] }.knownNext e.spc
      else { x with cursor := x.cursor ++ [e] }.known e.spc)
    b.replayIn p 8

/-- A RELEASE record (R353): after the mark of the next point it belongs to the interval behind that point. (DEDUCED, log 121). -/
def Blk.releaseIn (b : Blk) (p : Nat) (e : RelEntry) : Blk :=
  if !(b.inStep p) then b
  else
    let x := b.pair p
    b.setPair p (if x.mark.isSome then { x with nextRel := x.nextRel ++ [e] }.knownNext e.spc.toNat
      else if x.nextOn then { x with rels := x.rels ++ [e] } else { x with rels := x.rels ++ [e] }.known e.spc.toNat)

/-- A HORIZON record (R353). (DEDUCED, log 121). -/
def Blk.horizonIn (b : Blk) (p s : Nat) : Blk :=
  if !(b.inStep p) then b
  else
    let x := b.pair p
    b.setPair p (if x.nextOn || x.mark.isSome || decide (s < x.hor) then x.knownNext s else x.known s)

/-- The bytes of the image that IMAGE records have brought, whole or not at all. -/
def Pair.imageGot (x : Pair) : Option (List Byte) :=
  if (List.range 48).all fun i => x.imgBuf.any fun y => y.1 == 1024 * i then
    some ((List.range 48).flatMap fun i => match x.imgBuf.find? fun y => y.1 == 1024 * i with
      | some y => y.2
      | none => [])
  else none

/-- The join of pair `p` is complete: it replays from the image on (R349, R354). (DEDUCED, log 122). -/
def Blk.joinLoad (b : Blk) (p : Nat) (s : Snap Chan) (count : Word) : Blk :=
  let b := ((b.logsOut p).imagePut p 0 (Config.imageBytes s)).loadSnap p s
  let x := b.pair p
  let b := b.setPair p { x with img := some s, pend := none, undo := [], mv := [], rels := [], ins := [], pg := [], shad := [], q := []
                                seq := s.seq, spc := 0, steps := 0, cursor := [], nextIns := [], nextRel := [], nextHor := 0, nextOn := false
                                older := 0, imgB := !x.imgB, mark := none, digest := none, hor := 0, imgBuf := [], join := 3, phase := .follow }
  let b := (List.range 6).foldl (fun b c => b.setReg (Reg.seqLast p c) (BitVec.ofNat 32 (Tab.get (fun _ => 0) s.seq c))) b
  ((b.setReg (Reg.msCount p) count).refetch (2 * p)).pairReady p true

/-- The mark of the next point, at SPC `s`: what was taken for the present interval and lies behind `s` belongs to the next. (DEDUCED, log 121). -/
def Pair.withMark (x : Pair) (s : Nat) (m : Nat × Word × BitVec 64 × Word) : Pair :=
  let late := x.cursor.filter fun e : InEntry => decide (s < e.spc)
  let y := { x with mark := some m, cursor := x.cursor.filter (fun e : InEntry => decide (e.spc ≤ s)), nextIns := late ++ x.nextIns
                    rels := x.rels.filter (fun e : RelEntry => decide (e.spc.toNat ≤ s))
                    nextRel := x.rels.filter (fun e : RelEntry => decide (s < e.spc.toNat)) ++ x.nextRel }
  if s < x.hor then { y.knownNext x.hor with hor := s } else y.known s

/-- An MSMARK record (R349, R353): the end of a join, or the next point. (DEDUCED, log 122). -/
def Blk.markIn (b : Blk) (p s : Nat) (count : Word) (tb : BitVec 64) (dig : Word) : Blk :=
  if !(b.takesFrom p) then b
  else
    let x := b.pair p
    if x.join ≠ 3 then
      match x.imageGot.bind Config.imageState with
      | some im => b.joinLoad p im count
      | none => b.resyncPair p
    else if x.mark.isSome || decide (s < x.spc) then b.diverge p
    else b.setPair p (x.withMark s (s, count, tb, dig))

/-- A LINE record (R349). -/
def Blk.lineIn (b : Blk) (p line : Nat) (data : List Byte) : Blk :=
  if b.takesFrom p && decide ((b.pair p).join ≠ 3) then b.writeMem none false (line * 64) (data.take 64) 4 else b

/-- A follower's pair `p` moves to the spare, where one stands by: the primary has migrated it (R364). Pair `p` runs nothing more.
(DESIGN CHOICE, log 119). -/
def Blk.followMove (b : Blk) (p : Nat) : Blk :=
  let s := b.rf Reg.pairCfg 8 3
  if !(b.rb Reg.pairCfg 11) || decide (s = p) || b.rb Reg.twin 27 || b.retired s || !(b.joined s) then b
  else
    let b := (((b.setF Reg.twin 24 3 p).setBit Reg.twin 27).copyPairRegs p s).redirectRegs p s
    let b := [2 * p, 2 * p + 1].foldl (fun b l =>
      (List.range 64).foldl (fun b t => b.setTask l t { b.task l t with st := .idle, req := none })
        (b.setEng l { b.eng l with run := false, atomic := none, extReq := [], extGot := [], mid := false })) b
    (b.setPair s { b.pair s with join := 1, phase := .follow }).setPair p {}

/-- IMAGE records come for a pair that is in step: the primary joins it afresh, and may have migrated it (R354, R364). Which of the two it
is no record says. (DESIGN CHOICE, log 119). -/
def Blk.joinAgain (b : Blk) (p : Nat) : Blk :=
  let move := b.freeVal.getLsbD 0
  let b := b.freeNext.joinAnew p
  if move then b.followMove p else b

/-- Bytes `off` on of the image for pair `p` come. -/
def Blk.imagePart (b : Blk) (p off : Nat) (data : List Byte) : Blk :=
  let x := b.pair p
  b.setPair p { x with join := 2, imgBuf := x.imgBuf.filter (fun y => y.1 != off) ++ [(off, data)] }

/-- An IMAGE record (R349) for mirrored pair `n`. -/
def Blk.imageIn (b : Blk) (n off : Nat) (data : List Byte) : Blk :=
  let p := b.mirHome n
  if !(b.takesFrom p) then b
  else if (b.pair p).join ≠ 3 then b.imagePart p off data
  else
    let b := b.joinAgain p
    b.imagePart (b.mirHome n) off data

/-- A TIME record (R356): the mirror unit brings the counter to the primary's, as far as the record's latency, at most 1.0 µs, and 20 ns
leave it; how is not the spec's, so the rate and the part of the offset that these limits leave open are free. (DESIGN CHOICE, log 126). -/
def Blk.timeIn (b : Blk) (t : BitVec 64) : Blk :=
  if b.sys.base ≠ 7 ∨ b.mir.taking = true then b
  else
    let r := (b.freeVal.setWidth 32 : Word).toInt
    let b := b.freeNext.setReg Reg.rateAdj (BitVec.ofInt 32 (if 2147483 < r then 2147483 else if r < -2147483 then -2147483 else r))
    let d := (t - b.tb.cnt).toInt + ((b.freeVal.toNat % 1041 : Nat) : Int) - 20
    let d := if 1000000 < d then 1000000 else if d < -1000000 then -1000000 else d
    { b.freeNext with tb := { b.tb with slew := d * 2 ^ 32 } }

/-- Is the switch point with Milestone count `c` and SPC `s` at or before the one that an ACK names? Counts are in serial order (R320). -/
def reached (count : Word) (s : Nat) (c s' : Nat) : Bool :=
  if c % 2 ^ 32 = count.toNat then decide (s' ≤ s) else atOrBelow c count.toNat

/-- The lag after an acknowledgement (R355): the steps up to the switch point it names no longer count. A stopped pair goes on when neither
case of R355 holds any more. (DEDUCED, log 61). -/
def Blk.ackIn (b : Blk) (p s : Nat) (count : Word) : Blk :=
  if !(decide (b.sys.base = 6) && b.mirPair p) then b
  else
    let x := b.pair p
    let done := (x.hist.filter fun h => reached count s h.1 h.2.1).foldl (fun m h => Nat.max m h.2.2) 0
    let x := { x with acked := (count.toNat, s), total := x.total - done
                      hist := (x.hist.filter fun h => decide (done < h.2.2)).map fun h => (h.1, h.2.1, h.2.2 - done) }
    let b := b.setPair p x
    if x.lagStop && decide (x.total < b.rf Reg.lagCap 0 17) && (decide (count = b.reg (Reg.msCount p)) || !(b.pointDue p)) then b.lagOver p else b

/-- A RESYNC record (R354). -/
def Blk.resyncIn (b : Blk) (p : Nat) : Blk := b.rejoin p

/-- The records that the two blocks send by time (R351). -/
def Blk.horizonSend (b : Blk) (p : Nat) : Blk := if b.mirrored p then b.cwSend (.horizon (b.mirName p) (b.pair p).spc) else b
def Blk.timeSend (b : Blk) : Blk := if b.sys.base = 6 then b.cwSend (.time b.tb.cnt) else b
def Blk.ackSend (b : Blk) : Blk :=
  if b.sys.base = 7 then
    (List.range 8).foldl (fun b p => if b.inStep p then b.cwSend (.ack (b.mirName p) (b.pair p).spc (b.reg (Reg.msCount p))) else b) b
  else b

/-- A record is delivered (R350): it goes to the pair that runs the mirrored pair it names. -/
def Blk.cwApply (b : Blk) (r : CwRec) : Blk :=
  match r with
  | .hello role v d => b.helloIn role v d
  | .input n e => b.inputIn (b.mirHome n) e
  | .release n e => b.releaseIn (b.mirHome n) e
  | .horizon n s => b.horizonIn (b.mirHome n) s
  | .msmark n s c t d => b.markIn (b.mirHome n) s c t d
  | .line n a d => b.lineIn (b.mirHome n) a d
  | .image n o d => b.imageIn n o d
  | .time t => b.timeIn t
  | .ack n s c => b.ackIn (b.mirHome n) s c
  | .resync n => b.resyncIn (b.mirHome n)

/-- The record that `cwBytes` writes as the header fields TYPE, PAIR and the body `l`; none where TYPE is reserved (R350). -/
def cwParse (t p : Nat) (l : List Byte) : Option CwRec :=
  let at' := fun i n => leNat ((l.drop i).take n)
  match t with
  | 1 => some (.hello (decide (at' 0 4 % 2 = 1)) (BitVec.ofNat 32 (at' 4 4)) (BitVec.ofNat 32 (at' 8 4)))
  | 2 => some (.input p ⟨at' 0 6, BitVec.ofNat 4 (at' 6 2), BitVec.ofNat 64 (at' 8 8), BitVec.ofNat 128 (at' 16 16)⟩)
  | 3 => some (.release p ⟨BitVec.ofNat 32 (at' 0 4), BitVec.ofNat 3 (at' 4 4), BitVec.ofNat 32 (at' 8 4), BitVec.ofNat 32 (at' 12 4)⟩)
  | 4 => some (.horizon p (at' 0 6))
  | 5 => some (.msmark p (at' 0 6) (BitVec.ofNat 32 (at' 6 4)) (BitVec.ofNat 64 (at' 10 8)) (BitVec.ofNat 32 (at' 18 4)))
  | 6 => some (.line p (at' 0 4) (l.drop 4))
  | 7 => some (.image p (at' 0 4) (l.drop 4))
  | 8 => some (.time (BitVec.ofNat 64 (at' 0 8)))
  | 9 => some (.ack p (at' 0 6) (BitVec.ofNat 32 (at' 6 4)))
  | 10 => some (.resync p)
  | _ => none

/-- The whole records among the received bytes are delivered in order; a reserved TYPE is discarded (R350). A takeover accepts none, and
discards the bytes (R359). `k` bounds the records. -/
def Blk.cwDeliver (b : Blk) : Nat → Blk
  | 0 => b
  | k + 1 =>
    let l := b.mfr.rx
    let n := 4 + leNat ((l.drop 2).take 2)
    if b.mir.taking then { b with mfr := { b.mfr with rx := [] } }
    else if l.length < 4 ∨ l.length < n then b
    else
      let b := { b with mfr := { b.mfr with rx := l.drop n } }
      let b := match cwParse (leNat (l.take 1)) (leNat ((l.drop 1).take 1) % 8) ((l.take n).drop 4) with
        | some r => b.cwApply r
        | none => b.flt 0x004 1
      b.cwDeliver k

/-- A mirror frame is received, and the records that it completes are delivered (R350, R388). -/
def Blk.mirrorRecv (b : Blk) (k : Nat) (good : Bool) (f : List Byte) : Blk :=
  let b := b.mirrorFrame k good f
  b.cwDeliver (b.mfr.rx.length + 1)

/-! Takeover (R357 to R365). -/

/-- `mir_hb_i` changes its level: the peer's heartbeat toggles (R357, R367). (DESIGN CHOICE, log 170). -/
def Blk.peerBeat (b : Blk) : Blk := if 2 ≤ b.sys.base then b.setBit Reg.mstat 2 else b

/-- Another 200 ns of timebase (R357): the heartbeat toggles in the two mirror modes. (DEDUCED, log 169). -/
def Blk.heartbeat (b : Blk) : Blk :=
  if b.mode = 6 ∨ b.mode = 7 then { b with mir := { b.mir with hb := !b.mir.hb } } else b

/-- Has a pair of a follower in takeover reached the end of its stream, its chaff checked (R359)? -/
def Blk.caughtUp (b : Blk) (p : Nat) : Bool :=
  let x := b.pair p
  decide (b.sys.base = 7) && b.mir.taking && b.mirPair p && decide (x.phase = .follow) && x.cursor.isEmpty && decide (x.hor ≤ x.spc) && x.mark.isNone &&
  x.q.all fun o => match o.cls.code with
    | some c => (x.entry c (nextSeq (b.seqOf p c))).isNone
    | none => true

/-- Pair `p` continues live; with the last one the block becomes primary, `ns` after the trigger (R359, R365). (DEDUCED, log 124). -/
def Blk.pairLive (b : Blk) (p ns : Nat) : Blk :=
  if b.caughtUp p then
    let b := b.setPair p { b.pair p with phase := .live, nextIns := [], nextRel := [], nextHor := 0, nextOn := false, mark := none, digest := none, join := 0, rels := [] }
    if (List.range 8).any fun i => b.mirPair i && decide ((b.pair i).phase = .follow) then b
    else
      let b := { b.fdbRelearn with mir := { b.mir with taking := false, hello := none } }
      let b := (((b.clrBit Reg.mstat 6).setReg Reg.tkoNs (BitVec.ofNat 32 ns)).event 0x004 1).event 0x004 5
      let b := (List.range 8).foldl (fun b i => if b.mirPair i then b.pairReady i false else b) b
      b.setBase 6
  else b

/-- `mir_hb_i` silent for 1.0 µs (R358): with frames still arriving a transient fault, without them a trigger. -/
def Blk.hbLoss (b : Blk) (frames : Bool) : Blk :=
  let b := b.clrBit Reg.mstat 2
  if b.sys.base ≠ 7 then b
  else
    if frames then (b.flt 0x004 3).transient else b.takeover

/-- No mirror frame for 1.0 µs while the heartbeat toggles (R358): a follower retires both lanes. -/
def Blk.noFrame (b : Blk) : Blk :=
  if b.sys.base = 7 then (b.laneRetire 4).laneRetire 5 else b

/-- A primary sees `mir_tko_i` (R362). -/
def Blk.deposedNow (b : Blk) : Blk :=
  if b.sys.base = 6 ∧ b.mir.deposed = false then ({ b with mir := { b.mir with deposed := true } }.event 0x004 4).safeHold 1 else b

end Sys2Proof.Machine
end

