-- ==== Sys2Proof/Machine/PortOps.lean ====
section
/-! DEFINITION. What arrives for a master that waits: units of the memory port (R416, R420), host requests beat by beat (R427 to R429,
R436), the accesses of the debug module (R476). -/
namespace Sys2Proof.Machine

/-! Status codes. -/

/-- The host port's and the debug module's code of a refusal (R429, R476). -/
def portStatus : MErr → Nat
  | .form => 2
  | .region => 1
  | .target => 2
  | .bankOff => 3
  | .ecc => 4

/-- The code of a page access's outcome. -/
def pageStatus : PgSts → Nat
  | .ok => 0
  | .target => 2
  | .priv => 6
  | .refused => 7

/-! Responses of the host port (R427 to R429). -/

/-- The bytes of a beat CRC of the response with tag `tag` and status `st` (R428). -/
def hostBeat (tag : Nat) (x : Nat × BitVec 128) : Nat × BitVec 128 × BitVec 16 :=
  (x.1, x.2, crc16 (toLe 16 x.2.toNat ++ [BitVec.ofNat 8 tag, BitVec.ofNat 8 x.1]))

/-- Beats with status OK. -/
def hostGood (l : List (BitVec 128)) : List (Nat × BitVec 128) := l.map fun v => (0, v)

/-- Answer a request, unless its response is discarded (R432): status, and the read beats with their own status each (R427). -/
def Blk.hostSays (b : Blk) (tag : Option Nat) (st : Nat) (beats : List (Nat × BitVec 128)) : Blk :=
  match tag with
  | some t => b.emit (.host t st (beats.map (hostBeat t)))
  | none => b

/-- Answer a read that fails after the beats `good`, `n` beats long: the data of the failed ones is a free value. -/
def Blk.hostFails (b : Blk) (tag : Option Nat) (st : Nat) (good : List (BitVec 128)) (n : Nat) : Blk :=
  let bad := (List.range (n - good.length)).map fun i => (st, Config.freeWord (b.free + i))
  { b with free := b.free + (n - good.length) }.hostSays tag st (hostGood good ++ bad)

/-! Units of the memory port. -/

/-- A unit arrives for engine `l`, or cannot be had (R416). -/
def Blk.engUnit (b : Blk) (l unit : Nat) (r : MpRes) : Blk :=
  let x := b.eng l
  if x.extReq.contains unit then
    let x := { x with extReq := x.extReq.filter fun u => u != unit }
    match r with
    | .data d => b.setEng l { x with extGot := x.extGot ++ [(unit, d)] }
    | _ => b.setEng l { x with extBad := some unit }
  else b

/-- A job whose last unit has arrived is over: its master goes on. -/
def Blk.jobEnd (b : Blk) (j : Job) : Blk :=
  let b := { b with jobs := b.jobs.filter fun x => x.id != j.id }
  let st := j.bad.getD 0
  let d := if j.write then [] else jobBytes j
  match j.who with
  | .host tag =>
    if j.write then b.hostSays tag st []
    else if st = 0 then b.hostSays tag 0 (hostGood ((List.range (j.len / 16)).map fun i => BitVec.ofNat 128 (leNat ((d.drop (16 * i)).take 16))))
    else b.hostFails tag st [] (j.len / 16)
  | .fabric src m => b.fabReply src m st (if st = 0 then talForm m.ws d else [])
  | .slot e m => b.fabEnd e m.op m.ws st (if st = 0 then talForm m.ws d else [])
  | .debug => b.dbgEnd st (if st = 0 ∧ j.write = false then some (BitVec.ofNat 32 (leNat d)) else none)

/-- Jobs with nothing outstanding end; `k` bounds them. -/
def Blk.jobsEnd (b : Blk) : Nat → Blk
  | 0 => b
  | k + 1 =>
    match b.jobs.find? fun j => j.left.isEmpty with
    | some j => (b.jobEnd j).jobsEnd k
    | none => b

/-- The outcome of one unit transfer reaches the master that asked for it. -/
def Blk.deliverOne (b : Blk) (x : MpReq × MpRes) : Blk :=
  match x.1.who with
  | .engine l => if x.1.write then b else b.engUnit l x.1.addr x.2
  | .mover n id => b.chPort n id x.1.addr x.2
  | .job id => (b.jobNote id x.1.addr x.2).jobsEnd 2

/-! The debug module's access (R476). -/

/-- The access in progress is performed as master 20 at PL 3; one to the window ends when its unit arrives. -/
def Blk.dbgDone (b : Blk) : Blk :=
  match b.tap.acc with
  | none => b
  | some (a, wr, v) =>
    if b.tap.late then b
    else if !(b.dbgReach a) then b.dbgEnd 7 none
    else if place a = .page then
      if wr then
        let z := b.pageWrite 20 3 (pageOf a) (slotOf a) v
        z.1.dbgEnd (match z.2 with
          | .target => 2
          | .priv => 6
          | _ => 0) none
      else
        let z := b.pageLoad 20 3 (pageOf a) (slotOf a)
        z.2.2.dbgEnd (pageStatus z.2.1) z.1
    else
      match b.mCheck 20 none (if wr then .store else .load) a 4 with
      | some e => (b.mRefused 20 wr e).dbgEnd (portStatus e.1) none
      | none =>
        if place a = .ext then { b.jobStart 20 .debug wr a 4 (if wr then toLe 4 v.toNat else []) with tap := { b.tap with late := true } }
        else if wr then (b.writeMem none false a (toLe 4 v.toNat) 2).dbgEnd 0 none
        else (b.mNotes a 4 2).dbgEnd 0 (some (BitVec.ofNat 32 (leNat (b.mRead a 4))))

/-! Host requests (R427 to R429, R436). -/

/-- `HCFG.HPL`, the level of host accesses. -/
def Blk.hpl (b : Blk) : Nat := b.rf Reg.hcfg 0 2

/-- The tag of a request's response. -/
def HostReq.ref (r : HostReq) : Option Nat := if r.muted then none else some r.tag.toNat

/-- Address of a request's first beat (R426). -/
def HostReq.at (r : HostReq) : Nat := r.addr.toNat / 4 * 4

/-- Do the request CRC and every beat CRC hold (R428)? -/
def HostReq.sound (r : HostReq) : Bool :=
  crc16 (toLe 5 r.at ++ [BitVec.ofNat 8 (128 * bit r.write + 16 * (r.beats - 1)), BitVec.ofNat 8 r.tag.toNat]) == r.crc &&
  r.data.all fun x => crc16 (toLe 16 x.1.toNat ++ toLe 2 x.2.1.toNat) == x.2.2

/-- Answer a request with a failure from its first beat on. -/
def Blk.hostNo (b : Blk) (r : HostReq) (st : Nat) : Blk :=
  if r.write then b.hostSays r.ref st [] else b.hostFails r.ref st [] r.beats

/-- A request that fails its CRC (R428). -/
def Blk.hostCrc (b : Blk) (r : HostReq) : Blk :=
  (((b.count Reg.hperr 0 16).event 0x090 18).emit (.pulse "hp_err" 0)).hostNo r 5

/-- Is a request of the host waiting for the memory port? -/
def Blk.hostBusy (b : Blk) : Bool := b.jobs.any fun j => match j.who with
  | .host _ => true
  | _ => false

/-- The accepted requests that have no response yet (R427). -/
def Blk.hostOwed (b : Blk) : Nat :=
  (b.hst.q.filter fun r => !r.muted).length + (b.jobs.filter fun j => match j.who with
    | .host (some _) => true
    | _ => false).length

/-- The aligned words of a beat at `a`. (DEDUCED, log 131). -/
def beatWords (a : Nat) : List Nat := (List.range 4).map fun i => a + 4 * i

/-- One read beat in a register page. -/
def Blk.hostPageRead (b : Blk) (a : Nat) : Blk × Nat × Nat :=
  (beatWords a).foldl (fun z w =>
    if z.2.1 ≠ 0 then z
    else
      let y := z.1.pageLoad 18 z.1.hpl (pageOf w) (slotOf w)
      (y.2.2, pageStatus y.2.1, z.2.2 + (y.1.getD 0).toNat * 2 ^ (8 * (w - a)))) (b, 0, 0)

/-- One read beat of local memory: the block, a status and the value. -/
def Blk.hostReadBeat (b : Blk) (a : Nat) : Blk × Nat × Nat :=
  if place a = .page then b.hostPageRead a
  else
    match b.mCheck 18 none .load a 16 b.hpl with
    | some e => (b.mRefused 18 false e, portStatus e.1, 0)
    | none => (b.mNotes a 16 3, 0, leNat (b.mRead a 16))

/-- The read beats of a request, until one fails. -/
def Blk.hostReadAll (b : Blk) (a : Nat) : Nat → Blk × Nat × List (BitVec 128)
  | 0 => (b, 0, [])
  | k + 1 =>
    let z := b.hostReadBeat a
    if z.2.1 ≠ 0 then (z.1, z.2.1, [])
    else
      let y := z.1.hostReadAll (a + 16) k
      (y.1, y.2.1, BitVec.ofNat 128 z.2.2 :: y.2.2)

/-- Perform a read request (R429). -/
def Blk.hostRead (b : Blk) (r : HostReq) : Blk :=
  if place r.at = .ext then
    match b.mCheck 18 none .load r.at (16 * r.beats) b.hpl with
    | some e => (b.mRefused 18 false e).hostNo r (portStatus e.1)
    | none => b.jobStart 18 (.host r.ref) false r.at (16 * r.beats) []
  else
    let z := b.hostReadAll r.at r.beats
    if z.2.1 = 0 then z.1.hostSays r.ref 0 (hostGood z.2.2) else z.1.hostFails r.ref z.2.1 z.2.2 r.beats

/-- The runs of enabled bytes of a beat at `a`: address and bytes; `k` bytes from byte `i` on, `run` the run so far. (DEDUCED, log 131). -/
def beatRuns (a : Nat) (d : BitVec 128) (be : BitVec 16) : Nat → Nat → Option (Nat × List Byte) → List (Nat × List Byte)
  | 0, _, run => run.toList
  | k + 1, i, run =>
    let v : Byte := (d >>> (8 * i)).setWidth 8
    if be.getLsbD i then
      beatRuns a d be k (i + 1) (match run with
        | some r => some (r.1, r.2 ++ [v])
        | none => some (a + i, [v]))
    else run.toList ++ beatRuns a d be k (i + 1) none

/-- May the host write this word in Mirror Follower (R436): `HCMD`, `MCMD`, or a register of the HOST page with bits that writing 1
clears? -/
def followerWrites (p o : Nat) : Bool :=
  (p == 0x090 && decide (o < 0x1000) && (o == 0x44 || o == Reg.hEvtRaw || o == Reg.hFault ||
    (match regRow p o with
     | some r => decide (r.w1c ≠ 0)
     | none => false))) ||
  (p == 0x004 && o == 0x44)

/-- The byte enables of word `i` of a beat. -/
def wordEn (be : BitVec 16) (i : Nat) : Nat := be.toNat / 2 ^ (4 * i) % 16

/-- One write beat in a register page: every enabled word in turn (R429). -/
def Blk.hostPageWrite (b : Blk) (a : Nat) (d : BitVec 128) (be : BitVec 16) : Blk × Nat :=
  if (List.range 4).any fun i => decide (wordEn be i ≠ 0) && decide (wordEn be i ≠ 15) then (b, 2)
  else (List.range 4).foldl (fun z i =>
    if z.2 ≠ 0 ∨ wordEn be i = 0 then z
    else
      let w := a + 4 * i
      if z.1.sys.base = 7 ∧ followerWrites (pageOf w) (slotOf w) = false then (z.1, 7)
      else
        let y := z.1.pageWrite 18 z.1.hpl (pageOf w) (slotOf w) ((d >>> (32 * i)).setWidth 32)
        (y.1, pageStatus y.2)) (b, 0)

/-- One write beat of local memory: every check, then the enabled bytes. -/
def Blk.hostWriteBeat (b : Blk) (a : Nat) (d : BitVec 128) (be : BitVec 16) : Blk × Nat :=
  if place a = .page then b.hostPageWrite a d be
  else if b.sys.base = 7 then (b, 7)
  else
    let runs := beatRuns a d be 16 0 none
    match runs.findSome? fun r => b.mCheck 18 none .store r.1 r.2.length b.hpl with
    | some e => (b.mRefused 18 true e, portStatus e.1)
    | none => (runs.foldl (fun b r => b.writeMem none false r.1 r.2 3) b, 0)

/-- The write beats of a request, until one fails. -/
def Blk.hostWriteAll (b : Blk) (a : Nat) : List (BitVec 128 × BitVec 16) → Blk × Nat
  | [] => (b, 0)
  | x :: t =>
    let z := b.hostWriteBeat a x.1 x.2
    if z.2 ≠ 0 then z else z.1.hostWriteAll (a + 16) t

/-- Enabled bytes and data of a request that lies in one unit of the window. -/
def unitBeats (a : Nat) : List (BitVec 128 × BitVec 16) → Nat × Nat
  | [] => (0, 0)
  | x :: t =>
    let z := unitBeats (a + 16) t
    (z.1 + x.2.toNat * 2 ^ (a % 64) , z.2 + x.1.toNat * 2 ^ (8 * (a % 64)))

/-- A write of the host to the window: one unit, answered when it is acknowledged (R420, R429). (DEDUCED, log 73). -/
def Blk.hostExtWrite (b : Blk) (r : HostReq) (l : List (BitVec 128 × BitVec 16)) : Blk :=
  let id := b.jobNext
  let u := r.at / 64 * 64
  let j : Job := { id := id, who := .host r.ref, write := true, addr := r.at, len := 16 * l.length, left := [u], data := [],
                   bad := none }
  { b with jobs := b.jobs ++ [j], jobNext := id + 1 }.mpAsk
    { mst := 18, write := true, addr := u, be := BitVec.ofNat 64 (unitBeats r.at l).1, data := toLe 64 (unitBeats r.at l).2, tries := 0,
      who := .job id, tag := 0 }

/-- The answer of a write request; a refused one is counted (R437). -/
def Blk.hostAnswer (b : Blk) (r : HostReq) (st : Nat) : Blk := (if st = 7 then b.hostRefused else b).hostNo r st

/-- Perform a write request (R429). -/
def Blk.hostWrite (b : Blk) (r : HostReq) : Blk :=
  let l := r.data.map fun x => (x.1, x.2.1)
  if place r.at = .ext then
    if b.sys.base = 7 then b.hostAnswer r 7
    else match b.mCheck 18 none .store r.at (16 * l.length) b.hpl with
      | some e => (b.mRefused 18 true e).hostAnswer r (portStatus e.1)
      | none => b.hostExtWrite r l
  else
    let z := b.hostWriteAll r.at l
    z.1.hostAnswer r z.2

/-- Perform one accepted request (R427 to R429). -/
def Blk.hostDo (b : Blk) (r : HostReq) : Blk :=
  if !r.sound then b.hostCrc r else if r.write then b.hostWrite r else b.hostRead r

/-- Perform the accepted requests one at a time in acceptance order (R427), until one waits for the memory port; `k` bounds them. -/
def Blk.hostRun (b : Blk) : Nat → Blk
  | 0 => b
  | k + 1 =>
    if b.hostBusy then b
    else match b.hst.q with
      | [] => b
      | r :: t => ({ b with hst := { b.hst with q := t } }.hostDo r).hostRun k

/-- The host sends a request: accepted where the port accepts requests and fewer than 16 have no response yet (R427); else it stays
on the port. (DESIGN CHOICE, log 132). -/
def Blk.hostAsk (b : Blk) (r : HostReq) : Blk :=
  if b.hostOn && decide (b.hostOwed < 16) then { b with hst := { b.hst with q := b.hst.q ++ [r] } }.hostRun 16 else b

/-- The outcome of unit transfers reaches their masters, and the host port goes on with its accepted requests. -/
def Blk.deliver (z : Blk × List (MpReq × MpRes)) : Blk := (z.2.foldl Blk.deliverOne z.1).hostRun 16

/-- `hp_port_rst_n` changes (R432): while it is low the port accepts nothing; its fall discards the responses that are owed and frees
their tags, while accepted writes are still performed. (DEDUCED, log 66). -/
def Blk.portRst (b : Blk) (low : Bool) : Blk :=
  if low then
    { b with hst := { b.hst with low := true, q := (b.hst.q.filter (·.write)).map fun r => { r with muted := true } }
             jobs := b.jobs.map fun j => match j.who with
               | .host _ => { j with who := .host none }
               | _ => j }
  else { b with hst := { b.hst with low := false } }

end Sys2Proof.Machine
end

