-- ==== Sys2Proof/Machine/CmdOps.lean ====
section
/-! DEFINITION. Operations that only commands use: a register access that a row of the table names, and the events of inputs and of
time that no other unit performs. -/
namespace Sys2Proof.Machine

/-! Register accesses (R10, R231, R525, R529, R533). A command that names a master is the access at the moment it is performed at the
page: at once, through the checks that every access meets. -/

/-- The level at which master `m` accesses page `p` now; none where it reaches no page: the mover, the switch, the fabric unit and the
memory port never do (R231, R289, R528), engines not in Off, Reset or Sleep, the host where its port accepts requests, the debug
module where debug is open and the page powered (R476, R477). (DEDUCED, log 17). -/
def Blk.pageLevel (b : Blk) (m p : Nat) : Option Nat :=
  if m < 16 then (if 2 ≤ b.sys.base ∧ b.sys.base ≠ 0xA then some (b.pl (b.lead m)) else none)
  else if m = 18 then (if b.hostOn then some b.hpl else none)
  else if m = 20 then (if b.dbgOpen && b.dbgReach (0x20000000 + p * 0x4000) then some 3 else none)
  else none

/-- Master `m` writes `v` to the register at key `k` (R533). What the host is refused is counted (R436, R437). (DEDUCED, log 16). -/
def Blk.cmdWrite (b : Blk) (m k : Nat) (v : Word) : Blk :=
  match b.pageLevel m (k / 0x4000) with
  | none => b
  | some pl =>
    if m = 18 ∧ b.sys.base = 7 ∧ followerWrites (k / 0x4000) (k % 0x4000) = false then b.hostRefused
    else
      let z := b.pageWrite m pl (k / 0x4000) (k % 0x4000) v
      if m = 18 ∧ z.2 = .refused then z.1.hostRefused else z.1

/-- Master `m` reads the register at key `k`, with what the read does. (DEDUCED, log 16). -/
def Blk.cmdRead (b : Blk) (m k : Nat) : Blk :=
  match b.pageLevel m (k / 0x4000) with
  | none => b
  | some pl => (b.pageLoad m pl (k / 0x4000) (k % 0x4000)).2.2

/-- The word of a host command (R432). -/
def hcmdWord (c : Nat) (svc : BitVec 4) (arg : BitVec 16) : Word := BitVec.ofNat 32 (c + svc.toNat * 2 ^ 8 + arg.toNat * 2 ^ 16)

/-- The word of an `OP_CMD` write (R408). -/
def opWord (op width len : Nat) : Word := BitVec.ofNat 32 (op + width * 2 ^ 8 + len * 2 ^ 16)

/-- `PMCTRL` of a counter unit (R498, R499). -/
def unitCtrl : CounterUnit → Nat
  | .engine e => pmCtrlOf e
  | .mover => pmCtrlOf 16
  | .switch => pmCtrlOf 17

/-- What happens only out of Off and Reset. (DEDUCED, log 15). -/
def Blk.whenUp (b : Blk) (f : Blk → Blk) : Blk := if 2 ≤ b.sys.base then f b else b

/-! Engines and tasks. -/

/-- The report point of a pending imprecise `ARITH` is reached (R160). (DEDUCED, log 47). -/
def Blk.arithPoint (b : Blk) (l : Nat) : Blk :=
  if b.mayRun l && (b.eng l).run && (b.eng l).arith.isSome && (b.eng l).waitM.isNone && !(b.midInstr l) then
    (b.reportArith l).atPoint l
  else b

/-- The wait that task `t` of engine `l` is in, with its target: Waiting, or at PL 3 in place (R120, R179). -/
def Blk.waitOf (b : Blk) (l t : Nat) : Option (WaitKind × BitVec 64) :=
  let c := b.task l t
  if c.st = .waiting then c.wait.map fun k => (k, (c.ds.headD 0).setWidth 64)
  else if b.mayRun l then (b.machWait l t).map fun k => (k, ((b.eng l).mds.headD 0).setWidth 64)
  else none

/-- The timebase has reached the target of a waiting task (R52, R120, R180), noted as an input of its pair (R329). A replay takes its
timed wakes from the log (R332). -/
def Blk.timedWake (b : Blk) (l t : Nat) : Blk :=
  match b.waitOf l t with
  | some (k, tgt) =>
    if (k = .waitt ∨ tgt ≠ 0) ∧ tgt ≤ b.tb.cnt ∧ (b.joined (l / 2) = false ∨ (b.pair (l / 2)).phase = .live) then
      (b.logIn (l / 2) 7 (t * 2 ^ 10) b.tb.cnt.toNat).timeWake l t
    else b
  | none => b

/-- The engine and the task to which sample port `n` offers its held sample, if it offers one (R184, R191, R267, R270). -/
def Blk.offer (b : Blk) (n : Nat) : Option (Nat × Nat) :=
  let l := b.cfgEng (b.rf (Reg.spCfg n) 4 4)
  let w := b.reg (Reg.bypmap l (n / 4))
  if b.spOn n && b.rb (Reg.spCfg n) 1 && b.rb (Reg.last n) 31 && decide (b.sys.base ≠ 7) && tbit w (8 * (n % 4) + 7) then
    some (l, fld w (8 * (n % 4)) 6)
  else none

/-- Acceptance of the sample that port `n` holds by task `t` of engine `l` (R181, R184, R268, R269): the entry, the deposit, the bypass
mark, both noted as inputs of the pair (R329), and the holding register emptied. -/
def Blk.takeSample (b : Blk) (n l t : Nat) : Blk :=
  let e := b.sampleEntry n
  let d := b.deposit n
  let b := (b.accept l t e).logIn (l / 2) 4 (n + t * 2 ^ 10) e.toNat
  let b := b.setTask l t { b.task l t with byp := true, bypPort := n }
  let b := if b.rb (Reg.spCfg n) 3 then
      (b.setTask l t { b.task l t with v := Tab.set (fun _ => 0) (b.task l t).v 15 d }).logIn (l / 2) 5 (t * 2 ^ 10) d.toNat
    else b
  (b.clrBit (Reg.last n) 31).spRetry

/-- A bound task accepts the sample of port `n`: its engine is open, the task accepts, and no lower port holds a sample for it
(R268). -/
def Blk.bypassAccept (b : Blk) (n : Nat) : Blk :=
  match b.offer n with
  | some (l, t) =>
    if !(b.closed l) && b.accepts l t && (List.range n).all fun k => decide (b.offer k ≠ some (l, t)) then b.takeSample n l t
    else b
  | none => b

/-- A storm window of 2^`win` µs ends: the counts of the sources that use it return to 0 (R212). -/
def Blk.stormWindow (b : Blk) (win : Nat) : Blk :=
  { b with router := { b.router with storm := b.router.storm.filter fun x => decide (b.rf (Reg.srcStorm x.1) 8 4 ≠ win) } }

/-! Time. -/

/-- The timebase counts from the release of the reset on (R48, R453). (DEDUCED, log 57). -/
def Blk.tbRuns (b : Blk) : Bool := decide (b.sys.base ≠ 0) && (decide (b.sys.base ≠ 1) || decide (b.sec.phase ≠ 0))

/-- The cells in use are sampled by the switch's counters of event 0x04 (R497): all cells, or those of the filter's port. (DEDUCED, log 158). -/
def Blk.pmCells (b : Blk) : Blk :=
  if b.pmAny (Reg.swPmCfg 0) (Reg.swPmCfg 8) && !(b.rb Reg.swPmCtrl 1) then
    (List.range 8).foldl (fun b c =>
      let cfg := b.reg (Reg.swPmCfg c)
      let n := if tbit cfg 22 then b.sw.cells
        else (List.range 8).foldl (fun a q => (b.queue (fld cfg 16 6) q).foldl (fun a x => a + cellsOf x.data) a) 0
      if tbit cfg 31 && decide (fld cfg 0 8 = 4) then
        b.pmBump (Reg.swPmCnt c) Reg.swPmOvf c 0x0B0 3 (pmAdd cfg (b.reg (Reg.swPmThr c)) n)
      else b) b
  else b

/-- The counter has passed a multiple of 1000 ns: the pulse of R508, a window of the step meter is over (R43), and the switch's cells
are sampled (R497). -/
def Blk.tbMicro (b : Blk) : Blk :=
  let b := b.pmCells
  { b.emit (.pulse "tb_us_o" 0) with tb := { b.tb with due := some b.pow.peak }, pow := { b.pow with peak := b.paceLevel } }

/-- The counter has passed a multiple of `MS_CFG.INTERVAL` µs: the trigger of R322 for every pair in Twin. -/
def Blk.tbInterval (b : Blk) : Blk :=
  if b.pointsOn then
    (List.range 8).foldl (fun b p => if b.joined p && !(b.pair p).take then b.setPair p { b.pair p with take := true } else b) b
  else b

/-- A rising edge of `tb_refclk` (R48, R49, R503), with what follows where the counter passes a multiple of 1000 ns, of the Milestone interval
or of 10^9 ns. -/
def Blk.tbTick (b : Blk) : Blk :=
  let b := { b with tb := { b.tb with lost := false } }
  if b.tbRuns then
    let n := b.tb.cnt.toNat
    let b := b.tbEdge
    let b := if b.tb.cnt.toNat / 1000 = n / 1000 then b else b.tbMicro
    let i := 1000 * b.rf Reg.msCfg 0 10
    let b := if b.tb.cnt.toNat / i = n / i then b else b.tbInterval
    if b.tb.cnt.toNat / 1000000000 = n / 1000000000 then b else { b with tb := { b.tb with pps := true } }
  else b

/-- A window of the step meter that has ended is loaded (R43, R54, R55): the slowest ring's count is the command's, the pacing level the
block's own. (DESIGN CHOICE, log 58). -/
def Blk.meterWindow (b : Blk) (rate : Nat) : Blk :=
  match b.tb.due with
  | none => b
  | some pace =>
    let b := { b with tb := { b.tb with due := none } }
    let old := b.rf Reg.stepmeterMin 0 12
    let b := b.setReg Reg.stepmeter (BitVec.ofNat 32 (rate + pace * 2 ^ 12 + 2 ^ 15))
    let b := b.setReg Reg.stepmeterMin (BitVec.ofNat 32 (if old = 0 then rate else Nat.min old rate))
    if rate < 1500 then b.event 0x005 0 else b

/-- The pulse on `tb_pps_o` at a multiple of 10^9 ns that has been passed (R508). (DEDUCED, log 57). -/
def Blk.ppsOut (b : Blk) : Blk :=
  if b.tb.pps then { b.emit (.pulse "tb_pps_o" 0) with tb := { b.tb with pps := false } } else b

/-! Inputs whose level lasts through a reset: in Off and Reset only the level is noted. -/

/-- The pacing level without the records of an entry. -/
def Blk.paceQuiet (b : Blk) : Blk := { b.setF Reg.pwrStat 0 3 b.paceLevel with pow := { b.pow with peak := b.paceLevel } }

/-- `pwr_droop` changes (R442, R443). (DEDUCED, log 65). -/
def Blk.droopIn (b : Blk) (c : BitVec 4) : Blk :=
  if 2 ≤ b.sys.base then b.droop c else { b with pow := { b.pow with code := c, held := b.pow.held ||| c } }.paceQuiet

/-- A droop bit has been deasserted for 50 ns (R443). -/
def Blk.droopOut (b : Blk) (k : Nat) : Blk :=
  if 2 ≤ b.sys.base then b.droopOver k
  else if b.pow.code.getLsbD k then b
  else { b with pow := { b.pow with held := b.pow.held &&& ~~~ (BitVec.ofNat 4 (2 ^ k)) } }.paceQuiet

/-- `pwr_cap` changes (R441, R443). (DEDUCED, log 65). -/
def Blk.capIn (b : Blk) (c : Nat) : Blk :=
  if 2 ≤ b.sys.base then b.capWrite c else { b with pow := { b.pow with cap := Nat.min 2 c } }.paceQuiet

/-- A temperature alert changes (R449): `i` = 0 `pwr_tj_warn`, 1 `pwr_tj_crit`. (DEDUCED, log 65). -/
def Blk.tjIn (b : Blk) (i : Nat) (level : Bool) : Blk :=
  if 2 ≤ b.sys.base then b.tjAlert i level else b.setF Reg.pwrStat (9 + i) 1 (bit level)

/-- `link` of edge port `n` changes (R404). (DEDUCED, log 65). -/
def Blk.edgeIn (b : Blk) (n : Nat) (level : Bool) : Blk :=
  if 2 ≤ b.sys.base then b.edgeLink n level else b.setF (Reg.estat n) 0 1 (bit level)

/-- `sp_req[n]` changes (R266). (DEDUCED, log 65). -/
def Blk.spReq (b : Blk) (n : Nat) (d : BitVec 16) (tag : BitVec 4) (rise : Bool) : Blk :=
  if 2 ≤ b.sys.base then b.spTransfer n d tag rise
  else { b with drive := { b.drive with req := b.drive.req.filter (· ≠ n) ++ (if rise then [n] else []) } }

/-! Ports. -/

/-- The recovery history of stream `k` resets (R400). (DEDUCED, log 67). -/
def Blk.recovReset (b : Blk) (k : Nat) : Blk := { b with sw := { b.sw with recov := Tab.del b.sw.recov k } }

/-- `dbg_halt_i` or `dbg_resume_i` rises (R474, R477): it concerns the engines of `CTRL.XTRIG`, and nothing while debug is closed. -/
def Blk.trigIn (b : Blk) (f : Blk → Word → Blk) : Blk :=
  if 2 ≤ b.sys.base ∧ b.dbgOpen = true then f b (BitVec.ofNat 32 (b.rf Reg.dbgCtrl 16 16)) else b

end Sys2Proof.Machine
end

