-- ==== Sys2Proof/Machine/CmdBoot.lean ====
section
/-! DEFINITION. The commands of supplies and resets (R21, R440, R452, R453), fuses, boot and lifecycle (R455 to R465), the key store (R470), test mode (R509, R510). Each is one use of the operation that does it. -/
namespace Sys2Proof.Machine

/-- `SUPPLY_REMOVED` (R21). Core supply loss takes the block to Off. -/
def execSupplyRemoved (s : State) : Host.Outcome State Fault Refusal :=
  s.done (s.blk.powerOff)

/-- `SUPPLY_VALID` (R21). The core supply becomes valid with por_n low and the block leaves Off for Reset. -/
def execSupplyValid (s : State) : Host.Outcome State Fault Refusal :=
  s.done (s.blk.powerOn)

/-- `PIN` (R453). `rst_n` or `por_n` changes, and low enters Reset; or `fuse_prog_ok` changes (R460). (DESIGN CHOICE, log 170). -/
def execPin (x : PinLevel) (s : State) : Host.Outcome State Fault Refusal :=
  s.done (match x.pin with
    | .rst => s.blk.rstPin x.low
    | .por => s.blk.porPin x.low
    | .fuseProg => s.blk.fuseProgPin x.low
    | .mirHb => s.blk.peerBeat
    | .edgeIrq n => s.blk.edgeIrq n !x.low)

/-- `SUPPLY` (R440). pwr_core_ok or pwr_mem_ok low for 100 ns outside Sleep resets the block. -/
def execSupply (core : Bool) (memOk : Bool) (s : State) : Host.Outcome State Fault Refusal :=
  s.done (s.blk.supplyLow core memOk)

/-- `ZEROIZE` (R452). sec_zeroize high for 40 ns erases every key slot and resets. (DEDUCED, log 69). -/
def execZeroize (s : State) : Host.Outcome State Fault Refusal :=
  s.done (if s.blk.sys.base = 0 then s.blk else s.blk.enterReset 7)

/-- `RESET_RELEASE` (R453). Reset is released and fuse load and bank zeroing start. -/
def execResetRelease (s : State) : Host.Outcome State Fault Refusal :=
  s.done (s.blk.release)

/-- `FUSE_READ` (R457). A fuse word read completes or fails. -/
def execFuseRead (word : Nat) (data : BitVec 32) (err : Bool) (s : State) : Host.Outcome State Fault Refusal :=
  s.done (s.blk.fuseRead word data err)

/-- `BOOT_BEGIN` (R455). Fuse load and zeroing complete and the boot ROM starts on P0. -/
def execBootBegin (s : State) : Host.Outcome State Fault Refusal :=
  s.done (s.blk.bootBegin)

/-- `LOAD` (R461). Boot ROM takes a LOAD message, closes the staging area and starts verification. -/
def execLoad (s : State) : Host.Outcome State Fault Refusal :=
  s.done (s.blk.bootLoad)

/-- `BAD_MSG` (R461). Boot ROM frees and answers a malformed IN message. -/
def execBadMsg (s : State) : Host.Outcome State Fault Refusal :=
  s.done (s.blk.bootBad)

/-- `CANDIDATE_RESULT` (R463). Verification of a candidate completes and its result is posted. -/
def execCandidateResult (s : State) : Host.Outcome State Fault Refusal :=
  s.done (s.blk.bootResult)

/-- `BOOT_TMO` (R464). Boot timeout elapses without an accepted candidate. -/
def execBootTmo (s : State) : Host.Outcome State Fault Refusal :=
  s.done (s.blk.bootTimeout)

/-- `FUSE_PROG` (R460). Programs bits of a fuse word in BLANK. -/
def execFuseProg (m : Nat) (val : BitVec 32) (s : State) : Host.Outcome State Fault Refusal :=
  s.done (s.blk.cmdWrite m (Reg.fuseProgReg) (val))

/-- `LC_ADV` (R460). Advances the lifecycle thermometer. -/
def execLcAdv (m : Nat) (val : BitVec 32) (s : State) : Host.Outcome State Fault Refusal :=
  s.done (s.blk.cmdWrite m (Reg.lcAdvReg) (val))

/-- `ARB_SET` (R460). Raises the fused anti-rollback count. -/
def execArbSet (m : Nat) (val : BitVec 32) (s : State) : Host.Outcome State Fault Refusal :=
  s.done (s.blk.cmdWrite m (Reg.arbSetReg) (val))

/-- `FUSE_PROGRAM_DONE` (R457). A fuse program cycle completes or fails. -/
def execFuseProgramDone (err : Bool) (s : State) : Host.Outcome State Fault Refusal :=
  s.done (s.blk.fuseDone err)

/-- `RST_REQ` (R452). Soft reset by KEY 0x5A5A from PL 3. -/
def execRstReq (m : Nat) (val : BitVec 32) (s : State) : Host.Outcome State Fault Refusal :=
  s.done (s.blk.cmdWrite m (Reg.rstReqReg) (val))

/-- `KEY_WRITE` (R470). Writes key and salt into a slot. -/
def execKeyWrite (m : Nat) (s : State) : Host.Outcome State Fault Refusal :=
  s.done (s.blk.cmdWrite m (Reg.kcmd) (1))

/-- `KEY_ERASE` (R470). Erases a slot. -/
def execKeyErase (m : Nat) (s : State) : Host.Outcome State Fault Refusal :=
  s.done (s.blk.cmdWrite m (Reg.kcmd) (2))

/-- `KEY_LOCK` (R470). Locks a slot until reset. -/
def execKeyLock (m : Nat) (s : State) : Host.Outcome State Fault Refusal :=
  s.done (s.blk.cmdWrite m (Reg.kcmd) (3))

/-- `DERIVE` (R470). Derives a slot key from the root key. -/
def execDerive (m : Nat) (s : State) : Host.Outcome State Fault Refusal :=
  s.done (s.blk.cmdWrite m (Reg.kcmd) (4))

/-- `ERASE_ALL` (R470). Erases every slot, locked ones included. -/
def execEraseAll (m : Nat) (s : State) : Host.Outcome State Fault Refusal :=
  s.done (s.blk.cmdWrite m (Reg.kcmd) (5))

/-- `KEY_CMD_DONE` (R470). A key command completes and KDATA and KSALT are zeroed. (DESIGN CHOICE, log 137). -/
def execKeyCmdDone (s : State) : Host.Outcome State Fault Refusal :=
  s.done (s.blk.keyDone)

/-- `TEST_MODE` (R510). tst_mode high acts as POR and enters test mode. -/
def execTestMode (s : State) : Host.Outcome State Fault Refusal :=
  s.done (s.blk.testOn)

/-- `TEST_MODE_EXIT` (R510). tst_mode falling is a POR. -/
def execTestModeExit (s : State) : Host.Outcome State Fault Refusal :=
  s.done (s.blk.testOff)

/-- `MBIST_GO` (R509). Starts the memory test of the selected array. -/
def execMbistGo (sel : BitVec 8) (s : State) : Host.Outcome State Fault Refusal :=
  s.done (s.blk.mbistGo sel.toNat)

/-- `MBIST_DONE` (R509). The memory test started by tst_mbist_go completes and sets tst_mbist_done and tst_mbist_fail. -/
def execMbistDone (fail : Bool) (s : State) : Host.Outcome State Fault Refusal :=
  s.done (s.blk.mbistDone fail)

end Sys2Proof.Machine
end

