-- ==== Sys2Proof/Machine/CmdDebug.lean ====
section
/-! DEFINITION. The commands of the debug module, trace and counters (R474 to R499) and the accesses every register page has (R10, R525 to R532). Each is one use of the operation that does it. -/
namespace Sys2Proof.Machine

/-- `IDCODE` (R475). TAP instruction returning the identification code. -/
def execIdcode (s : State) : Host.Outcome State Fault Refusal :=
  s.done (s.blk.emit (.tap 1 0x20128001))

/-- `DBGACC` (R476). Starts one 32-bit debug access as master 20. (DEDUCED, log 53). -/
def execDbgacc (addr : BitVec 40) (write : Bool) (data : BitVec 32) (s : State) : Host.Outcome State Fault Refusal :=
  s.done ((s.blk.emit (.tap 8 s.blk.dbgaccWord)).dbgGo addr.toNat write data)

/-- `DBGSTAT` (R475). TAP instruction returning debug status. -/
def execDbgstat (s : State) : Host.Outcome State Fault Refusal :=
  s.done (s.blk.emit (.tap 9 s.blk.dbgstatWord))

/-- `BYPASS` (R475). TAP one-bit bypass instruction. -/
def execBypass (s : State) : Host.Outcome State Fault Refusal :=
  s.done (s.blk.emit (.tap 0x1F 0))

/-- `DEBUG_ACCESS_DONE` (R476). A debug access completes with status and data. -/
def execDebugAccessDone (s : State) : Host.Outcome State Fault Refusal :=
  s.done (s.blk.dbgDone)

/-- `HALT_REQ` (R478). Requests a halt of engines. -/
def execHaltReq (m : Nat) (val : BitVec 32) (s : State) : Host.Outcome State Fault Refusal :=
  s.done (s.blk.cmdWrite m (Reg.haltReqReg) (val))

/-- `RESUME_REQ` (R480). Reopens halted engines. -/
def execResumeReq (m : Nat) (val : BitVec 32) (s : State) : Host.Outcome State Fault Refusal :=
  s.done (s.blk.cmdWrite m (Reg.resumeReqReg) (val))

/-- `STEP_REQ` (R481). Steps a halted engine's task to its next halt point. -/
def execStepReq (m : Nat) (val : BitVec 32) (s : State) : Host.Outcome State Fault Refusal :=
  s.done (s.blk.cmdWrite m (Reg.stepReqReg) (val))

/-- `REFORM` (R489). Starts re-forming a broken twin. -/
def execReform (m : Nat) (p : Nat) (s : State) : Host.Outcome State Fault Refusal :=
  s.done (s.blk.cmdWrite m (Reg.reformReg) (BitVec.ofNat 32 (2 ^ 8 + p)))

/-- `REFORM_DONE` (R489). Re-forming completes and BROKEN clears. -/
def execReformDone (p : Nat) (s : State) : Host.Outcome State Fault Refusal :=
  s.done (s.blk.whenUp fun b => b.reformDone p)

/-- `DEBUG_RESET` (R452). Debug RST_REQ from master 20 resets the block. -/
def execDebugReset (val : BitVec 32) (s : State) : Host.Outcome State Fault Refusal :=
  s.done (s.blk.cmdWrite 20 Reg.dbgRstReq val)

/-- `DBG_HALT_I` (R474). External halt request input. -/
def execDbgHaltI (s : State) : Host.Outcome State Fault Refusal :=
  s.done (s.blk.trigIn (fun b m => b.haltMask 6 m))

/-- `DBG_RESUME_I` (R474). External resume request input. -/
def execDbgResumeI (s : State) : Host.Outcome State Fault Refusal :=
  s.done (s.blk.trigIn Blk.resumeMask)

/-- `DBG_SNAP_I` (R474). External snapshot of every counter unit. -/
def execDbgSnapI (s : State) : Host.Outcome State Fault Refusal :=
  s.done (s.blk.whenUp fun b => b.pmGsnap 0x3FFFF)

/-- `HALT` (R479). An engine reaches its halt point and stops. -/
def execHalt (e : Nat) (s : State) : Host.Outcome State Fault Refusal :=
  s.done (s.blk.haltPoint e)

/-- `TRACE_WRITE` (R490). A trace record drains from the FIFO into the ring. -/
def execTraceWrite (s : State) : Host.Outcome State Fault Refusal :=
  s.done (s.blk.whenUp Blk.trcDrain)

/-- `SNAP` (R495). Copies a unit's counters to shadows. -/
def execSnap (m : Nat) (u : CounterUnit) (s : State) : Host.Outcome State Fault Refusal :=
  s.done (s.blk.cmdWrite m ((unitCtrl u)) (1 + (s.blk.reg (unitCtrl u) &&& 2)))

/-- `FREEZE` (R493). Holds a unit's counters. -/
def execFreeze (m : Nat) (u : CounterUnit) (on : Bool) (s : State) : Host.Outcome State Fault Refusal :=
  s.done (s.blk.cmdWrite m ((unitCtrl u)) (if on then 2 else 0))

/-- `CLEAR` (R498). Sets every counter of a unit to 0. -/
def execClear (m : Nat) (u : CounterUnit) (s : State) : Host.Outcome State Fault Refusal :=
  s.done (s.blk.cmdWrite m ((unitCtrl u)) (4 + (s.blk.reg (unitCtrl u) &&& 2)))

/-- `PM_GSNAP` (R495). Snapshots selected units in one step. -/
def execPmGsnap (m : Nat) (val : BitVec 32) (s : State) : Host.Outcome State Fault Refusal :=
  s.done (s.blk.cmdWrite m (Reg.pmGsnapReg) (val))

/-- `LOCK` (R532). Locks a register page with a key. -/
def execLock (m : Nat) (page : Nat) (key : BitVec 16) (s : State) : Host.Outcome State Fault Refusal :=
  s.done (s.blk.cmdWrite m (regKey page Reg.hLock) (0x80000000 + key.setWidth 32))

/-- `UNLOCK` (R532). Unlocks a page with the stored key. -/
def execUnlock (m : Nat) (page : Nat) (key : BitVec 16) (s : State) : Host.Outcome State Fault Refusal :=
  s.done (s.blk.cmdWrite m (regKey page Reg.hLock) (key.setWidth 32))

/-- `CNT_CLR` (R530). Clears every RC register of a page. (DEDUCED, log 114). -/
def execCntClr (m : Nat) (page : Nat) (s : State) : Host.Outcome State Fault Refusal :=
  s.done (s.blk.cmdWrite m (regKey page Reg.hCtrl) (1))

/-- `SET_ALIAS` (R526). Indivisible set of RW bits through the set alias. -/
def execSetAlias (m : Nat) (page : Nat) (off : Nat) (val : BitVec 32) (s : State) : Host.Outcome State Fault Refusal :=
  s.done (s.blk.cmdWrite m (regKey page (0x1000 + off)) (val))

/-- `CLEAR_ALIAS` (R526). Indivisible clear of RW bits through the clear alias. -/
def execClearAlias (m : Nat) (page : Nat) (off : Nat) (val : BitVec 32) (s : State) : Host.Outcome State Fault Refusal :=
  s.done (s.blk.cmdWrite m (regKey page (0x2000 + off)) (val))

/-- `RC_READ` (R10). Read returning a counter and clearing it. -/
def execRcRead (m : Nat) (page : Nat) (off : Nat) (s : State) : Host.Outcome State Fault Refusal :=
  s.done (s.blk.cmdRead m (regKey page off))

/-- `REGISTER_WRITE` (R10). Write to a register with no row of its own. -/
def execRegisterWrite (m : Nat) (page : Nat) (off : Nat) (val : BitVec 32) (s : State) : Host.Outcome State Fault Refusal :=
  s.done (s.blk.cmdWrite m (regKey page off) (val))

end Sys2Proof.Machine
end

