-- ==== Sys2Proof/Machine/CmdDrive.lean ====
section
/-! DEFINITION. The commands of the drive unit (R249 to R265), trips (R262, R263), sample ports (R266, R337), encoders and captures (R277, R278, R283). Each is one use of the operation that does it. -/
namespace Sys2Proof.Machine

/-- `PERIOD_START` (R251). A group period starts, steered to the timebase grid, with update point. -/
def execPeriodStart (g : Nat) (late : BitVec 3) (s : State) : Host.Outcome State Fault Refusal :=
  s.done (s.blk.periodStart g late)

/-- `PERIOD_TOP` (R250). Centre-mode top, an update point under UPD HALF. -/
def execPeriodTop (g : Nat) (late : BitVec 3) (s : State) : Host.Outcome State Fault Refusal :=
  s.done (s.blk.periodTop g late)

/-- `SWITCHING_EDGE` (R252). The switching signal of a leg rises or falls at its compare position. -/
def execSwitchingEdge (leg : Nat) (rise : Bool) (s : State) : Host.Outcome State Fault Refusal :=
  s.done (s.blk.switchEdge leg rise)

/-- `DEAD_TIME` (R253). An output turns on after s has held for DT ticks. -/
def execDeadTime (leg : Nat) (high : Bool) (s : State) : Host.Outcome State Fault Refusal :=
  s.done (s.blk.deadOver leg high)

/-- `TRIG` (R254). drv_trig pulses at its coarse position. -/
def execTrig (g : Nat) (s : State) : Host.Outcome State Fault Refusal :=
  s.done (s.blk.trigger g)

/-- `WDOG` (R259). A group without commits for n periods enters SAFE. -/
def execWdog (g : Nat) (s : State) : Host.Outcome State Fault Refusal :=
  s.done (s.blk.watchdog g)

/-- `CLK` (R261). No drv_refclk edge for 10 ns puts enabled groups in SAFE. -/
def execClk (s : State) : Host.Outcome State Fault Refusal :=
  s.done (s.blk.clkLoss)

/-- `DRV_REFCLK_RETURN` (R251). drv_refclk returns and groups re-establish their grid. -/
def execDrvRefclkReturn (s : State) : Host.Outcome State Fault Refusal :=
  s.done (s.blk.clkReturn)

/-- `GCTRL` (R280). Group control write: enable, mode, grant, SAFE_REQ, refusals. -/
def execGctrl (m : Nat) (g : Nat) (val : BitVec 32) (s : State) : Host.Outcome State Fault Refusal :=
  s.done (s.blk.cmdWrite m (Reg.gctrlReg g) (val))

/-- `GSTAT_CLEAR` (R261). W1C of WDOG or CLK releasing that safe cause. -/
def execGstatClear (m : Nat) (g : Nat) (val : BitVec 32) (s : State) : Host.Outcome State Fault Refusal :=
  s.done (s.blk.cmdWrite m (Reg.gstat g) (val))

/-- `TRIP` (R262). A filtered trip assertion latches and forces groups safe. -/
def execTrip (k : Nat) (s : State) : Host.Outcome State Fault Refusal :=
  s.done (s.blk.tripOn k)

/-- `TRIP_DEASSERT` (R263). A filtered trip input deasserts, clearing its TLEVEL bit so the latch may be cleared. -/
def execTripDeassert (k : Nat) (s : State) : Host.Outcome State Fault Refusal :=
  s.done (s.blk.tripOff k)

/-- `TLATCH_CLEAR` (R263). W1C clearing a trip latch if the input is deasserted. -/
def execTlatchClear (m : Nat) (val : BitVec 32) (s : State) : Host.Outcome State Fault Refusal :=
  s.done (s.blk.cmdWrite m (Reg.tlatch) (val))

/-- `SAMPLE_TRANSFER` (R266). A four-phase sample handshake captures or discards a sample. -/
def execSampleTransfer (port : Nat) (data : BitVec 16) (tag : BitVec 4) (rise : Bool) (s : State) : Host.Outcome State Fault Refusal :=
  s.done (s.blk.spReq port data tag rise)

/-- `SAMPLE_PORT_STUCK` (R337). sp_req high 4 µs after ack retires the port. -/
def execSamplePortStuck (port : Nat) (s : State) : Host.Outcome State Fault Refusal :=
  s.done (s.blk.whenUp fun b => b.spStuck port)

/-- `ENC_EDGE` (R277). A filtered quadrature edge updates the encoder position. -/
def execEncEdge (k : Nat) (a : Bool) (b : Bool) (s : State) : Host.Outcome State Fault Refusal :=
  s.done (s.blk.encEdge k (a, b))

/-- `ENC_INDEX` (R277). An enc_z rise records and optionally resets the position. -/
def execEncIndex (k : Nat) (s : State) : Host.Outcome State Fault Refusal :=
  s.done (s.blk.encIndex k)

/-- `CAPTURE_EDGE` (R278). A filtered capture edge is stamped into the FIFO. -/
def execCaptureEdge (c : Nat) (rise : Bool) (s : State) : Host.Outcome State Fault Refusal :=
  s.done (s.blk.capEdge c rise)

/-- `POP` (R278). Removes the oldest capture stamp. -/
def execPop (m : Nat) (c : Nat) (s : State) : Host.Outcome State Fault Refusal :=
  s.done (s.blk.cmdWrite m (Reg.capPop c) (1))

/-- `CLR_OVF` (R283). Clears a capture overflow flag. -/
def execClrOvf (m : Nat) (c : Nat) (s : State) : Host.Outcome State Fault Refusal :=
  s.done (s.blk.cmdWrite m (Reg.capPop c) (2))

end Sys2Proof.Machine
end

