-- ==== Sys2Proof/Machine/CmdFabric.lean ====
section
/-! DEFINITION. The commands of the fabric unit (R405 to R408, R411). Each is one use of the operation that does it. -/
namespace Sys2Proof.Machine

/-- `FABRIC_READ` (R408). OP_CMD READ issues a Talloth read. -/
def execFabricRead (m : Nat) (e : Nat) (width : BitVec 4) (len : BitVec 4) (s : State) : Host.Outcome State Fault Refusal :=
  s.done (s.blk.cmdWrite m (Reg.opCmd e) (opWord 1 width.toNat len.toNat))

/-- `FABRIC_WRITE` (R408). OP_CMD WRITE issues a Talloth write. -/
def execFabricWrite (m : Nat) (e : Nat) (width : BitVec 4) (len : BitVec 4) (s : State) : Host.Outcome State Fault Refusal :=
  s.done (s.blk.cmdWrite m (Reg.opCmd e) (opWord 2 width.toNat len.toNat))

/-- `FABRIC_CAS` (R408). OP_CMD CAS issues a remote compare-and-swap. -/
def execFabricCas (m : Nat) (e : Nat) (width : BitVec 4) (len : BitVec 4) (s : State) : Host.Outcome State Fault Refusal :=
  s.done (s.blk.cmdWrite m (Reg.opCmd e) (opWord 3 width.toNat len.toNat))

/-- `FABRIC_SWAP` (R408). OP_CMD SWAP issues a remote swap. -/
def execFabricSwap (m : Nat) (e : Nat) (width : BitVec 4) (len : BitVec 4) (s : State) : Host.Outcome State Fault Refusal :=
  s.done (s.blk.cmdWrite m (Reg.opCmd e) (opWord 4 width.toNat len.toNat))

/-- `FABRIC_ADD` (R408). OP_CMD ADD issues a remote add. -/
def execFabricAdd (m : Nat) (e : Nat) (width : BitVec 4) (len : BitVec 4) (s : State) : Host.Outcome State Fault Refusal :=
  s.done (s.blk.cmdWrite m (Reg.opCmd e) (opWord 5 width.toNat len.toNat))

/-- `FABRIC_DOORBELL` (R408). OP_CMD DOORBELL issues a remote doorbell. -/
def execFabricDoorbell (m : Nat) (e : Nat) (width : BitVec 4) (len : BitVec 4) (s : State) : Host.Outcome State Fault Refusal :=
  s.done (s.blk.cmdWrite m (Reg.opCmd e) (opWord 6 width.toNat len.toNat))

/-- `TALLOTH_READ` (R406). Target performs a received READ and responds. -/
def execTallothRead (src : Nat) (hdr : TalFrame) (s : State) : Host.Outcome State Fault Refusal :=
  s.done (s.blk.fabRequest 1 src hdr)

/-- `TALLOTH_WRITE` (R406). Target performs a received WRITE and responds. -/
def execTallothWrite (src : Nat) (hdr : TalFrame) (s : State) : Host.Outcome State Fault Refusal :=
  s.done (s.blk.fabRequest 2 src hdr)

/-- `TALLOTH_CAS` (R406). Target performs a received CAS. -/
def execTallothCas (src : Nat) (hdr : TalFrame) (s : State) : Host.Outcome State Fault Refusal :=
  s.done (s.blk.fabRequest 3 src hdr)

/-- `TALLOTH_SWAP` (R406). Target performs a received SWAP. -/
def execTallothSwap (src : Nat) (hdr : TalFrame) (s : State) : Host.Outcome State Fault Refusal :=
  s.done (s.blk.fabRequest 4 src hdr)

/-- `TALLOTH_ADD` (R406). Target performs a received ADD. -/
def execTallothAdd (src : Nat) (hdr : TalFrame) (s : State) : Host.Outcome State Fault Refusal :=
  s.done (s.blk.fabRequest 5 src hdr)

/-- `DOORBELL` (R406). Target appends a doorbell value to DB_FIFO. -/
def execDoorbell (src : Nat) (hdr : TalFrame) (s : State) : Host.Outcome State Fault Refusal :=
  s.done (s.blk.fabRequest 6 src hdr)

/-- `READ_RESP` (R406). Requester takes read data and completes. -/
def execReadResp (src : Nat) (hdr : TalFrame) (s : State) : Host.Outcome State Fault Refusal :=
  s.done (Blk.fabFor (s.blk.fabResponse 0x81 src hdr))

/-- `COMPLETE` (R406). Requester takes a write or doorbell completion. -/
def execComplete (src : Nat) (hdr : TalFrame) (s : State) : Host.Outcome State Fault Refusal :=
  s.done (Blk.fabFor (s.blk.fabResponse 0x82 src hdr))

/-- `ATOMIC_RESP` (R406). Requester takes an atomic's old value. -/
def execAtomicResp (src : Nat) (hdr : TalFrame) (s : State) : Host.Outcome State Fault Refusal :=
  s.done (Blk.fabFor (s.blk.fabResponse 0x83 src hdr))

/-- `TALLOTH_ACK` (R407). An ACK frees acknowledged frames. -/
def execTallothAck (src : Nat) (ack : BitVec 32) (start : Bool) (s : State) : Host.Outcome State Fault Refusal :=
  s.done (s.blk.fabAck src ack.toNat start)

/-- `TALLOTH_NAK` (R407). A NAK resends every unacknowledged frame. -/
def execTallothNak (src : Nat) (ack : BitVec 32) (s : State) : Host.Outcome State Fault Refusal :=
  s.done (s.blk.fabNak src ack.toNat)

/-- `FAB_RTO` (R407). Retransmission timeout resends or ends operations with TIMEOUT. -/
def execFabRto (peer : Nat) (s : State) : Host.Outcome State Fault Refusal :=
  s.done (Blk.fabFor (s.blk.fabRto peer))

/-- `FABRIC_ACK_SEND` (R407). Target acknowledges within 2 µs. -/
def execFabricAckSend (peer : Nat) (s : State) : Host.Outcome State Fault Refusal :=
  s.done (s.blk.fabAckSend peer)

/-- `DB_FIFO` (R406). Read popping the oldest doorbell value. -/
def execDbFifo (m : Nat) (s : State) : Host.Outcome State Fault Refusal :=
  s.done (s.blk.cmdRead m Reg.dbFifoReg)

/-- `PEER_DOWN_CLEAR` (R411). W1C clears a peer's PEER_DOWN. -/
def execPeerDownClear (m : Nat) (node : BitVec 9) (s : State) : Host.Outcome State Fault Refusal :=
  s.done ((s.blk.cmdWrite m Reg.peerIdx (node.setWidth 32)).cmdWrite m Reg.peerStat 1)

end Sys2Proof.Machine
end

