-- ==== Sys2Proof/Machine/CmdHost.lean ====
section
/-! DEFINITION. The commands of the host port, its commands and mailboxes (R426 to R437), power and Sleep (R440 to R449), the scratchpad banks (R235 to R245). Each is one use of the operation that does it. -/
namespace Sys2Proof.Machine

/-- `HOST_READ` (R429). Host read request, checked by its CRC and performed beat by beat as master 18. -/
def execHostRead (addr : BitVec 40) (beats : Nat) (tag : BitVec 6) (crc : BitVec 16) (s : State) :
    Host.Outcome State Fault Refusal :=
  s.done (s.blk.hostAsk { write := false, addr := addr, beats := beats, data := [], tag := tag, crc := crc })

/-- `HOST_WRITE` (R429). Host write request, checked by its CRCs and performed beat by beat as master 18. -/
def execHostWrite (addr : BitVec 40) (beats : List (BitVec 128 × BitVec 16 × BitVec 16)) (tag : BitVec 6) (crc : BitVec 16)
    (s : State) : Host.Outcome State Fault Refusal :=
  s.done (s.blk.hostAsk { write := true, addr := addr, beats := beats.length, data := beats, tag := tag, crc := crc })

/-- `HP_PORT_RST` (R432). hp_port_rst_n low resets the port interface. -/
def execHpPortRst (s : State) : Host.Outcome State Fault Refusal :=
  s.done (s.blk.portRst true)

/-- `HP_PORT_RST_RELEASE` (R430). hp_port_rst_n rises and the port accepts requests again, hp_rdy following its conditions. -/
def execHpPortRstRelease (s : State) : Host.Outcome State Fault Refusal :=
  s.done (s.blk.portRst false)

/-- `HP_HOLD` (R426). hp_hold_n low for 40 ns acts as the SAFE_HOLD command. -/
def execHpHold (s : State) : Host.Outcome State Fault Refusal :=
  s.done (s.blk.hostHold)

/-- `HCMD_NOP` (R433). Host command with no effect. -/
def execHcmdNop (arg : BitVec 28) (s : State) : Host.Outcome State Fault Refusal :=
  s.done (s.blk.cmdWrite 18 Reg.hcmd (arg.setWidth 32 <<< 4))

/-- `HCMD_START` (R433). Enables a network service. -/
def execHcmdStart (svc : BitVec 4) (arg : BitVec 16) (s : State) : Host.Outcome State Fault Refusal :=
  s.done (s.blk.cmdWrite 18 Reg.hcmd (hcmdWord 1 svc arg))

/-- `HCMD_STOP` (R433). Disables a network service. -/
def execHcmdStop (svc : BitVec 4) (arg : BitVec 16) (s : State) : Host.Outcome State Fault Refusal :=
  s.done (s.blk.cmdWrite 18 Reg.hcmd (hcmdWord 2 svc arg))

/-- `QUERY` (R433). Reports service enables in HRES. -/
def execQuery (svc : BitVec 4) (arg : BitVec 16) (s : State) : Host.Outcome State Fault Refusal :=
  s.done (s.blk.cmdWrite 18 Reg.hcmd (hcmdWord 3 svc arg))

/-- `HCMD_SAFE_HOLD` (R433). Host command entering Safe Hold. -/
def execHcmdSafeHold (arg : BitVec 16) (s : State) : Host.Outcome State Fault Refusal :=
  s.done (s.blk.cmdWrite 18 Reg.hcmd (hcmdWord 4 0 arg))

/-- `HCMD_SLEEP` (R433). Host Sleep request to the power controller. -/
def execHcmdSleep (arg : BitVec 16) (s : State) : Host.Outcome State Fault Refusal :=
  s.done (s.blk.cmdWrite 18 Reg.hcmd (hcmdWord 5 0 arg))

/-- `HCMD_TAKEOVER` (R433). Host-triggered mirror takeover on a follower. -/
def execHcmdTakeover (arg : BitVec 16) (s : State) : Host.Outcome State Fault Refusal :=
  s.done (s.blk.cmdWrite 18 Reg.hcmd (hcmdWord 6 0 arg))

/-- `HCMD_RESET` (R433). Host reset request with ARG 0x5A5A. -/
def execHcmdReset (arg : BitVec 16) (s : State) : Host.Outcome State Fault Refusal :=
  s.done (s.blk.cmdWrite 18 Reg.hcmd (hcmdWord 7 0 arg))

/-- `HCMD_DONE` (R432). A host command completes and sets HRES.DONE. -/
def execHcmdDone (s : State) : Host.Outcome State Fault Refusal :=
  s.done (s.blk.hcmdDone)

/-- `HRES_DONE_CLEAR` (R432). Host frees the command result. -/
def execHresDoneClear (s : State) : Host.Outcome State Fault Refusal :=
  s.done (s.blk.cmdWrite 18 Reg.hres 1)

/-- `MB_INPOST` (R431). Host posts an IN mailbox message. -/
def execMbInpost (k : Nat) (len : BitVec 7) (s : State) : Host.Outcome State Fault Refusal :=
  s.done (s.blk.cmdWrite 18 (Reg.mbInpostReg k) (len.setWidth 32))

/-- `MB_IN_FREE` (R431). Firmware frees an IN buffer. -/
def execMbInFree (m : Nat) (k : Nat) (s : State) : Host.Outcome State Fault Refusal :=
  s.done (s.blk.cmdWrite m (Reg.mbInstat k) (0x80000000))

/-- `MB_OUTPOST` (R431). Firmware posts an OUT mailbox message. -/
def execMbOutpost (m : Nat) (k : Nat) (len : BitVec 7) (s : State) : Host.Outcome State Fault Refusal :=
  s.done (s.blk.cmdWrite m (Reg.mbOutpostReg k) (len.setWidth 32))

/-- `MB_OUT_TAKE` (R431). Host takes an OUT message. -/
def execMbOutTake (k : Nat) (s : State) : Host.Outcome State Fault Refusal :=
  s.done (s.blk.cmdWrite 18 (Reg.mbOutstat k) 0x80000000)

/-- `SLEEP_CMD` (R444). Machine-level Sleep request, refused or starting entry. -/
def execSleepCmd (m : Nat) (val : BitVec 32) (s : State) : Host.Outcome State Fault Refusal :=
  s.done (s.blk.cmdWrite m (Reg.sleepCmd) (val))

/-- `SLEEP_COMMIT` (R445). Entry completes and the block enters Sleep. -/
def execSleepCommit (s : State) : Host.Outcome State Fault Refusal :=
  s.done (s.blk.sleepCommit)

/-- `ENTRY_TMO` (R445). Sleep entry abandoned for timeout. -/
def execEntryTmo (s : State) : Host.Outcome State Fault Refusal :=
  s.done (s.blk.sleepTimeout)

/-- `WAKE_EVENT` (R446). A qualifying wake event starts the fixed wake schedule. -/
def execWakeEvent (kind : Nat) (s : State) : Host.Outcome State Fault Refusal :=
  s.done (s.blk.wake kind)

/-- `WAKE_BANKS_ON` (R447). At 4.5 µs retained banks return to on and NET isolation lifts. -/
def execWakeBanksOn (s : State) : Host.Outcome State Fault Refusal :=
  s.done (s.blk.wakeBanks)

/-- `WAKE_POINT` (R447). At 6.0 µs the mode returns and engines issue. -/
def execWakePoint (ns : Nat) (s : State) : Host.Outcome State Fault Refusal :=
  s.done (s.blk.wakePoint ns)

/-- `PWR_VACK` (R448). A late pwr_vack resumes the wake schedule. -/
def execPwrVack (level : Bool) (s : State) : Host.Outcome State Fault Refusal :=
  s.done (s.blk.vack level)

/-- `PWR_DROOP` (R443). A droop input change raises the pacing level. -/
def execPwrDroop (code : BitVec 4) (s : State) : Host.Outcome State Fault Refusal :=
  s.done (s.blk.droopIn code)

/-- `DROOP_HOLD` (R443). A droop level falls after 50 ns deasserted. -/
def execDroopHold (k : Nat) (s : State) : Host.Outcome State Fault Refusal :=
  s.done (s.blk.droopOut k)

/-- `PWR_CAP` (R443). The integrator's pacing floor input changes. -/
def execPwrCap (cap : BitVec 2) (s : State) : Host.Outcome State Fault Refusal :=
  s.done (s.blk.capIn cap.toNat)

/-- `TJ_WARN` (R449). pwr_tj_warn changes and sets its event. -/
def execTjWarn (level : Bool) (s : State) : Host.Outcome State Fault Refusal :=
  s.done (s.blk.tjIn 0 level)

/-- `TJ_CRIT` (R449). pwr_tj_crit changes and sets its event. -/
def execTjCrit (level : Bool) (s : State) : Host.Outcome State Fault Refusal :=
  s.done (s.blk.tjIn 1 level)

/-- `BANK_PWR` (R239). Requests a bank power state, judged against its future state. -/
def execBankPwr (m : Nat) (j : Nat) (val : BitVec 32) (s : State) : Host.Outcome State Fault Refusal :=
  s.done (s.blk.cmdWrite m (Reg.bankPwr j) (val))

/-- `BANK_TRANSITION_START` (R241). A deferred bank transition begins after bursts drain. -/
def execBankTransitionStart (bank : Nat) (s : State) : Host.Outcome State Fault Refusal :=
  s.done (s.blk.bankBegin bank)

/-- `PWR_DONE` (R239). A bank power transition ends. -/
def execPwrDone (bank : Nat) (s : State) : Host.Outcome State Fault Refusal :=
  s.done (s.blk.bankDone bank)

/-- `ECC_WRITE_BACK` (R235). A corrected word is written back in an idle slot. -/
def execEccWriteBack (addr : Nat) (s : State) : Host.Outcome State Fault Refusal :=
  s.done (s.blk.writeBack addr)

/-- `SPARE_COPY_DONE` (R237). A spare takes over a retired bank's addresses. -/
def execSpareCopyDone (k : Nat) (s : State) : Host.Outcome State Fault Refusal :=
  s.done (s.blk.spareDone k)

/-- `COLLIDE_VALID_CLEAR` (R244). Clears the collision record. -/
def execCollideValidClear (m : Nat) (val : BitVec 32) (s : State) : Host.Outcome State Fault Refusal :=
  s.done (s.blk.cmdWrite m (Reg.collideMst) (val &&& 0x80000000))

end Sys2Proof.Machine
end

