-- ==== Sys2Proof/Machine/CmdLinks.lean ====
section
/-! DEFINITION. The commands of the backbone lanes (R376 to R391) and the switch with its services (R392 to R404, R409 to R411). Each is one use of the operation that does it. -/
namespace Sys2Proof.Machine

/-- `LCTRL` (R391). Lane control write enabling attempts or refusing changes. -/
def execLctrl (m : Nat) (k : Nat) (val : BitVec 32) (s : State) : Host.Outcome State Fault Refusal :=
  s.done (s.blk.cmdWrite m (Reg.lctrlReg k) (val))

/-- `RETIRE` (R383). LCMD RETIRE retires the lane. -/
def execRetire (m : Nat) (k : Nat) (s : State) : Host.Outcome State Fault Refusal :=
  s.done (s.blk.cmdWrite m (Reg.lcmd k) (1))

/-- `RELINK` (R390). LCMD RELINK restarts an attempt with zero failures. -/
def execRelink (m : Nat) (k : Nat) (s : State) : Host.Outcome State Fault Refusal :=
  s.done (s.blk.cmdWrite m (Reg.lcmd k) (2))

/-- `PHY_RESET_DONE` (R381). phy_rst_n is raised after 1.0 µs low. -/
def execPhyResetDone (k : Nat) (s : State) : Host.Outcome State Fault Refusal :=
  s.done (s.blk.laneReset1 k)

/-- `TX_RDY` (R381). The PHY transmitter reports ready and training starts. -/
def execTxRdy (k : Nat) (s : State) : Host.Outcome State Fault Refusal :=
  s.done (s.blk.laneTxRdy k)

/-- `TRAIN` (R380). A training exchange ends with DONE or FAILED. -/
def execTrain (k : Nat) (stat : BitVec 8) (s : State) : Host.Outcome State Fault Refusal :=
  s.done (s.blk.laneTrain k stat.toNat)

/-- `AM_RECEIVED` (R378). An alignment marker is matched, giving lock, deskew or UP: the slot at a place of a sublane's bit stream. -/
def execAmReceived (k : Nat) (sub : Nat) (x : PlacedSlot) (s : State) : Host.Outcome State Fault Refusal :=
  s.done (s.blk.laneMarker k sub x.pos x.slot)

/-- `ATTEMPT_TIMEOUT` (R381). An attempt not UP within ATT_MS fails, possibly losing the lane. -/
def execAttemptTimeout (k : Nat) (s : State) : Host.Outcome State Fault Refusal :=
  s.done (s.blk.laneTimeout k)

/-- `SIG_DET_LOSS` (R382). sig_det low for 1.0 µs takes the lane down. -/
def execSigDetLoss (k : Nat) (s : State) : Host.Outcome State Fault Refusal :=
  s.done (s.blk.laneNoSig k)

/-- `PHY_STATUS_LOW` (R382). tx_rdy or rx_lock low takes the lane down. -/
def execPhyStatusLow (k : Nat) (rxLock : Bool) (s : State) : Host.Outcome State Fault Refusal :=
  s.done (s.blk.laneStatusLow k rxLock)

/-- `CODEWORD_RECEIVED` (R376). A codeword is decoded, corrected or marked uncorrectable; in its time the transmitter sends one of its MAC's blocks. -/
def execCodewordReceived (k : Nat) (data parity : List (BitVec 10)) (mac : List (BitVec 66)) (s : State) : Host.Outcome State Fault Refusal :=
  s.done (s.blk.laneCw k (data ++ parity) mac)

/-- `PHY_IRQ` (R379). PHY attention sets the PHY event. -/
def execPhyIrq (k : Nat) (level : Bool) (s : State) : Host.Outcome State Fault Refusal :=
  s.done (s.blk.lanePhyIrq k level)

/-- `SIGNAL_PRESENT` (R381). sig_det rises, with `lock` rx_lock too, and a waiting lane attempt proceeds past its step 5. -/
def execSignalPresent (x : LaneSignal) (s : State) : Host.Outcome State Fault Refusal :=
  s.done (s.blk.laneSignal x.k x.lock)

/-- `AM_LOCK_LOST` (R378). The third consecutive expected marker fails to match, losing AM lock and taking the lane down. -/
def execAmLockLost (k : Nat) (sub : Nat) (s : State) : Host.Outcome State Fault Refusal :=
  s.done (s.blk.laneSlip k sub)

/-- `FRAME_RECEIVE` (R395). A received frame is checked and classified to a service, CPU queue or forwarding. -/
def execFrameReceive (port : Nat) (ts : BitVec 64) (err : Bool) (frame : List Byte) (s : State) : Host.Outcome State Fault Refusal :=
  s.done (s.blk.frameIn port ts err frame)

/-- `FRAME_TRANSMIT` (R394). A queued frame starts on an idle egress port with an open gate. -/
def execFrameTransmit (port : Nat) (q : Nat) (_ts : BitVec 64) (s : State) : Host.Outcome State Fault Refusal :=
  s.done (s.blk.transmit port q)

/-- `CPU_TXPOST` (R397). Hands transmit descriptors up to a tail to a CPU queue. -/
def execCpuTxpost (m : Nat) (q : Nat) (val : BitVec 32) (s : State) : Host.Outcome State Fault Refusal :=
  s.done (s.blk.cmdWrite m (Reg.cpuTxpostReg q) (val))

/-- `FDB_READ` (R411). Reads an FDB entry into the window. -/
def execFdbRead (m : Nat) (idx : BitVec 13) (s : State) : Host.Outcome State Fault Refusal :=
  s.done (s.blk.cmdWrite m (Reg.fdbCmd) (BitVec.ofNat 32 (1 + 8 * idx.toNat)))

/-- `FDB_WRITE` (R411). Writes an FDB entry from the window. -/
def execFdbWrite (m : Nat) (idx : BitVec 13) (s : State) : Host.Outcome State Fault Refusal :=
  s.done (s.blk.cmdWrite m (Reg.fdbCmd) (BitVec.ofNat 32 (2 + 8 * idx.toNat)))

/-- `FLUSH` (R411). Flushes FDB entries. -/
def execFlush (m : Nat) (s : State) : Host.Outcome State Fault Refusal :=
  s.done (s.blk.cmdWrite m (Reg.fdbCmd) (4))

/-- `VLAN_READ` (R411). Reads a VLAN entry. -/
def execVlanRead (m : Nat) (vid : BitVec 12) (s : State) : Host.Outcome State Fault Refusal :=
  s.done (s.blk.cmdWrite m (Reg.vlanCmd) (BitVec.ofNat 32 (1 + 16 * vid.toNat)))

/-- `VLAN_WRITE` (R411). Writes a VLAN entry. -/
def execVlanWrite (m : Nat) (vid : BitVec 12) (s : State) : Host.Outcome State Fault Refusal :=
  s.done (s.blk.cmdWrite m (Reg.vlanCmd) (BitVec.ofNat 32 (2 + 16 * vid.toNat)))

/-- `STRM_READ` (R400). Reads a stream table entry. -/
def execStrmRead (m : Nat) (s : State) : Host.Outcome State Fault Refusal :=
  s.done (s.blk.cmdWrite m (Reg.strmCmd) (1))

/-- `STRM_WRITE` (R400). Writes a stream table entry. -/
def execStrmWrite (m : Nat) (s : State) : Host.Outcome State Fault Refusal :=
  s.done (s.blk.cmdWrite m (Reg.strmCmd) (2))

/-- `SA_READ` (R401). Reads a MACsec SA entry. -/
def execSaRead (m : Nat) (s : State) : Host.Outcome State Fault Refusal :=
  s.done (s.blk.cmdWrite m (Reg.saCmd) (1))

/-- `SA_WRITE` (R401). Writes a MACsec SA entry. -/
def execSaWrite (m : Nat) (s : State) : Host.Outcome State Fault Refusal :=
  s.done (s.blk.cmdWrite m (Reg.saCmd) (2))

/-- `FDB_AGING` (R394). A learned FDB entry ages out. -/
def execFdbAging (idx : Nat) (s : State) : Host.Outcome State Fault Refusal :=
  s.done (s.blk.fdbAge idx)

/-- `GATE_INTERVAL` (R399). A gate control list interval expires and the next entry applies. -/
def execGateInterval (port : Nat) (s : State) : Host.Outcome State Fault Refusal :=
  s.done (s.blk.gateNext port)

/-- `OPER` (R399). Schedules a gate list swap. -/
def execOper (m : Nat) (port : Nat) (val : BitVec 32) (s : State) : Host.Outcome State Fault Refusal :=
  s.done (s.blk.cmdWrite m (Reg.operReg port) (val))

/-- `GATE_LIST_SWAP` (R399). The new gate list takes over at a cycle start. -/
def execGateListSwap (port : Nat) (s : State) : Host.Outcome State Fault Refusal :=
  s.done (s.blk.gateSwap port)

/-- `SYNC_SEND` (R402). Grandmaster sends gPTP Sync at its interval. -/
def execSyncSend (port : Nat) (s : State) : Host.Outcome State Fault Refusal :=
  s.done (s.blk.asSync port)

/-- `DOIP_ANNOUNCEMENT` (R409). DoIP vehicle announcement sent 500 ms apart after enable. -/
def execDoipAnnouncement (s : State) : Host.Outcome State Fault Refusal :=
  s.done (s.blk.doipAnnounce)

/-- `ECFG` (R403). Edge port configuration write, refusing reserved pairs. -/
def execEcfg (m : Nat) (n : Nat) (val : BitVec 32) (s : State) : Host.Outcome State Fault Refusal :=
  s.done (s.blk.cmdWrite m (Reg.ecfgReg n) (val))

/-- `EDGE_LINK` (R404). An edge PHY link input changes. -/
def execEdgeLink (n : Nat) (level : Bool) (s : State) : Host.Outcome State Fault Refusal :=
  s.done (s.blk.edgeIn n level)

/-- `EDGE_PORT_LOST` (R404). No edge clock edge for 1 ms with link high retires the port. -/
def execEdgePortLost (n : Nat) (s : State) : Host.Outcome State Fault Refusal :=
  s.done (s.blk.edgeLost n)

/-- `RECOVERY_RESET_TIMEOUT` (R400). An IEEE 802.1CB stream's recovery reset timeout RECTO expires and its recovery history resets. -/
def execRecoveryResetTimeout (k : Nat) (s : State) : Host.Outcome State Fault Refusal :=
  s.done (s.blk.recovReset k)

end Sys2Proof.Machine
end

