-- ==== Sys2Proof/Machine/CmdMover.lean ====
section
/-! DEFINITION. The commands of the block mover (R285 to R302) and the memory port (R412 to R423). Each is one use of the operation that does it. -/
namespace Sys2Proof.Machine

/-- `CHANNEL_START` (R302). Loads the descriptor at DESC and runs the channel. -/
def execChannelStart (m : Nat) (ch : Nat) (s : State) : Host.Outcome State Fault Refusal :=
  s.done (s.blk.cmdWrite m (Reg.ccmd ch) (1))

/-- `CHANNEL_STOP` (R302). Stops a channel at the next beat boundary. -/
def execChannelStop (m : Nat) (ch : Nat) (s : State) : Host.Outcome State Fault Refusal :=
  s.done (s.blk.cmdWrite m (Reg.ccmd ch) (2))

/-- `CHANNEL_RESUME` (R302). Retries the failing beat of a halted channel. -/
def execChannelResume (m : Nat) (ch : Nat) (s : State) : Host.Outcome State Fault Refusal :=
  s.done (s.blk.cmdWrite m (Reg.ccmd ch) (3))

/-- `APPEND` (R299). Doorbell arming a LINK re-read or reloading an ended chain. -/
def execAppend (m : Nat) (ch : Nat) (val : BitVec 32) (s : State) : Host.Outcome State Fault Refusal :=
  s.done (s.blk.cmdWrite m (Reg.appendReg ch) (val))

/-- `DESCRIPTOR_LOAD` (R286). Reads and checks a descriptor's first 32 bytes. -/
def execDescriptorLoad (ch : Nat) (s : State) : Host.Outcome State Fault Refusal :=
  s.done (s.blk.descLoad ch)

/-- `MOVER_BURST` (R290). A path carries a burst's read then write beats, up to `beats` of them. -/
def execMoverBurst (x : BurstTurn) (s : State) : Host.Outcome State Fault Refusal :=
  s.done (Blk.fabFor (s.blk.moverBurst x.ch x.beats))

/-- `LINK_READ` (R297). At a descriptor's finish, the LINK word is read and followed. -/
def execLinkRead (ch : Nat) (s : State) : Host.Outcome State Fault Refusal :=
  s.done (s.blk.linkRead ch)

/-- `MP_CTRL` (R413). Enables a memory channel and loads its credits. -/
def execMpCtrl (m : Nat) (val : BitVec 32) (s : State) : Host.Outcome State Fault Refusal :=
  s.done (s.blk.cmdWrite m (Reg.mpCtrlReg) (val))

/-- `MP_REQUEST` (R413). Sends a request with its write units when credits allow. -/
def execMpRequest (c : Nat) (s : State) : Host.Outcome State Fault Refusal :=
  s.done (s.blk.mpSend c)

/-- `CREDIT_RETURN` (R413). A credit pulse returns one credit. -/
def execCreditReturn (c : Nat) (write : Bool) (s : State) : Host.Outcome State Fault Refusal :=
  s.done (s.blk.mpCredit c write)

/-- `READ_RESPONSE` (R414). A read unit arrives and its CRC and status are checked. -/
def execReadResponse (c : Nat) (tag : Nat) (sts : BitVec 2) (crc : BitVec 16) (data : List Byte) (s : State) : Host.Outcome State Fault Refusal :=
  s.done (Blk.deliver (s.blk.mpReadUnit c tag sts crc data))

/-- `WRITE_ACK` (R420). A write acknowledge performs the write or reports an error. -/
def execWriteAck (c : Nat) (tag : Nat) (sts : BitVec 2) (s : State) : Host.Outcome State Fault Refusal :=
  s.done (Blk.deliver (s.blk.mpWriteAck c tag sts))

/-- `MP_TMO` (R416). A request without response within MP_TMO is a channel error. -/
def execMpTmo (c : Nat) (tag : Nat) (s : State) : Host.Outcome State Fault Refusal :=
  s.done (Blk.deliver (s.blk.mpTimeout c tag))

/-- `CTL_ERR` (R423). ctl_err loses the channel. (DEDUCED, log 68). -/
def execCtlErr (c : Nat) (s : State) : Host.Outcome State Fault Refusal :=
  s.done (if (s.blk.chan c).en then Blk.deliver (s.blk.mpLose c) else s.blk)

/-- `CTL_RDY_LOSS` (R423). ctl_rdy low 1 µs loses the channel. (DEDUCED, log 68). -/
def execCtlRdyLoss (c : Nat) (s : State) : Host.Outcome State Fault Refusal :=
  s.done (if (s.blk.chan c).en then Blk.deliver (s.blk.mpLose c) else s.blk)

end Sys2Proof.Machine
end

