-- ==== Sys2Proof/Machine/CmdTasks.lean ====
section
/-! DEFINITION. The commands of the engines as units (R160, R177, R52, R268), the event router (R194 to R213), tasks and bindings (R173, R189 to R193). Each is one use of the operation that does it. -/
namespace Sys2Proof.Machine

/-- `ARITH` (R160). Report of a pending imprecise arithmetic trap at its report point. (DEDUCED, log 47). -/
def execArith (e : Nat) (s : State) : Host.Outcome State Fault Refusal :=
  s.done (s.blk.arithPoint (s.blk.lead e))

/-- `DISPATCH` (R177). Two-step switch to the Ready task of highest rank at a switch point. -/
def execDispatch (e : Nat) (s : State) : Host.Outcome State Fault Refusal :=
  s.done (s.blk.dispatch (s.blk.lead e))

/-- `TIMED_WAKE` (R52). Timebase reaches a waiting task's target and the task becomes Ready. -/
def execTimedWake (e : Nat) (t : Nat) (s : State) : Host.Outcome State Fault Refusal :=
  s.done (s.blk.timedWake (s.blk.lead e) t)

/-- `BYPASS_ACCEPT` (R268). A bound task accepts a held sample, pushing the entry and taking bypass rank. -/
def execBypassAccept (port : Nat) (s : State) : Host.Outcome State Fault Refusal :=
  s.done (s.blk.bypassAccept port)

/-- `EVT_SRC` (R197). An external source input changes level. -/
def execEvtSrc (k : Nat) (level : Bool) (s : State) : Host.Outcome State Fault Refusal :=
  s.done ({ s.blk with router := { s.blk.router with ext := Tab.set (fun _ => false) s.blk.router.ext k level } })

/-- `ROUTER_SELECTION` (R202). At a latch step an engine selects its best pending candidate. -/
def execRouterSelection (e : Nat) (s : State) : Host.Outcome State Fault Refusal :=
  s.done (if s.blk.mayRun (s.blk.lead e) then s.blk.latch (s.blk.lead e) none else s.blk)

/-- `STORM_WINDOW` (R212). A storm window ends and commit counts return to zero. -/
def execStormWindow (win : Nat) (s : State) : Host.Outcome State Fault Refusal :=
  s.done (s.blk.stormWindow win)

/-- `PEND_SET` (R217). Sets a source's software pending bit. -/
def execPendSet (m : Nat) (val : BitVec 32) (s : State) : Host.Outcome State Fault Refusal :=
  s.done (s.blk.cmdWrite m (Reg.pendSet) (val))

/-- `PEND_CLR` (R217). Clears a source's software pending bit. -/
def execPendClr (m : Nat) (val : BitVec 32) (s : State) : Host.Outcome State Fault Refusal :=
  s.done (s.blk.cmdWrite m (Reg.pendClr) (val))

/-- `QUAR_RELEASE` (R213). W1C write releasing a quarantined source and zeroing its count. -/
def execQuarRelease (m : Nat) (j : Nat) (val : BitVec 32) (s : State) : Host.Outcome State Fault Refusal :=
  s.done (s.blk.cmdWrite m (Reg.quar j) (val))

/-- `TASK_START` (R173). TASK_CMD START makes an Idle task Ready. -/
def execTaskStart (m : Nat) (e : Nat) (s : State) : Host.Outcome State Fault Refusal :=
  s.done (s.blk.cmdWrite m (Reg.taskCmd e) (1))

/-- `TASK_STOP` (R173). TASK_CMD STOP makes a task Idle. -/
def execTaskStop (m : Nat) (e : Nat) (s : State) : Host.Outcome State Fault Refusal :=
  s.done (s.blk.cmdWrite m (Reg.taskCmd e) (2))

/-- `TASK_HALT` (R173). TASK_CMD HALT makes a task Halted. -/
def execTaskHalt (m : Nat) (e : Nat) (s : State) : Host.Outcome State Fault Refusal :=
  s.done (s.blk.cmdWrite m (Reg.taskCmd e) (3))

/-- `TASK_RESUME` (R173). TASK_CMD RESUME makes a Halted task Ready. -/
def execTaskResume (m : Nat) (e : Nat) (s : State) : Host.Outcome State Fault Refusal :=
  s.done (s.blk.cmdWrite m (Reg.taskCmd e) (4))

/-- `CTX_READ` (R192). Copies a context item of an Idle or Halted task to the data registers. -/
def execCtxRead (m : Nat) (e : Nat) (s : State) : Host.Outcome State Fault Refusal :=
  s.done (s.blk.cmdWrite m (Reg.ctxCmd e) (1))

/-- `CTX_WRITE` (R192). Copies the data registers into a context item. -/
def execCtxWrite (m : Nat) (e : Nat) (s : State) : Host.Outcome State Fault Refusal :=
  s.done (s.blk.cmdWrite m (Reg.ctxCmd e) (2))

/-- `LVLMAP` (R191). Write of router level bindings, refusing invalid tasks. -/
def execLvlmap (m : Nat) (e : Nat) (j : Nat) (val : BitVec 32) (s : State) : Host.Outcome State Fault Refusal :=
  s.done (s.blk.cmdWrite m (Reg.lvlmap e j) (val))

/-- `BYPMAP` (R191). Write of sample port bindings, refusing invalid tasks. -/
def execBypmap (m : Nat) (e : Nat) (j : Nat) (val : BitVec 32) (s : State) : Host.Outcome State Fault Refusal :=
  s.done (s.blk.cmdWrite m (Reg.bypmap e j) (val))

end Sys2Proof.Machine
end

