-- ==== Sys2Proof/Machine/CmdTime.lean ====
section
/-! DEFINITION. The commands of the timebase (R43, R48 to R55, R503, R508) and the modes (R21, R26, R29). Each is one use of the operation that does it. -/
namespace Sys2Proof.Machine

/-- `TB_CTRL_LOAD` (R50). Loads the timebase counter in Configure. -/
def execTbCtrlLoad (m : Nat) (s : State) : Host.Outcome State Fault Refusal :=
  s.done (s.blk.cmdWrite m (Reg.tbCtrl) (1))

/-- `OFFSET_ADJ` (R49). Adds a signed slew request to the remaining slew. -/
def execOffsetAdj (m : Nat) (val : BitVec 32) (s : State) : Host.Outcome State Fault Refusal :=
  s.done (s.blk.cmdWrite m (Reg.offsetAdj) (val))

/-- `RATE_ADJ` (R48). Writes a clamped rate correction. -/
def execRateAdj (m : Nat) (val : BitVec 32) (s : State) : Host.Outcome State Fault Refusal :=
  s.done (s.blk.cmdWrite m (Reg.rateAdj) (val))

/-- `INC_WRITE` (R48). Writes INC_NS or INC_FRAC, refusing illegal increments or modes. -/
def execIncWrite (m : Nat) (frac : Bool) (val : BitVec 32) (s : State) : Host.Outcome State Fault Refusal :=
  s.done (s.blk.cmdWrite m (if frac then Reg.incFrac else Reg.incNs) val)

/-- `TIME_LO` (R51). Read returning the counter low half and latching the high half per master. -/
def execTimeLo (m : Nat) (s : State) : Host.Outcome State Fault Refusal :=
  s.done (s.blk.cmdRead m Reg.timeLo)

/-- `STEPMETER_WINDOW` (R43). At each microsecond boundary the step meter loads RATE and PACE; PACE is the level that the block itself had in
force, whatever the row's operand says. -/
def execStepmeterWindow (rate : BitVec 12) (_pace : BitVec 3) (s : State) : Host.Outcome State Fault Refusal :=
  s.done (s.blk.meterWindow rate.toNat)

/-- `TB_PPS` (R508). Timebase passes a multiple of 10^9 ns and pulses the PPS outputs. (DEDUCED, log 57). -/
def execTbPps (s : State) : Host.Outcome State Fault Refusal :=
  s.done s.blk.ppsOut

/-- `TB_CLK_LOSS` (R503). No tb_refclk edge for 100 ns lowers tb_clk_ok. -/
def execTbClkLoss (s : State) : Host.Outcome State Fault Refusal :=
  s.done ({ s.blk with tb := { s.blk.tb with lost := true } })

/-- `TB_REFCLK_EDGE` (R48). At each tb_refclk rising edge the counter adds E plus any slew step. -/
def execTbRefclkEdge (s : State) : Host.Outcome State Fault Refusal :=
  s.done (s.blk.tbTick)

/-- `MODE_REQ_CONFIGURE` (R26). Requests Configure, accepted only as R21 allows. -/
def execModeReqConfigure (m : Nat) (s : State) : Host.Outcome State Fault Refusal :=
  s.done (s.blk.cmdWrite m (Reg.modeReq) (3))

/-- `MODE_REQ_RUN` (R26). Requests the running mode R21 selects. -/
def execModeReqRun (m : Nat) (s : State) : Host.Outcome State Fault Refusal :=
  s.done (s.blk.cmdWrite m (Reg.modeReq) (4))

/-- `MODE_REQ_SAFE_HOLD` (R26). Requests Safe Hold. -/
def execModeReqSafeHold (m : Nat) (s : State) : Host.Outcome State Fault Refusal :=
  s.done (s.blk.cmdWrite m (Reg.modeReq) (9))

/-- `NODE_ID` (R29). Writes the fabric node ID, only in Configure. -/
def execNodeId (m : Nat) (val : BitVec 32) (s : State) : Host.Outcome State Fault Refusal :=
  s.done (s.blk.cmdWrite m (Reg.nodeId) (val))

end Sys2Proof.Machine
end

