-- ==== Sys2Proof/Machine/CmdTwins.lean ====
section
/-! DEFINITION. The commands of twins, release and Milestones (R316 to R341, R346), and the mirror over the Causeway (R347 to R366, R388). Each is one use of the operation that does it. -/
namespace Sys2Proof.Machine

/-- `OUTPUT_RELEASE` (R318). Release logic compares and releases a pair's output in program order. -/
def execOutputRelease (p : Nat) (cmp : Compare) (s : State) : Host.Outcome State Fault Refusal :=
  s.done (s.blk.whenUp fun b => b.compared p cmp)

/-- `COMPARE_WATCHDOG` (R319). A compare incomplete for 4 µs is a permanent pair fault. -/
def execCompareWatchdog (p : Nat) (s : State) : Host.Outcome State Fault Refusal :=
  s.done (s.blk.whenUp fun b => b.compareStuck p)

/-- `ROLLBACK_DONE` (R331). Rollback completes and replay begins. -/
def execRollbackDone (p : Nat) (s : State) : Host.Outcome State Fault Refusal :=
  s.done (s.blk.whenUp fun b => b.rollbackDone p)

/-- `RESUMED` (R333). Replay reaches the detection point and outputs reopen. -/
def execResumed (p : Nat) (ns : Nat) (s : State) : Host.Outcome State Fault Refusal :=
  s.done (s.blk.whenUp fun b => b.resumed p ns)

/-- `MILESTONE_POINT` (R322). A trigger takes a Milestone point at a switch point. (DEDUCED, log 115). -/
def execMilestonePoint (p : Nat) (s : State) : Host.Outcome State Fault Refusal :=
  s.done (s.blk.takePoint p)

/-- `MILESTONE_COMMIT` (R324). A point's image is written and digests agree. -/
def execMilestoneCommit (p : Nat) (agree : Bool) (s : State) : Host.Outcome State Fault Refusal :=
  s.done (s.blk.whenUp fun b => b.pointDone p agree)

/-- `TAKE` (R322). MS_CMD TAKE asks a pair to take a point. -/
def execTake (m : Nat) (p : Nat) (s : State) : Host.Outcome State Fault Refusal :=
  s.done (s.blk.cmdWrite m (Reg.msCmd) (BitVec.ofNat 32 (2 ^ 8 + p)))

/-- `MCFG` (R347). Mirror configuration write, only in Configure. -/
def execMcfg (m : Nat) (val : BitVec 32) (s : State) : Host.Outcome State Fault Refusal :=
  s.done (s.blk.cmdWrite m (Reg.mcfgReg) (val))

/-- `HELLO` (R348). Peer HELLO record compared for role and digest. -/
def execHello (role : Bool) (ver : BitVec 32) (digest : BitVec 32) (s : State) : Host.Outcome State Fault Refusal :=
  s.done (s.blk.whenUp fun b => b.cwApply (.hello role ver digest))

/-- `INPUT` (R353). Follower takes an input entry for replay. -/
def execInput (p : Nat) (entry : InEntry) (s : State) : Host.Outcome State Fault Refusal :=
  s.done (s.blk.whenUp fun b => b.cwApply (.input p entry))

/-- `RELEASE` (R353). Follower takes a release entry to check regenerated outputs. -/
def execRelease (p : Nat) (entry : RelEntry) (s : State) : Host.Outcome State Fault Refusal :=
  s.done (s.blk.whenUp fun b => b.cwApply (.release p entry))

/-- `HORIZON` (R353). Follower learns it may replay up to an SPC. -/
def execHorizon (p : Nat) (spc : Nat) (s : State) : Host.Outcome State Fault Refusal :=
  s.done (s.blk.whenUp fun b => b.cwApply (.horizon p spc))

/-- `MSMARK` (R353). Follower takes a point at the named SPC and checks its digest. -/
def execMsmark (p : Nat) (spc : Nat) (count : BitVec 32) (tb : BitVec 64) (digest : BitVec 32) (s : State) : Host.Outcome State Fault Refusal :=
  s.done (s.blk.whenUp fun b => b.cwApply (.msmark p spc count tb digest))

/-- `LINE` (R349). Follower loads an exclusive line during a join. -/
def execLine (p : Nat) (addr : Nat) (data : List Byte) (s : State) : Host.Outcome State Fault Refusal :=
  s.done (s.blk.whenUp fun b => b.cwApply (.line p addr data))

/-- `IMAGE` (R349). Follower loads 1 KiB of a committed image. -/
def execImage (p : Nat) (off : Nat) (data : List Byte) (s : State) : Host.Outcome State Fault Refusal :=
  s.done (s.blk.whenUp fun b => b.cwApply (.image p off data))

/-- `TIME` (R356). Follower disciplines its timebase from the primary's time. -/
def execTime (tb : BitVec 64) (s : State) : Host.Outcome State Fault Refusal :=
  s.done (s.blk.whenUp fun b => b.cwApply (.time tb))

/-- `ACK` (R355). Primary updates a pair's lag from the follower's acknowledgement. -/
def execAck (p : Nat) (spc : Nat) (count : BitVec 32) (s : State) : Host.Outcome State Fault Refusal :=
  s.done (s.blk.whenUp fun b => b.cwApply (.ack p spc count))

/-- `RESYNC` (R354). Primary repeats the join for a divergent pair. -/
def execResync (p : Nat) (s : State) : Host.Outcome State Fault Refusal :=
  s.done (s.blk.whenUp fun b => b.cwApply (.resync p))

/-- `HORIZON_SEND` (R351). Primary sends a HORIZON for a quiet pair each microsecond. -/
def execHorizonSend (p : Nat) (s : State) : Host.Outcome State Fault Refusal :=
  s.done (s.blk.horizonSend (s.blk.mirHome p))

/-- `TIME_SEND` (R351). Primary sends a TIME record every 1 µs. -/
def execTimeSend (s : State) : Host.Outcome State Fault Refusal :=
  s.done (s.blk.timeSend)

/-- `ACK_SEND` (R351). Follower sends an ACK every 1 µs. -/
def execAckSend (s : State) : Host.Outcome State Fault Refusal :=
  s.done (s.blk.ackSend)

/-- `HEARTBEAT` (R357). mir_hb_o toggles every 200 ns of timebase. -/
def execHeartbeat (s : State) : Host.Outcome State Fault Refusal :=
  s.done s.blk.heartbeat

/-- `MIR_FAIL` (R358). mir_fail_i_n low for 40 ns triggers a takeover. -/
def execMirFail (s : State) : Host.Outcome State Fault Refusal :=
  s.done (s.blk.takeover)

/-- `HEARTBEAT_LOSS` (R358). No heartbeat edge for 1.0 µs, with or without frames. -/
def execHeartbeatLoss (frames : Bool) (s : State) : Host.Outcome State Fault Refusal :=
  s.done (s.blk.hbLoss frames)

/-- `TAKEOVER` (R359). MCMD TAKEOVER starts a takeover on a follower. -/
def execTakeover (m : Nat) (s : State) : Host.Outcome State Fault Refusal :=
  s.done (s.blk.cmdWrite m (Reg.mcmd) (1))

/-- `MCMD_RESYNC` (R366). Requests resynchronisation of all pairs. -/
def execMcmdResync (m : Nat) (s : State) : Host.Outcome State Fault Refusal :=
  s.done (s.blk.cmdWrite m (Reg.mcmd) (2))

/-- `PAIR_LIVE` (R359). A pair finishes catch-up and continues live; the last makes the block primary. -/
def execPairLive (p : Nat) (ns : Nat) (s : State) : Host.Outcome State Fault Refusal :=
  s.done (s.blk.pairLive (s.blk.mirHome p) ns)

/-- `DEPOSED` (R362). A primary sees mir_tko_i and withholds outputs and requests Safe Hold. -/
def execDeposed (s : State) : Host.Outcome State Fault Refusal :=
  s.done (s.blk.deposedNow)

/-- `MIRROR_FRAME` (R388). A mirror frame is received, acknowledged, ordered or NAKed. -/
def execMirrorFrame (lane : Nat) (good : Bool) (frame : List Byte) (s : State) : Host.Outcome State Fault Refusal :=
  s.done (s.blk.mirrorRecv (4 + lane) good frame)

/-- `FRAME_CLOSE` (R388). A mirror frame closes at 512 bytes or 50 ns and is sent. -/
def execFrameClose (lane : Nat) (s : State) : Host.Outcome State Fault Refusal :=
  s.done (s.blk.frameClose (4 + lane))

/-- `ACK_ONLY` (R388). An idle 200 ns on a lane sends an ACK-only frame. -/
def execAckOnly (lane : Nat) (s : State) : Host.Outcome State Fault Refusal :=
  s.done (s.blk.ackOnlyFrame (4 + lane))

/-- `MIRROR_RETRANSMIT` (R388). A frame unacknowledged for 4 µs is resent. -/
def execMirrorRetransmit (fseq : BitVec 32) (lane : Nat) (s : State) : Host.Outcome State Fault Refusal :=
  s.done (s.blk.mfrResend (4 + lane) fun x => x.1 == fseq.toNat)

/-- `NO_MIRROR_FRAME` (R358). No mirror frame for 1.0 µs on a follower whose heartbeat still toggles retires both mirror lanes. -/
def execNoMirrorFrame (s : State) : Host.Outcome State Fault Refusal :=
  s.done (s.blk.noFrame)

end Sys2Proof.Machine
end

