-- ==== Sys2Proof/Machine/Operands.lean ====
section
/-! DEFINITION. Operand widths and how operands are read and results written (R97 to R100). -/
namespace Sys2Proof.Machine

/-- Bits of a width (R92). -/
def Width.bits : Width → Nat
  | .byte => 8
  | .half => 16
  | .word => 32
  | .dbl => 64
  | .quad => 128

/-- Bytes of a width. -/
def Width.bytes (w : Width) : Nat := Width.bits w / 8

/-- The operand width of an instruction whose default is `.Q`. -/
def wq (w : Option Width) : Nat := Width.bits (w.getD .quad)

/-- Bytes that a width prefix adds to the encoding (R92). -/
def preLen (w : Option Width) : Nat := if w.isSome then 1 else 0

/-- Bits [w−1:0] of an operand (R97). -/
def low (w : Nat) (x : Entry128) : Nat := x.toNat % 2 ^ w

/-- The signed value of `w` bits. -/
def sgn (w n : Nat) : Int := if n < 2 ^ (w - 1) then (n : Int) else (n : Int) - (2 ^ w : Nat)

/-- A result of `w` bits, sign-extended into an entry (R97). -/
def sx (w : Nat) (v : Int) : Entry128 := BitVec.ofInt 128 (sgn w (v % (2 ^ w : Nat)).toNat)

/-- A result of `w` bits, zero-extended into an entry (R97, results marked Z). -/
def zx (w n : Nat) : Entry128 := BitVec.ofNat 128 (n % 2 ^ w)

/-- A comparison's result (R98). -/
def flag (p : Bool) : Entry128 := if p then BitVec.allOnes 128 else 0

/-- Does a flag operand count as true (R98)? -/
def truth (x : Entry128) : Bool := decide (x ≠ 0)

/-- The bytes of a branch offset (R102, R103). -/
def OffSize.bytes : OffSize → Nat
  | .s8 => 1
  | .s16 => 2
  | .s32 => 4

/-- The signed value of an offset operand of its size (R93). -/
def offValue (s : OffSize) (off : BitVec 32) : Int :=
  sgn (8 * OffSize.bytes s) (off.toNat % 2 ^ (8 * OffSize.bytes s))

end Sys2Proof.Machine
end

