-- ==== Sys2Proof/Machine/MemOps.lean ====
section
/-! DEFINITION. Loads, stores and atomics of an engine (R99, R113 to R116, R318, R329, R332, R353, R540), and block copy's units
(R129 to R131). -/
namespace Sys2Proof.Machine

/-! Loads. -/

/-- How a load ends: its bytes; a precise exception; not yet, the instruction staying issued. -/
inductive LoadRes where
  | ok (d : List Byte) (b : Blk)
  | exc (x : Exc) (b : Blk)
  | stay (b : Blk)

/-- The parts of an access of `n` bytes at `a` by 16-byte word; `k` bounds them. -/
def wordParts (a n : Nat) : Nat → List (Nat × Nat)
  | 0 => []
  | k + 1 => if n = 0 then [] else (a, toWordEnd a n) :: wordParts (a + toWordEnd a n) (n - toWordEnd a n) k

/-- The 64-byte units of an access of `n` bytes at `a`. -/
def unitsOf (a n : Nat) : List Nat := if a / 64 = (a + n - 1) / 64 then [a / 64 * 64] else [a / 64 * 64, (a + n - 1) / 64 * 64]

/-- A word of a replayed load from the log: its value and the log behind it, nothing where it comes from memory, or no record yet. -/
inductive Logged where
  | value (w : BitVec 128) (rest : List InEntry)
  | live
  | wait
  | wrong

/-- What the log of a replaying pair says of the load of the word at `a` (R332, R353). -/
def Blk.loggedLoad (b : Blk) (p a : Nat) : Logged :=
  let x := b.pair p
  match x.phase, x.cursor with
  | .replay, i :: rest => if i.kind = 1 ∧ i.aux = BitVec.ofNat 64 (a / 16 * 16) then .value i.data rest else .live
  | .follow, i :: rest =>
    if i.kind = 1 ∧ i.aux = BitVec.ofNat 64 (a / 16 * 16) then .value i.data rest
    else if b.loggedWord p a then .wrong else .live
  | .follow, [] => if b.loggedWord p a then .wait else .live
  | _, _ => .live

/-- The bytes of a replayed load, word by word, where any word of it has an entry. -/
def Blk.replayLoad (b : Blk) (l : Nat) : List (Nat × Nat) → LoadRes
  | [] => .ok [] b
  | h :: t =>
    let p := l / 2
    match b.loggedLoad p h.1 with
    | .wait => .stay b
    | .wrong => .stay (b.diverge p)
    | .live =>
      (match b.replayLoad l t with
       | .ok d c => .ok (b.viewN l h.1 h.2 ++ d) c
       | r => r)
    | .value w rest =>
      (match (b.setPair p { b.pair p with cursor := rest }).replayLoad l t with
       | .ok d c => .ok (((toLe 16 w.toNat).drop (h.1 % 16)).take h.2 ++ d) c
       | .exc x c => .exc x c
       | .stay _ => .stay b)

/-- Is a load of these words in a replay to consult the log: some word of it has an entry or waits for one? -/
def Blk.fromLog (b : Blk) (p : Nat) (ws : List (Nat × Nat)) : Bool :=
  b.joined p && ws.any fun h => match b.loggedLoad p h.1 with
    | .live => false
    | _ => true

/-- Does an output of the pair wait that writes a register page (R318)? (DEDUCED, log 128). -/
def Blk.pageWaits (b : Blk) (p : Nat) : Bool := (b.pair p).q.any fun o => match o.act with
  | .page _ _ _ => true
  | .post _ _ => true
  | _ => false
/-- The pair's unreleased stores to these units of the window, in program order (R318). (DEDUCED, log 128). -/
def Blk.extStores (b : Blk) (p : Nat) (us : List Nat) : List (Nat × List Byte) :=
  if b.joined p then
    ((b.pair p).q.flatMap fun o => match o.act with
      | .store a d => [(a, d)]
      | .stores ps => ps
      | _ => []).filter fun x => decide (place x.1 = .ext) && (unitsOf x.1 x.2.length).any fun u => us.contains u
  else []

/-- The byte at `a` of the units that have arrived. -/
def gotByte (got : List (Nat × List Byte)) (a : Nat) : Byte :=
  match got.find? fun x => x.1 == a / 64 * 64 with
  | some x => x.2.getD (a % 64) 0
  | none => 0

/-- Nothing of a load is outstanding any more. -/
def Blk.extDone (b : Blk) (l : Nat) : Blk := b.setEng l { b.eng l with extReq := [], extGot := [], extBad := none, extOver := [] }

/-- A load from the window of parts that each lie within one word (R47, R416): units that have not arrived are asked for; the pair's own
unreleased stores are forwarded (R318). -/
def Blk.extLoad (b : Blk) (l : Nat) (ws : List (Nat × Nat)) : LoadRes :=
  let x := b.eng l
  let us := (ws.map fun h => h.1 / 64 * 64).eraseDups
  match x.extBad with
  | some u => .exc (excAt 0x0E 0 (match ws.find? fun h => h.1 / 64 * 64 == u with
      | some h => h.1 / 16 * 16
      | none => u)) (b.extDone l)
  | none =>
    if us.all fun u => x.extGot.any fun g => g.1 == u then
      let get := fun a => x.extOver.foldl (fun v s => overByte s.1 s.2 a v) (gotByte x.extGot a)
      let b := b.extDone l
      let b := b.logWords (l / 2) ws fun w => leNat ((List.range 16).map fun i => get (w + i))
      .ok (ws.flatMap fun h => (List.range h.2).map fun i => get (h.1 + i)) b
    else
      let ask := us.filter fun u => !(x.extGot.any fun g => g.1 == u) && !(x.extReq.contains u)
      let b := b.setEng l { x with extReq := x.extReq ++ ask, extOver := if ask.isEmpty then x.extOver else b.extStores (l / 2) us }
      .stay (ask.foldl (fun b u => b.mpAsk { mst := l, write := false, addr := u, be := 0, data := List.replicate 64 0, tries := 0,
                                             who := .engine l, tag := 0 }) b)

/-- A load from a register page: 4 bytes (R113, R318, R533). -/
def Blk.pageLd (b : Blk) (l a : Nat) : LoadRes :=
  if b.joined (l / 2) && b.pageWaits (l / 2) then .stay b
  else
    let z := b.pageRead l (pageOf a) (slotOf a)
    .ok (toLe 4 z.1.toNat) (z.2.logIn (l / 2) 1 (a / 16 * 16) (z.1.toNat * 2 ^ (8 * (a % 16))))

/-- The bytes that a checked load returns of the parts `ws`, each within one word; `hs` are the parts as checked. -/
def Blk.loadGo (b : Blk) (l : Nat) (ws hs : List (Nat × Nat)) : LoadRes :=
  let a := (ws.headD (0, 0)).1
  if b.fromLog (l / 2) ws then b.replayLoad l ws
  else match place a with
    | .page => b.pageLd l a
    | .ext => b.extLoad l ws
    | _ =>
      let b := b.notesOn .load hs
      .ok (ws.flatMap fun h => b.viewN l h.1 h.2) (b.logWords (l / 2) ws fun w => leNat (b.viewN l w 16))

/-- A load of the parts `hs`, `n` bytes at the full address `a`, by engine `l` (R99, R113). -/
def Blk.loadOn (b : Blk) (l a n : Nat) (vec : Bool) (hs : List (Nat × Nat)) : LoadRes :=
  if 2 ^ 40 ≤ a then .exc (excAt 0x06 1 a) b
  else
    let b := b.payOn l hs
    match b.checkOn l (b.pl l) (some (l / 2)) vec .load hs a n with
    | some x => .exc x (if x.cause = 0x0E then b.notesOn .load hs else b)
    | none =>
      match b.loadGo l (wordParts a n 3) hs with
      | .ok d c => .ok d (c.bpData l false a n)
      | r => r

/-- The unaligned adder of a scalar access of `n` bytes at `a` (R44, R115). -/
def Blk.payHalves (b : Blk) (l a n : Nat) : Blk := if a % n = 0 then b else b.pay l 0 (splitAdder a n)

/-- The unaligned adder of a vector access to `n` bytes from `a` on (R143). -/
def Blk.paySpan (b : Blk) (l a n : Nat) : Blk := if a % 16 = 0 then b else b.pay l 0 (splitAdder a n)

/-- A scalar load of `n` bytes. -/
def Blk.load (b : Blk) (l a n : Nat) : LoadRes := (b.payHalves l a n).loadOn l a n false (halves a n)

/-- The first failing check of an access to the elements of `s` bytes at the full addresses `els`, of which each must be a multiple of
`s` (R143 to R145), made in the parts `hs`: an element out of step with its size fails check 3. Every element is checked for itself; which
words are read is a matter of the parts. (DEDUCED, log 39). -/
def Blk.vecCheck (b : Blk) (l : Nat) (k : Acs) (els : List Nat) (hs : List (Nat × Nat)) (s : Nat) : Option Exc :=
  match els.find? fun a => decide (2 ^ 40 ≤ a) with
  | some a => some (excAt (accessCause k) 1 a)
  | none =>
    let x := b.reachOn l (b.pl l) (some (l / 2)) true k (els.map fun a => (a, s)) (els.headD 0) s
    match els.find? fun a => decide (a % s ≠ 0) with
    | some a => if x.isSome && decide ((x.getD (excAt 0 0 0)).sub = 2) then x else some (excAt (accessCause k) 3 a)
    | none => x.orElse fun _ => b.eccOn k hs

/-- The bytes of the element of `s` bytes at `a` among the words read. -/
def wordBytes (ws : List (Nat × Nat)) (d : List Byte) (a s : Nat) : List Byte :=
  (d.drop (16 * (ws.findIdx fun h => h.1 == a / 16 * 16) + a % 16)).take s

/-- A load of the elements of `s` bytes at `els` (R143 to R145): the bytes of all of them in order. -/
def Blk.loadVec (b : Blk) (l : Nat) (els : List Nat) (s : Nat) : LoadRes :=
  let b := b.payOn l (els.map fun a => (a, s))
  match b.vecCheck l .load els (els.map fun a => (a, s)) s with
  | some x => .exc x (if x.cause = 0x0E then b.notesOn .load (els.map fun a => (a, s)) else b)
  | none =>
    let ws := ((els.map fun a => a / 16 * 16).eraseDups).map fun w => (w, 16)
    if els.isEmpty then .ok [] b
    else match b.loadGo l ws (els.map fun a => (a, s)) with
      | .ok d c => .ok (els.flatMap fun a => wordBytes ws d a s) (els.foldl (fun c a => c.bpData l false a s) c)
      | r => r

/-! Stores. -/

/-- How a store ends: performed or queued; a precise exception; the engine of a broken pair halts before it (R488). -/
inductive StoreRes where
  | ok (b : Blk)
  | exc (x : Exc) (b : Blk)
  | stay (b : Blk)

/-- Class and act of a register write (R317, R397, R408, R431): slot offset `o` of page `p`, address `a`. -/
def regOutput (p o a : Nat) (v : Word) (pl : Nat) : OutCls × OutAct :=
  if p = 0x078 ∧ 0x100 ≤ o ∧ o < 0x180 ∧ o % 0x10 = 0x0C then (.frame, .post ((o - 0x100) / 0x10) (v.setWidth 16))
  else if p = 0x090 ∧ 0x100 ≤ o ∧ o < 0x200 ∧ o % 0x10 = 8 then (.mailbox, .page a v pl)
  else if p = 0x07A ∧ 0x100 ≤ o ∧ o < 0x1000 ∧ o % 0x40 = 0x18 then (.fabric, .page a v pl)
  else (.control, .page a v pl)

/-- Does a register hold key material (R321, R471)? -/
def keyReg (p o : Nat) : Bool :=
  p == 0x0A1 && ((List.range 8).any (fun i => Reg.kdata i == regKey p o) || (List.range 3).any (fun i => Reg.ksalt i == regKey p o))

/-- A checked register write of engine `l` (R210, R313, R317, R488). -/
def Blk.pageSt (b : Blk) (l a : Nat) (v : Word) : StoreRes :=
  let z := regOutput (pageOf a) (slotOf a) a v (b.pl l)
  if b.joined (l / 2) then
    .ok (b.enqueue (l / 2) { cls := z.1, act := z.2, tgt := a, spc := (b.pair (l / 2)).spc
                             data := toLe 4 (if keyReg (pageOf a) (slotOf a) then 0 else v.toNat) })
  else if b.oddOut l then .ok b
  else if b.outBar l z.1 then .stay (b.haltNow l 4 0)
  else .ok (b.pageWrite l (b.pl l) (pageOf a) (slotOf a) v).1

/-- A store of the bytes `d`, in the parts `hs`, to the full address `a` by engine `l` (R99, R113). Parts of one class are one output
(R321). -/
def Blk.storeOn (b : Blk) (l a : Nat) (d : List Byte) (vec : Bool) (hs : List (Nat × Nat)) : StoreRes :=
  if 2 ^ 40 ≤ a then .exc (excAt 0x07 1 a) b
  else
    let b := b.payOn l hs
    match b.checkOn l (b.pl l) (some (l / 2)) vec .store hs a d.length with
    | some x => .exc x (if x.cause = 0x0E then b.notesOn .store hs else b)
    | none =>
      if place a = .page then
        match b.pageSt l a (BitVec.ofNat 32 (leNat d)) with
        | .ok c => .ok (c.bpData l true a d.length)
        | r => r
      else if b.outBar l (b.storeCls (l / 2) a) then .stay (b.haltNow l 4 0)
      else
        let b := if hs.all fun h => decide (b.storeCls (l / 2) h.1 = b.storeCls (l / 2) a) then b.engStore l a d
          else hs.foldl (fun b h => b.engStore l h.1 ((d.drop (h.1 - a)).take h.2)) b
        .ok (b.bpData l true a d.length)

/-- A scalar store. -/
def Blk.store (b : Blk) (l a : Nat) (d : List Byte) : StoreRes := (b.payHalves l a d.length).storeOn l a d false (halves a d.length)

/-- Elements that adjoin within one word make one part. -/
def joinParts : List (Nat × List Byte) → List (Nat × List Byte)
  | [] => []
  | x :: t =>
    match joinParts t with
    | y :: r => if x.1 + x.2.length = y.1 ∧ x.1 / 16 = y.1 / 16 then (x.1, x.2 ++ y.2) :: r else x :: y :: r
    | [] => [x]

/-- A vector store of elements of `s` bytes, each with its bytes (R143, R145). (DEDUCED, log 40). -/
def Blk.storeVec (b : Blk) (l s : Nat) (els : List (Nat × List Byte)) : StoreRes :=
  let ps := joinParts els
  let hs := ps.map fun x => (x.1, x.2.length)
  let b := b.payOn l hs
  match b.vecCheck l .store (els.map fun x => x.1) hs s with
  | some x => .exc x (if x.cause = 0x0E then b.notesOn .store hs else b)
  | none =>
    if ps.any fun x => b.outBar l (b.storeCls (l / 2) x.1) then .stay (b.haltNow l 4 0)
    else if els.isEmpty then .ok b
    else .ok (els.foldl (fun c x => c.bpData l true x.1 s) (b.engStores l ps))

/-! Atomics (R116, R540). -/

/-- How an atomic ends: its old value; an exception; it waits for its release, or an engine of a broken pair halts before it. -/
inductive AtomRes where
  | ok (old : Nat) (b : Blk)
  | exc (x : Exc) (b : Blk)
  | stay (b : Blk)

/-- An atomic of engine `l`. -/
def Blk.atomicOp (b : Blk) (l : Nat) (x : TwinAtomic) : AtomRes :=
  let p := l / 2
  if 2 ^ 40 ≤ x.addr then .exc (excAt 0x07 1 x.addr) b
  else
    let b := b.payOn l [(x.addr, x.bytes)]
    match b.check l (b.pl l) (some p) false .atomic x.addr x.bytes with
    | some e => .exc e (if e.cause = 0x0E then b.notesOn .atomic [(x.addr, x.bytes)] else b)
    | none =>
      if b.joined p then
        .stay ((b.enqueue p { cls := b.storeCls p x.addr, act := .atomic x, tgt := x.addr / 16 * 16, spc := (b.pair p).spc
                              data := maskBytes x.addr x.bytes ++ toLe x.bytes x.val.toNat ++ [x.op] }).setEng l
          { b.eng l with atomic := some x })
      else if b.oddOut l then .ok (b.memNat x.addr x.bytes) b
      else if b.outBar l (b.storeCls p x.addr) then .stay (b.haltNow l 4 0)
      else
        let z := b.atomicDo (some p) x none
        .ok z.1 (z.2.bpData l true x.addr x.bytes)

/-! Other outputs of an engine. -/

/-- Is an output a store or an atomic of the pair's engines? -/
def OutAct.stored : OutAct → Bool
  | .store _ _ | .stores _ | .atomic _ | .page _ _ _ | .post _ _ => true
  | .duty _ _ _ | .sev _ | .chan _ _ _ _ | .chanRemote _ _ _ _ => false

/-- Is nothing of engine `l`'s stores and atomics outstanding (R114)? -/
def Blk.fenced (b : Blk) (l : Nat) : Bool :=
  !(b.mpBusy l) && (!(b.joined (l / 2)) || !((b.pair (l / 2)).q.any fun o => o.act.stored))

/-- `DUTY` (R123, R264, R317, R488): the refusal, or its effect. -/
def Blk.dutyOp (b : Blk) (l : Nat) (v leg : Word) : StoreRes :=
  let n := fld leg 0 5
  if 24 ≤ n ∨ b.legGranted n l = false then .exc ⟨0x07, 3, leg.toNat, 0⟩ b
  else if b.joined (l / 2) then
    .ok (b.enqueue (l / 2) { cls := .duty, act := .duty n v l, tgt := n, data := toLe 4 v.toNat, spc := (b.pair (l / 2)).spc })
  else if b.apart l then .ok b
  else .ok (b.dutyCommit n l v)

/-- The tasks that a `SEV` operand names. -/
def sevTasks (d : Word) : List Nat := if tbit d 12 then List.range 64 else [fld d 0 6]

/-- `SEV` (R121, R317): the refusal, or its effect. A target of the engine's own pair takes the flag as it retires. -/
def Blk.sevOp (b : Blk) (l : Nat) (d : Word) : StoreRes :=
  let e := fld d 8 4
  if b.sevRefused e then .exc ⟨0x07, 3, d.toNat, 0⟩ b
  else if b.lead (b.redirect e) = l then .ok ((sevTasks d).foldl (fun b t => b.setFlag l t) b)
  else if b.joined (l / 2) then
    .ok (b.enqueue (l / 2) { cls := .control, act := .sev d, tgt := 2 ^ 64 - 1, data := toLe 4 d.toNat, spc := (b.pair (l / 2)).spc })
  else if b.oddOut l then .ok b
  else if b.outBar l .control then .stay (b.haltNow l 4 0)
  else .ok (b.sevDo d)

end Sys2Proof.Machine
end

