-- ==== Sys2Proof/Machine/Flags.lean ====
section
/-! DEFINITION. Integer and fixed-point results with their arithmetic conditions (R101, R107, R108). -/
namespace Sys2Proof.Machine

/-- Conditions in `ASTAT` order (R81). -/
abbrev condOV : BitVec 6 := 1
abbrev condDZ : BitVec 6 := 2
abbrev condINV : BitVec 6 := 4
abbrev condINX : BitVec 6 := 8
abbrev condUF : BitVec 6 := 16
abbrev condOF : BitVec 6 := 32

/-- The bounds of the signed range of `w` bits. -/
def smin (w : Nat) : Int := - (2 ^ (w - 1) : Nat)
def smax (w : Nat) : Int := (2 ^ (w - 1) : Nat) - 1

/-- Saturate to the signed range of `w` bits; OV when it saturates. -/
def saturate (w : Nat) (v : Int) : Entry128 × BitVec 6 :=
  if v < smin w then (sx w (smin w), condOV) else if smax w < v then (sx w (smax w), condOV) else (sx w v, 0)

/-- `NEG` and `ABS` (R107). -/
def negRes (w a : Nat) : Entry128 × BitVec 6 :=
  if sgn w a = smin w then (sx w (smin w), condOV) else (sx w (- sgn w a), 0)
def absRes (w a : Nat) : Entry128 × BitVec 6 :=
  if sgn w a = smin w then (sx w (smin w), condOV) else (sx w (sgn w a).natAbs, 0)

/-- Shifts and rotates by an amount (R107). -/
def shlRes (w a n : Nat) : Entry128 := if w ≤ n then 0 else sx w (a * 2 ^ n : Nat)
def shrRes (w a n : Nat) : Entry128 := if w ≤ n then 0 else zx w (a / 2 ^ n)
def sarRes (w a n : Nat) : Entry128 := sx w (sgn w a / (2 ^ Nat.min n w : Nat))
def rolRes (w a n : Nat) : Entry128 := zx w (a * 2 ^ (n % w) + a / 2 ^ (w - n % w))

/-- Quotient and remainder of the signed division with their conditions (R107). -/
def divRes (w a b : Nat) : Entry128 × Entry128 × BitVec 6 :=
  if b = 0 then (sx w (-1), sx w (sgn w a), condDZ)
  else if sgn w a = smin w ∧ sgn w b = -1 then (sx w (smin w), 0, condOV)
  else (sx w (Int.tdiv (sgn w a) (sgn w b)), sx w (Int.tmod (sgn w a) (sgn w b)), 0)

/-- Quotient and remainder of the unsigned division (R107). -/
def divuRes (w a b : Nat) : Entry128 × Entry128 × BitVec 6 :=
  if b = 0 then (zx w (2 ^ w - 1), zx w a, condDZ) else (zx w (a / b), zx w (a % b), 0)

/-- Fixed-point product of fraction width `f` (R108): `MULQ15` for 15, `MULQ31` for 31. -/
def mulqRes (f a b : Nat) : Entry128 × BitVec 6 :=
  saturate (f + 1) ((sgn (f + 1) a * sgn (f + 1) b + (2 ^ (f - 1) : Nat)) / (2 ^ f : Nat))

/-- Leading zeros, trailing zeros and set bits of `w` bits. -/
def clzNat (w a : Nat) : Nat := if a = 0 then w else w - 1 - Nat.log2 a
def ctzNat : Nat → Nat → Nat
  | 0, _ => 0
  | w + 1, a => if a % 2 = 1 then 0 else 1 + ctzNat w (a / 2)
def popNat : Nat → Nat → Nat
  | 0, _ => 0
  | w + 1, a => a % 2 + popNat w (a / 2)

/-- Base steps of multiplies and divides by width (R101). -/
def mulSteps (w : Nat) : Nat := if w = 128 then 4 else if w = 64 then 3 else 2
def divSteps (w : Nat) : Nat := if w = 128 then 34 else if w = 64 then 18 else if w = 32 then 10 else if w = 16 then 6 else 4

end Sys2Proof.Machine
end

