-- ==== Sys2Proof/Machine/Scalar.lean ====
section
/-! DEFINITION. Stack, arithmetic, comparison and literal instructions (R101 to R104, R107, R108). -/
namespace Sys2Proof.Machine

/-- An instruction to issue, alone or as the body of a `REP`: its shape and its operation. -/
structure Ins where
  op  : Op
  act : Blk → Nat → List Entry128 → List Entry128 → Res

/-- An instruction that only replaces its operands (top first) by its results. -/
def pureIns (op : Op) (f : List Entry128 → List Entry128) : Ins := ⟨op, fun b _ ds _ => .done b (f ds) []⟩

/-- The same with arithmetic conditions. -/
def condIns (op : Op) (f : List Entry128 → List Entry128 × BitVec 6) : Ins :=
  ⟨op, fun b _ ds _ => .done b (f ds).1 [] none (f ds).2⟩

/-- Issue an instruction on engine `e`. -/
def State.run (s : State) (e : Nat) (i : Ins) : Host.Outcome State Fault Refusal := s.done (s.blk.issue e i.op i.act)

/-- Shapes of the stack instructions: one byte, `n` operands, `m` results. -/
def stackOp (n m : Nat) : Op := { len := 1, din := n, dout := m }

/-- Shapes of the width-taking instructions: `n` operands, one result, `k` base steps, `x` operand bytes. -/
def wOp (w : Option Width) (n k x : Nat) : Op := { len := preLen w + 1 + x, base := k, din := n, dout := 1 }

/-- One operand of width `w` in, one result. -/
def un (f : Nat → Entry128) (w : Nat) : List Entry128 → List Entry128
  | [a] => [f (low w a)]
  | l => l

/-- Two operands of width `w` in (the second one is on top), one result. -/
def bin (f : Nat → Nat → Entry128) (w : Nat) : List Entry128 → List Entry128
  | [b, a] => [f (low w a) (low w b)]
  | l => l

/-- The same with conditions. -/
def unC (f : Nat → Entry128 × BitVec 6) (w : Nat) : List Entry128 → List Entry128 × BitVec 6
  | [a] => ([(f (low w a)).1], (f (low w a)).2)
  | l => (l, 0)
def binC (f : Nat → Nat → Entry128 × BitVec 6) (w : Nat) : List Entry128 → List Entry128 × BitVec 6
  | [b, a] => ([(f (low w a) (low w b)).1], (f (low w a) (low w b)).2)
  | l => (l, 0)

/-- `NOP ( -- )` (R101). -/
def insNop : Ins := pureIns (stackOp 0 0) id
def execNop (e : Nat) (s : State) : Host.Outcome State Fault Refusal := s.run e insNop

/-- `DUP ( a -- a a )` (R101). -/
def opDup : Op := stackOp 1 2
def resDup : List Entry128 → List Entry128
  | [a] => [a, a]
  | l => l
def insDup : Ins := pureIns opDup resDup
def execDup (e : Nat) (s : State) : Host.Outcome State Fault Refusal := s.run e insDup

/-- `DROP ( a -- )` (R101). -/
def opDrop : Op := stackOp 1 0
def resDrop : List Entry128 → List Entry128
  | [_] => []
  | l => l
def insDrop : Ins := pureIns opDrop resDrop
def execDrop (e : Nat) (s : State) : Host.Outcome State Fault Refusal := s.run e insDrop

/-- `SWAP ( a b -- b a )` (R101). -/
def opSwap : Op := stackOp 2 2
def resSwap : List Entry128 → List Entry128
  | [b, a] => [a, b]
  | l => l
def insSwap : Ins := pureIns opSwap resSwap
def execSwap (e : Nat) (s : State) : Host.Outcome State Fault Refusal := s.run e insSwap

/-- `OVER ( a b -- a b a )` (R101). -/
def opOver : Op := stackOp 2 3
def resOver : List Entry128 → List Entry128
  | [b, a] => [a, b, a]
  | l => l
def insOver : Ins := pureIns opOver resOver
def execOver (e : Nat) (s : State) : Host.Outcome State Fault Refusal := s.run e insOver

/-- `ROT ( a b c -- b c a )` (R101). -/
def opRot : Op := stackOp 3 3
def resRot : List Entry128 → List Entry128
  | [c, b, a] => [a, c, b]
  | l => l
def insRot : Ins := pureIns opRot resRot
def execRot (e : Nat) (s : State) : Host.Outcome State Fault Refusal := s.run e insRot

/-- `NIP ( a b -- b )` (R101). -/
def opNip : Op := stackOp 2 1
def resNip : List Entry128 → List Entry128
  | [b, _] => [b]
  | l => l
def insNip : Ins := pureIns opNip resNip
def execNip (e : Nat) (s : State) : Host.Outcome State Fault Refusal := s.run e insNip

/-- `TUCK ( a b -- b a b )` (R101). -/
def opTuck : Op := stackOp 2 3
def resTuck : List Entry128 → List Entry128
  | [b, a] => [b, a, b]
  | l => l
def insTuck : Ins := pureIns opTuck resTuck
def execTuck (e : Nat) (s : State) : Host.Outcome State Fault Refusal := s.run e insTuck

/-- `2DUP ( a b -- a b a b )` (R101). -/
def opTwoDup : Op := stackOp 2 4
def resTwoDup : List Entry128 → List Entry128
  | [b, a] => [b, a, b, a]
  | l => l
def insTwoDup : Ins := pureIns opTwoDup resTwoDup
def execTwoDup (e : Nat) (s : State) : Host.Outcome State Fault Refusal := s.run e insTwoDup

/-- `2DROP ( a b -- )` (R101). -/
def opTwoDrop : Op := stackOp 2 0
def resTwoDrop : List Entry128 → List Entry128
  | [_, _] => []
  | l => l
def insTwoDrop : Ins := pureIns opTwoDrop resTwoDrop
def execTwoDrop (e : Nat) (s : State) : Host.Outcome State Fault Refusal := s.run e insTwoDrop

/-- `2SWAP ( a b c d -- c d a b )` (R101). -/
def opTwoSwap : Op := stackOp 4 4
def resTwoSwap : List Entry128 → List Entry128
  | [d, c, b, a] => [b, a, d, c]
  | l => l
def insTwoSwap : Ins := pureIns opTwoSwap resTwoSwap
def execTwoSwap (e : Nat) (s : State) : Host.Outcome State Fault Refusal := s.run e insTwoSwap

/-- `2OVER ( a b c d -- a b c d a b )` (R101). -/
def opTwoOver : Op := stackOp 4 6
def resTwoOver : List Entry128 → List Entry128
  | [d, c, b, a] => [b, a, d, c, b, a]
  | l => l
def insTwoOver : Ins := pureIns opTwoOver resTwoOver
def execTwoOver (e : Nat) (s : State) : Host.Outcome State Fault Refusal := s.run e insTwoOver

/-- `>R` ( a -- ) R:( -- a ) (R57, R101). -/
def insToR : Ins := ⟨{ len := 1, din := 1, rout := 1 }, fun b _ ds _ => .done b [] ds⟩
def execToR (e : Nat) (s : State) : Host.Outcome State Fault Refusal := s.run e insToR

/-- `R>` ( -- a ) R:( a -- ) (R57, R101). -/
def insRFrom : Ins := ⟨{ len := 1, dout := 1, rin := 1 }, fun b _ _ rs => .done b rs []⟩
def execRFrom (e : Nat) (s : State) : Host.Outcome State Fault Refusal := s.run e insRFrom

/-- `R@` ( -- a ) R:( a -- a ) (R57, R101). -/
def insRFetch : Ins := ⟨{ len := 1, dout := 1, rin := 1, rout := 1 }, fun b _ _ rs => .done b rs rs⟩
def execRFetch (e : Nat) (s : State) : Host.Outcome State Fault Refusal := s.run e insRFetch

/-- `RDROP` R:( a -- ) (R101). -/
def insRdrop : Ins := ⟨{ len := 1, rin := 1 }, fun b _ _ _ => .done b [] []⟩
def execRdrop (e : Nat) (s : State) : Host.Outcome State Fault Refusal := s.run e insRdrop

/-- `ADD ( a b -- a+b ), modular (R101, R107)`. -/
def insAdd (w : Option Width) : Ins := pureIns (wOp w 2 1 0) (bin (fun a b => sx (wq w) (a + b : Nat)) (wq w))
def execAdd (e : Nat) (w : Option Width) (s : State) : Host.Outcome State Fault Refusal := s.run e (insAdd w)

/-- `SUB ( a b -- a−b ), modular (R101, R107)`. -/
def insSub (w : Option Width) : Ins := pureIns (wOp w 2 1 0) (bin (fun a b => sx (wq w) ((a : Int) - b)) (wq w))
def execSub (e : Nat) (w : Option Width) (s : State) : Host.Outcome State Fault Refusal := s.run e (insSub w)

/-- `AND (R101)`. -/
def insAnd (w : Option Width) : Ins := pureIns (wOp w 2 1 0) (bin (fun a b => sx (wq w) (Nat.land a b : Nat)) (wq w))
def execAnd (e : Nat) (w : Option Width) (s : State) : Host.Outcome State Fault Refusal := s.run e (insAnd w)

/-- `OR (R101)`. -/
def insOr (w : Option Width) : Ins := pureIns (wOp w 2 1 0) (bin (fun a b => sx (wq w) (Nat.lor a b : Nat)) (wq w))
def execOr (e : Nat) (w : Option Width) (s : State) : Host.Outcome State Fault Refusal := s.run e (insOr w)

/-- `XOR (R101)`. -/
def insXor (w : Option Width) : Ins := pureIns (wOp w 2 1 0) (bin (fun a b => sx (wq w) (Nat.xor a b : Nat)) (wq w))
def execXor (e : Nat) (w : Option Width) (s : State) : Host.Outcome State Fault Refusal := s.run e (insXor w)

/-- `NOT (R101)`. -/
def insNot (w : Option Width) : Ins := pureIns (wOp w 1 1 0) (un (fun a => sx (wq w) (2 ^ wq w - 1 - a : Nat)) (wq w))
def execNot (e : Nat) (w : Option Width) (s : State) : Host.Outcome State Fault Refusal := s.run e (insNot w)

/-- `NEG (R107)`. -/
def insNeg (w : Option Width) : Ins := condIns (wOp w 1 1 0) (unC (negRes (wq w)) (wq w))
def execNeg (e : Nat) (w : Option Width) (s : State) : Host.Outcome State Fault Refusal := s.run e (insNeg w)

/-- `ABS (R107)`. -/
def insAbs (w : Option Width) : Ins := condIns (wOp w 1 1 0) (unC (absRes (wq w)) (wq w))
def execAbs (e : Nat) (w : Option Width) (s : State) : Host.Outcome State Fault Refusal := s.run e (insAbs w)

/-- `SHL (R107)`. -/
def insShl (w : Option Width) : Ins := pureIns (wOp w 2 1 0) (bin (shlRes (wq w)) (wq w))
def execShl (e : Nat) (w : Option Width) (s : State) : Host.Outcome State Fault Refusal := s.run e (insShl w)

/-- `SHR (R107)`. -/
def insShr (w : Option Width) : Ins := pureIns (wOp w 2 1 0) (bin (shrRes (wq w)) (wq w))
def execShr (e : Nat) (w : Option Width) (s : State) : Host.Outcome State Fault Refusal := s.run e (insShr w)

/-- `SAR (R107)`. -/
def insSar (w : Option Width) : Ins := pureIns (wOp w 2 1 0) (bin (sarRes (wq w)) (wq w))
def execSar (e : Nat) (w : Option Width) (s : State) : Host.Outcome State Fault Refusal := s.run e (insSar w)

/-- `ROL (R107)`. -/
def insRol (w : Option Width) : Ins := pureIns (wOp w 2 1 0) (bin (rolRes (wq w)) (wq w))
def execRol (e : Nat) (w : Option Width) (s : State) : Host.Outcome State Fault Refusal := s.run e (insRol w)

/-- `ROR: the rotation to the left by the rest of the width (R107)`. -/
def insRor (w : Option Width) : Ins := pureIns (wOp w 2 1 0) (bin (fun a n => rolRes (wq w) a (wq w - n % wq w)) (wq w))
def execRor (e : Nat) (w : Option Width) (s : State) : Host.Outcome State Fault Refusal := s.run e (insRor w)

/-- `MUL, low bits (R101)`. -/
def insMul (w : Option Width) : Ins := pureIns (wOp w 2 (mulSteps (wq w)) 0) (bin (fun a b => sx (wq w) (a * b : Nat)) (wq w))
def execMul (e : Nat) (w : Option Width) (s : State) : Host.Outcome State Fault Refusal := s.run e (insMul w)

/-- `MULH, high bits of the signed product (R101)`. -/
def insMulh (w : Option Width) : Ins := pureIns (wOp w 2 (mulSteps (wq w)) 0) (bin (fun a b => sx (wq w) (sgn (wq w) a * sgn (wq w) b / (2 ^ wq w : Nat))) (wq w))
def execMulh (e : Nat) (w : Option Width) (s : State) : Host.Outcome State Fault Refusal := s.run e (insMulh w)

/-- `MULHU (R101)`. -/
def insMulhu (w : Option Width) : Ins := pureIns (wOp w 2 (mulSteps (wq w)) 0) (bin (fun a b => zx (wq w) (a * b / 2 ^ wq w)) (wq w))
def execMulhu (e : Nat) (w : Option Width) (s : State) : Host.Outcome State Fault Refusal := s.run e (insMulhu w)

/-- `DIV (R107)`. -/
def insDiv (w : Option Width) : Ins := condIns ({ wOp w 2 (divSteps (wq w)) 0 with plus3 := true }) (binC (fun a b => ((divRes (wq w) a b).1, (divRes (wq w) a b).2.2)) (wq w))
def execDiv (e : Nat) (w : Option Width) (s : State) : Host.Outcome State Fault Refusal := s.run e (insDiv w)

/-- `DIVU (R107)`. -/
def insDivu (w : Option Width) : Ins := condIns ({ wOp w 2 (divSteps (wq w)) 0 with plus3 := true }) (binC (fun a b => ((divuRes (wq w) a b).1, (divuRes (wq w) a b).2.2)) (wq w))
def execDivu (e : Nat) (w : Option Width) (s : State) : Host.Outcome State Fault Refusal := s.run e (insDivu w)

/-- `REM (R107)`. -/
def insRem (w : Option Width) : Ins := condIns ({ wOp w 2 (divSteps (wq w)) 0 with plus3 := true }) (binC (fun a b => (divRes (wq w) a b).2) (wq w))
def execRem (e : Nat) (w : Option Width) (s : State) : Host.Outcome State Fault Refusal := s.run e (insRem w)

/-- `REMU (R107)`. -/
def insRemu (w : Option Width) : Ins := condIns ({ wOp w 2 (divSteps (wq w)) 0 with plus3 := true }) (binC (fun a b => (divuRes (wq w) a b).2) (wq w))
def execRemu (e : Nat) (w : Option Width) (s : State) : Host.Outcome State Fault Refusal := s.run e (insRemu w)

/-- `DIVREM ( a b -- r q )` (R107). -/
def resDivrem (w : Nat) : List Entry128 → List Entry128 × BitVec 6
  | [b, a] =>
    let r := divRes w (low w a) (low w b)
    ([r.1, r.2.1], r.2.2)
  | l => (l, 0)
def insDivrem (w : Option Width) : Ins := condIns { wOp w 2 (divSteps (wq w)) 0 with dout := 2, plus3 := true } (resDivrem (wq w))
def execDivrem (e : Nat) (w : Option Width) (s : State) : Host.Outcome State Fault Refusal := s.run e (insDivrem w)

/-- `ADDS, saturating (R107)`. -/
def insAdds (w : Option Width) : Ins := condIns (wOp w 2 1 0) (binC (fun a b => saturate (wq w) (sgn (wq w) a + sgn (wq w) b)) (wq w))
def execAdds (e : Nat) (w : Option Width) (s : State) : Host.Outcome State Fault Refusal := s.run e (insAdds w)

/-- `SUBS, saturating (R107)`. -/
def insSubs (w : Option Width) : Ins := condIns (wOp w 2 1 0) (binC (fun a b => saturate (wq w) (sgn (wq w) a - sgn (wq w) b)) (wq w))
def execSubs (e : Nat) (w : Option Width) (s : State) : Host.Outcome State Fault Refusal := s.run e (insSubs w)

/-- `MIN, signed (R101)`. -/
def insMin (w : Option Width) : Ins := pureIns (wOp w 2 1 0) (bin (fun a b => sx (wq w) (if sgn (wq w) a ≤ sgn (wq w) b then sgn (wq w) a else sgn (wq w) b)) (wq w))
def execMin (e : Nat) (w : Option Width) (s : State) : Host.Outcome State Fault Refusal := s.run e (insMin w)

/-- `MAX, signed (R101)`. -/
def insMax (w : Option Width) : Ins := pureIns (wOp w 2 1 0) (bin (fun a b => sx (wq w) (if sgn (wq w) a ≤ sgn (wq w) b then sgn (wq w) b else sgn (wq w) a)) (wq w))
def execMax (e : Nat) (w : Option Width) (s : State) : Host.Outcome State Fault Refusal := s.run e (insMax w)

/-- `MINU (R101)`. -/
def insMinu (w : Option Width) : Ins := pureIns (wOp w 2 1 0) (bin (fun a b => zx (wq w) (Nat.min a b)) (wq w))
def execMinu (e : Nat) (w : Option Width) (s : State) : Host.Outcome State Fault Refusal := s.run e (insMinu w)

/-- `MAXU (R101)`. -/
def insMaxu (w : Option Width) : Ins := pureIns (wOp w 2 1 0) (bin (fun a b => zx (wq w) (Nat.max a b)) (wq w))
def execMaxu (e : Nat) (w : Option Width) (s : State) : Host.Outcome State Fault Refusal := s.run e (insMaxu w)

/-- `CLZ (R101)`. -/
def insClz (w : Option Width) : Ins := pureIns (wOp w 1 1 0) (un (fun a => zx (wq w) (clzNat (wq w) a)) (wq w))
def execClz (e : Nat) (w : Option Width) (s : State) : Host.Outcome State Fault Refusal := s.run e (insClz w)

/-- `CTZ (R101)`. -/
def insCtz (w : Option Width) : Ins := pureIns (wOp w 1 1 0) (un (fun a => zx (wq w) (ctzNat (wq w) a)) (wq w))
def execCtz (e : Nat) (w : Option Width) (s : State) : Host.Outcome State Fault Refusal := s.run e (insCtz w)

/-- `POPC (R101)`. -/
def insPopc (w : Option Width) : Ins := pureIns (wOp w 1 1 0) (un (fun a => zx (wq w) (popNat (wq w) a)) (wq w))
def execPopc (e : Nat) (w : Option Width) (s : State) : Host.Outcome State Fault Refusal := s.run e (insPopc w)

/-- `SEXT (R101)`. -/
def insSext (w : Option Width) : Ins := pureIns (wOp w 1 1 0) (un (fun a => sx (wq w) a) (wq w))
def execSext (e : Nat) (w : Option Width) (s : State) : Host.Outcome State Fault Refusal := s.run e (insSext w)

/-- `ZEXT (R101)`. -/
def insZext (w : Option Width) : Ins := pureIns (wOp w 1 1 0) (un (fun a => zx (wq w) a) (wq w))
def execZext (e : Nat) (w : Option Width) (s : State) : Host.Outcome State Fault Refusal := s.run e (insZext w)

/-- `MULQ15` (R108). -/
def insMulq15 : Ins := condIns { len := 1, base := 2, din := 2, dout := 1 } (binC (mulqRes 15) 16)
def execMulq15 (e : Nat) (s : State) : Host.Outcome State Fault Refusal := s.run e insMulq15

/-- `MULQ31` (R108). -/
def insMulq31 : Ins := condIns { len := 1, base := 2, din := 2, dout := 1 } (binC (mulqRes 31) 32)
def execMulq31 (e : Nat) (s : State) : Host.Outcome State Fault Refusal := s.run e insMulq31

/-- `EQ (R98)`. -/
def insEq (w : Option Width) : Ins := pureIns (wOp w 2 1 0) (bin (fun a b => flag (decide (a = b))) (wq w))
def execEq (e : Nat) (w : Option Width) (s : State) : Host.Outcome State Fault Refusal := s.run e (insEq w)

/-- `NE (R98)`. -/
def insNe (w : Option Width) : Ins := pureIns (wOp w 2 1 0) (bin (fun a b => flag (decide (a ≠ b))) (wq w))
def execNe (e : Nat) (w : Option Width) (s : State) : Host.Outcome State Fault Refusal := s.run e (insNe w)

/-- `LT, signed (R98)`. -/
def insLt (w : Option Width) : Ins := pureIns (wOp w 2 1 0) (bin (fun a b => flag (decide (sgn (wq w) a < sgn (wq w) b))) (wq w))
def execLt (e : Nat) (w : Option Width) (s : State) : Host.Outcome State Fault Refusal := s.run e (insLt w)

/-- `LE, signed (R98)`. -/
def insLe (w : Option Width) : Ins := pureIns (wOp w 2 1 0) (bin (fun a b => flag (decide (sgn (wq w) a ≤ sgn (wq w) b))) (wq w))
def execLe (e : Nat) (w : Option Width) (s : State) : Host.Outcome State Fault Refusal := s.run e (insLe w)

/-- `LTU (R98)`. -/
def insLtu (w : Option Width) : Ins := pureIns (wOp w 2 1 0) (bin (fun a b => flag (decide (a < b))) (wq w))
def execLtu (e : Nat) (w : Option Width) (s : State) : Host.Outcome State Fault Refusal := s.run e (insLtu w)

/-- `LEU (R98)`. -/
def insLeu (w : Option Width) : Ins := pureIns (wOp w 2 1 0) (bin (fun a b => flag (decide (a ≤ b))) (wq w))
def execLeu (e : Nat) (w : Option Width) (s : State) : Host.Outcome State Fault Refusal := s.run e (insLeu w)

/-- `SEL ( a b f -- c )` (R101). -/
def opSel : Op := stackOp 3 1
def resSel : List Entry128 → List Entry128
  | [f, b, a] => [if truth f then a else b]
  | l => l
def insSel : Ins := pureIns opSel resSel
def execSel (e : Nat) (s : State) : Host.Outcome State Fault Refusal := s.run e insSel

/-- `CLAMP ( x lo hi -- y )`, signed, the upper bound winning (R101). -/
def resClamp (w : Nat) : List Entry128 → List Entry128
  | [hi, lo, x] =>
    let v := if sgn w (low w x) < sgn w (low w lo) then sgn w (low w lo) else sgn w (low w x)
    [sx w (if sgn w (low w hi) < v then sgn w (low w hi) else v)]
  | l => l
def insClamp (w : Option Width) : Ins := pureIns (wOp w 3 1 0) (resClamp (wq w))
def execClamp (e : Nat) (w : Option Width) (s : State) : Host.Outcome State Fault Refusal := s.run e (insClamp w)

/-- `PICK n`: the entry n below the top is copied to the top; n above 11 is refused at decode (R94, R102). -/
def insPick (n8 : BitVec 8) : Ins := pureIns { len := 2, illegal := decide (11 < n8.toNat), din := n8.toNat + 1, dout := n8.toNat + 2 }
    fun ds => ds.getD n8.toNat 0 :: ds
def execPick (e : Nat) (n8 : BitVec 8) (s : State) : Host.Outcome State Fault Refusal := s.run e (insPick n8)

/-- `ADDI s8, modular (R102)`. -/
def insAddi (w : Option Width) (s8 : BitVec 8) : Ins := pureIns (wOp w 1 1 1) (un (fun a => sx (wq w) ((a : Int) + s8.toInt)) (wq w))
def execAddi (e : Nat) (w : Option Width) (s8 : BitVec 8) (s : State) : Host.Outcome State Fault Refusal := s.run e (insAddi w s8)

/-- `SHLI u8 (R107)`. -/
def insShli (w : Option Width) (u8 : BitVec 8) : Ins := pureIns (wOp w 1 1 1) (un (fun a => shlRes (wq w) a u8.toNat) (wq w))
def execShli (e : Nat) (w : Option Width) (u8 : BitVec 8) (s : State) : Host.Outcome State Fault Refusal := s.run e (insShli w u8)

/-- `SHRI u8 (R107)`. -/
def insShri (w : Option Width) (u8 : BitVec 8) : Ins := pureIns (wOp w 1 1 1) (un (fun a => shrRes (wq w) a u8.toNat) (wq w))
def execShri (e : Nat) (w : Option Width) (u8 : BitVec 8) (s : State) : Host.Outcome State Fault Refusal := s.run e (insShri w u8)

/-- `SARI u8 (R107)`. -/
def insSari (w : Option Width) (u8 : BitVec 8) : Ins := pureIns (wOp w 1 1 1) (un (fun a => sarRes (wq w) a u8.toNat) (wq w))
def execSari (e : Nat) (w : Option Width) (u8 : BitVec 8) (s : State) : Host.Outcome State Fault Refusal := s.run e (insSari w u8)

/-- `ROLI u8 (R107)`. -/
def insRoli (w : Option Width) (u8 : BitVec 8) : Ins := pureIns (wOp w 1 1 1) (un (fun a => rolRes (wq w) a u8.toNat) (wq w))
def execRoli (e : Nat) (w : Option Width) (u8 : BitVec 8) (s : State) : Host.Outcome State Fault Refusal := s.run e (insRoli w u8)

/-- What a literal leaves: the value sign-extended, or under `LXH` the upper half of the top entry replaced (R104). -/
def litRes (v : Int) (lxh : Bool) : List Entry128 → List Entry128
  | [a] => if lxh then [BitVec.ofNat 128 (low 64 a + (BitVec.ofInt 64 v).toNat * 2 ^ 64)] else [a]
  | _ => [BitVec.ofInt 128 v]

/-- The shape of a literal instruction with `n` literal bytes. -/
def litOp (n : Nat) (lx lxh : Bool) : Op :=
  { len := bit lx + bit lxh + 1 + n, din := bit lxh, dout := 1 }

/-- `LIT8` (R102, R104). -/
def insLit8 (s8 : BitVec 8) (lxh : Bool) : Ins := pureIns (litOp 1 false lxh) (litRes s8.toInt lxh)
def execLit8 (e : Nat) (s8 : BitVec 8) (lxh : Bool) (s : State) : Host.Outcome State Fault Refusal := s.run e (insLit8 s8 lxh)

/-- `LIT16` (R103, R104). -/
def insLit16 (s16 : BitVec 16) (lxh : Bool) : Ins := pureIns (litOp 2 false lxh) (litRes s16.toInt lxh)
def execLit16 (e : Nat) (s16 : BitVec 16) (lxh : Bool) (s : State) : Host.Outcome State Fault Refusal := s.run e (insLit16 s16 lxh)

/-- `LIT32`: 4 literal bytes, or 8 under `LX` (R103, R104). -/
def insLit32 (val : BitVec 64) (lx : Bool) (lxh : Bool) : Ins := pureIns (litOp (if lx then 8 else 4) lx lxh)
    (litRes (if lx then val.toInt else (val.setWidth 32).toInt) lxh)
def execLit32 (e : Nat) (val : BitVec 64) (lx : Bool) (lxh : Bool) (s : State) : Host.Outcome State Fault Refusal := s.run e (insLit32 val lx lxh)

end Sys2Proof.Machine
end

