-- ==== Sys2Proof/Machine/Mem.lean ====
section
/-! DEFINITION. Loads, stores, atomics, `FENCE`, `DUTY` and block copy (R101, R103, R113 to R116, R123, R129 to R131). -/
namespace Sys2Proof.Machine

/-- What a load leaves on the stack. -/
def loadRes (r : LoadRes) (f : Nat → Entry128) : Res :=
  match r with
  | .ok d b => .done b [f (leNat d)] []
  | .exc x b => .exc b x
  | .stay b => .stay b

/-- How a store ends. -/
def storeRes (r : StoreRes) : Res :=
  match r with
  | .ok b => .done b [] []
  | .exc x b => .exc b x
  | .stay b => .stay b

/-- The address of an access with offset `off`: the operand where it has a bit of [127:40], which R99 refuses, else the sum modulo 2^128
(R99, R103). -/
def offAddr (x : Entry128) (off : Int) : Nat := if 2 ^ 40 ≤ x.toNat then x.toNat else (x + BitVec.ofInt 128 off).toNat

/-- A load of width `w` at the address on top plus `off`. (DEDUCED, log 29). -/
def loadAct (w : Width) (off : Int) (f : Nat → Entry128) (b : Blk) (l : Nat) (ds _rs : List Entry128) : Res :=
  loadRes (b.load l (offAddr (ds.headD 0) off) (Width.bytes w)) f

/-- A store of width `w` of the second entry at the address on top plus `off`. (DEDUCED, log 29). -/
def storeAct (w : Width) (off : Int) (b : Blk) (l : Nat) (ds _rs : List Entry128) : Res :=
  storeRes (b.store l (offAddr (ds.headD 0) off) (toLe (Width.bytes w) (ds.getD 1 0).toNat))

/-- `LD ( a -- x )` (R101, R113). -/
def insLd (w : Width) : Ins := ⟨{ len := 1, din := 1, dout := 1 }, loadAct w 0 (zx (Width.bits w))⟩
def execLd (e : Nat) (w : Width) (s : State) : Host.Outcome State Fault Refusal := s.run e (insLd w)

/-- `LDS ( a -- x )`, sign-extended; the table has no `LDS.Q` (R94, R101, R113). -/
def insLds (w : Width) : Ins := ⟨{ len := 1, illegal := decide (w = .quad), din := 1, dout := 1 }, loadAct w 0 fun n => sx (Width.bits w) n⟩
def execLds (e : Nat) (w : Width) (s : State) : Host.Outcome State Fault Refusal := s.run e (insLds w)

/-- `ST ( x a -- )` (R101, R113). -/
def insSt (w : Width) : Ins := ⟨{ len := 1, din := 2 }, storeAct w 0⟩
def execSt (e : Nat) (w : Width) (s : State) : Host.Outcome State Fault Refusal := s.run e (insSt w)

/-- `LDO s16 ( a -- x )` (R103, R113). -/
def insLdo (w : Option Width) (s16 : BitVec 16) : Ins :=
  ⟨{ len := preLen w + 3, din := 1, dout := 1 }, loadAct (w.getD .quad) s16.toInt (zx (wq w))⟩
def execLdo (e : Nat) (w : Option Width) (s16 : BitVec 16) (s : State) : Host.Outcome State Fault Refusal := s.run e (insLdo w s16)

/-- `LDOS s16 ( a -- x )`: widths B to D, default D (R94, R103, R113). -/
def insLdos (w : Option Width) (s16 : BitVec 16) : Ins :=
  ⟨{ len := preLen w + 3, illegal := decide (w = some .quad), din := 1, dout := 1 },
   loadAct (w.getD .dbl) s16.toInt fun n => sx (Width.bits (w.getD .dbl)) n⟩
def execLdos (e : Nat) (w : Option Width) (s16 : BitVec 16) (s : State) : Host.Outcome State Fault Refusal := s.run e (insLdos w s16)

/-- `STO s16 ( x a -- )` (R103, R113). -/
def insSto (w : Option Width) (s16 : BitVec 16) : Ins := ⟨{ len := preLen w + 3, din := 2 }, storeAct (w.getD .quad) s16.toInt⟩
def execSto (e : Nat) (w : Option Width) (s16 : BitVec 16) (s : State) : Host.Outcome State Fault Refusal := s.run e (insSto w s16)

/-- `FENCE` (R114): it stays issued until everything stored before is performed. -/
def insFence : Ins := ⟨{ len := 1, base := 2 }, fun b l _ _ => if b.fenced l then .done b [] [] else .stay b⟩
def execFence (e : Nat) (s : State) : Host.Outcome State Fault Refusal := s.run e insFence

/-- The widths of atomics: W, D, Q (R101). -/
def atomBad (w : Option Width) : Bool := decide (w = some .byte) || decide (w = some .half)

/-- An atomic of operation byte `op` with `k` operands: address on top, then the new value, then the expected one. -/
def atomIns (w : Option Width) (op : BitVec 8) (k base : Nat) : Ins :=
  ⟨{ len := preLen w + 1, base := base, illegal := atomBad w, din := k, dout := 1 },
   fun b l ds _ =>
    match b.atomicOp l { op := op, bytes := wq w / 8, addr := (ds.headD 0).toNat, val := ds.getD 1 0, exp := ds.getD 2 0
                         pops := k, len := preLen w + 1, base := base } with
    | .ok old b => .done b [zx (wq w) old] []
    | .exc x b => .exc b x
    | .stay b => .stay b⟩

/-- `CAS ( e n a -- old )` (R101, R116). -/
def insCas (w : Option Width) : Ins := atomIns w 0x50 3 4
def execCas (e : Nat) (w : Option Width) (s : State) : Host.Outcome State Fault Refusal := s.run e (insCas w)

/-- `SWAPM ( n a -- old )` (R101, R116). -/
def insSwapm (w : Option Width) : Ins := atomIns w 0x51 2 3
def execSwapm (e : Nat) (w : Option Width) (s : State) : Host.Outcome State Fault Refusal := s.run e (insSwapm w)

/-- `ADDM ( v a -- old )` (R101, R107, R116). -/
def insAddm (w : Option Width) : Ins := atomIns w 0x52 2 3
def execAddm (e : Nat) (w : Option Width) (s : State) : Host.Outcome State Fault Refusal := s.run e (insAddm w)

/-- `DUTY ( v leg -- )` (R101, R123). -/
def insDuty : Ins :=
  ⟨{ len := 1, base := 2, din := 2 }, fun b l ds _ => storeRes (b.dutyOp l ((ds.getD 1 0).setWidth 32) ((ds.headD 0).setWidth 32))⟩
def execDuty (e : Nat) (s : State) : Host.Outcome State Fault Refusal := s.run e insDuty

/-! Block copy. -/

/-- Does a copy run in descending order (R129)? -/
def movbDown (s d n : Nat) : Bool := decide (s < d) && decide (d < s + n)

/-- Offset and length of the next unit of a copy of `n` bytes to `d` of which `k` bytes are done (R129, R131). -/
def movbUnit (down : Bool) (d n k : Nat) : Nat × Nat :=
  if down then
    let e := d + n - k
    let a := Nat.max d ((e - 1) / 16 * 16)
    (a - d, e - a)
  else (k, toWordEnd (d + k) (n - k))

/-- Store the count of what a resumable instruction has done. -/
def Blk.setVix (b : Blk) (l k : Nat) : Blk :=
  let t := (b.eng l).cur
  b.setTask l t { b.task l t with vix := BitVec.ofNat 32 k }

/-- One unit of a copy: read, then written. (DEDUCED, log 42). -/
def Blk.movbStep (b : Blk) (l s d off len : Nat) : StoreRes :=
  match b.loadOn l (s + off) len true (wordParts (s + off) len 3) with
  | .exc x b => .exc x b
  | .stay b => .stay b
  | .ok v b => b.storeOn l (d + off) v true (wordParts (d + off) len 3)

/-- At most `m` units of a copy, `k` bytes being done, `k0` at its issue. A later unit that fails leaves the base count of the part done to
be counted (R158). -/
def Blk.movbGo (b : Blk) (l s d n k0 k : Nat) : Nat → Res
  | 0 => .stay b
  | m + 1 =>
    let u := movbUnit (movbDown s d n) d n k
    match b.movbStep l s d u.1 u.2 with
    | .exc x b => .exc (if k = k0 then b else b.addSteps l 3) x
    | .stay b => .stay b
    | .ok b =>
      let b := b.addSteps l 2
      if n ≤ k + u.2 then .done (b.setVix l 0) [] []
      else
        let b := b.setVix l (k + u.2)
        if m = 0 || b.breaks l then .pause b else (b.tickSpc l 0).movbGo l s d n k0 (k + u.2) m

/-- The refusals of a copy by its count and `VIX` (R129, R131). -/
def movbBad (vix n : Nat) : Bool := decide (4096 < n) || decide (n < vix)

/-- The units of `n` bytes from `a` on. -/
def unitCount (a n : Nat) : Nat := if n = 0 then 0 else (a + n - 1) / 16 - a / 16 + 1

/-- `MOVB ( s d n -- )` (R101, R129 to R131), at most `m` units, one at least; `top` is the count where it can be read (R168, order 3), `base` the base
count that the operands give (R130). (DEDUCED, log 43). -/
def insMovb (m : Nat) (top : Option Nat) (vix base : Nat) : Ins :=
  ⟨{ len := 1, base := base, fin := some 3, illegal := (match top with
      | some n => movbBad vix n
      | none => false), din := 3 },
   fun b l ds _ =>
    let n := (ds.headD 0).toNat
    if movbBad vix n then .exc b ⟨0x01, 0, b.infoBytes l, 0⟩
    else if n ≤ vix then .done (b.setVix l 0) [] []
    else b.movbGo l (ds.getD 2 0).toNat (ds.getD 1 0).toNat n vix vix (Nat.max 1 m)⟩

/-- The top entry of the data stack that engine `l` uses: cached, or filled where its fill can be made. -/
def Blk.topOperand (b : Blk) (l : Nat) : Option Entry128 :=
  let v := b.stk l (b.eng l).cur (b.pl l) false
  match v.cache with
  | x :: _ => some x
  | [] =>
    match b.fillN l (b.pl l) v 1 v.sp with
    | .ok (r, _) => r.head?
    | .error _ => none

/-- Entry `k` of the data stack that engine `l` uses, cached or in memory. -/
def Blk.peekAt (b : Blk) (l k : Nat) : Entry128 :=
  let v := b.stk l (b.eng l).cur (b.pl l) false
  v.cache.getD k (BitVec.ofNat 128 (leNat (b.viewN l (v.sp + 16 * (k - v.cache.length)) 16)))

/-- The base count of a `MOVB` at its issue (R130). (DEDUCED, log 43). -/
def Blk.movbBase (b : Blk) (l : Nat) : Nat :=
  let n := (b.peekAt l 0).toNat
  let d := (b.peekAt l 1).toNat
  let k := (b.task l (b.eng l).cur).vix.toNat
  if movbBad k n then 3
  else if movbDown (b.peekAt l 2).toNat d n then 3 + 2 * unitCount d (n - k) else 3 + 2 * unitCount (d + k) (n - k)

/-- (DESIGN CHOICE, log 21). -/
def execMovb (e : Nat) (n : Nat) (s : State) : Host.Outcome State Fault Refusal :=
  let l := s.blk.lead e
  s.run e (insMovb n ((s.blk.topOperand l).map BitVec.toNat) (s.blk.task l (s.blk.eng l).cur).vix.toNat (s.blk.movbBase l))

end Sys2Proof.Machine
end

