-- ==== Sys2Proof/Machine/Control.lean ====
section
/-! DEFINITION. Branches, calls, returns and the instructions that only raise an exception (R93, R101 to R103, R117, R118). -/
namespace Sys2Proof.Machine

/-- The address of the executing instruction. -/
def Blk.pcNat (b : Blk) (l : Nat) : Nat := (b.task l (b.eng l).cur).pc.toNat

/-- The target of a relative branch of `len` bytes, modulo 2^40 (R93, R117). -/
def Blk.relTarget (b : Blk) (l len : Nat) (s : OffSize) (off : BitVec 32) : Nat :=
  (((b.pcNat l + len : Nat) : Int) + offValue s off).emod (2 ^ 40) |>.toNat

/-- The return address of a call of `len` bytes. -/
def Blk.retAddr (b : Blk) (l len : Nat) : Entry128 := BitVec.ofNat 128 (b.pcNat l + len)

/-- The encoded length of a branch or call. -/
def offLen (s : OffSize) : Nat := 1 + OffSize.bytes s

/-- `BR` (R102, R103, R117). -/
def insBr (size : OffSize) (off : BitVec 32) : Ins :=
  ⟨{ len := offLen size, base := 2 }, fun b l _ _ => .done b [] [] (some (b.relTarget l (offLen size) size off))⟩
def execBr (e : Nat) (size : OffSize) (off : BitVec 32) (s : State) : Host.Outcome State Fault Refusal := s.run e (insBr size off)

/-- A branch taken on a condition of its flag operand; `seen` is the operand, which decides the step count (R102); the table has no form with
a 32-bit offset (R103). -/
def condBr (p : Entry128 → Bool) (size : OffSize) (off : BitVec 32) (seen : Entry128) : Ins :=
  ⟨{ len := offLen size, base := if p seen then 2 else 1, illegal := decide (size = .s32), din := 1 },
   fun b l ds _ => .done b [] [] (if p (ds.headD 0) then some (b.relTarget l (offLen size) size off) else none)⟩

/-- `BZ ( f -- )` (R98, R102, R117). -/
def insBz (size : OffSize) (off : BitVec 32) (seen : Entry128) : Ins := condBr (fun f => !(truth f)) size off seen
def execBz (e : Nat) (size : OffSize) (off : BitVec 32) (s : State) : Host.Outcome State Fault Refusal :=
  s.run e (insBz size off (s.blk.peekAt (s.blk.lead e) 0))

/-- `BNZ ( f -- )` (R98, R102, R117). -/
def insBnz (size : OffSize) (off : BitVec 32) (seen : Entry128) : Ins := condBr truth size off seen
def execBnz (e : Nat) (size : OffSize) (off : BitVec 32) (s : State) : Host.Outcome State Fault Refusal :=
  s.run e (insBnz size off (s.blk.peekAt (s.blk.lead e) 0))

/-- `CALL` R:( -- ra ) (R103, R117); the table has no form with an 8-bit offset. -/
def insCall (size : OffSize) (off : BitVec 32) : Ins :=
  ⟨{ len := offLen size, base := 2, illegal := decide (size = .s8), rout := 1 },
   fun b l _ _ => .done b [] [b.retAddr l (offLen size)] (some (b.relTarget l (offLen size) size off))⟩
def execCall (e : Nat) (size : OffSize) (off : BitVec 32) (s : State) : Host.Outcome State Fault Refusal := s.run e (insCall size off)

/-- `RET` R:( ra -- ) (R101, R117). -/
def insRet : Ins := ⟨{ len := 1, base := 2, rin := 1 }, fun b _ _ rs => .done b [] [] (some (rs.headD 0).toNat)⟩
def execRet (e : Nat) (s : State) : Host.Outcome State Fault Refusal := s.run e insRet

/-- `JMPS ( a -- )` (R101, R117). -/
def insJmps : Ins := ⟨{ len := 1, base := 2, din := 1 }, fun b _ ds _ => .done b [] [] (some (ds.headD 0).toNat)⟩
def execJmps (e : Nat) (s : State) : Host.Outcome State Fault Refusal := s.run e insJmps

/-- `CALLS ( a -- )` R:( -- ra ) (R101, R117). -/
def insCalls : Ins :=
  ⟨{ len := 1, base := 2, din := 1, rout := 1 }, fun b l ds _ => .done b [] [b.retAddr l 1] (some (ds.headD 0).toNat)⟩
def execCalls (e : Nat) (s : State) : Host.Outcome State Fault Refusal := s.run e insCalls

/-- `SYSCALL u8` (R102, R118, R150). -/
def insSyscall (u8 : BitVec 8) : Ins :=
  ⟨{ len := 2, base := 2, early := true }, fun b _ _ _ => .done b [] [] none 0 (some ⟨0x0C, 0, u8.toNat, 0⟩)⟩
def execSyscall (e : Nat) (u8 : BitVec 8) (s : State) : Host.Outcome State Fault Refusal := s.run e (insSyscall u8)

/-- `BREAK` (R101, R118, R150). -/
def insBreak : Ins := ⟨{ len := 1, early := true }, fun b _ _ _ => .done b [] [] none 0 (some ⟨0x0D, 0, 0, 0⟩)⟩
def execBreakpt (e : Nat) (s : State) : Host.Outcome State Fault Refusal := s.run e insBreak

end Sys2Proof.Machine
end

