-- ==== Sys2Proof/Machine/FloatOps.lean ====
section
/-! DEFINITION. IEEE 754-2019 arithmetic on encoded values, as R110 to R112 fix it: exact results as an integer times a power of
two, rounded once. -/
namespace Sys2Proof.Machine

/-- A binary format: exponent bits and fraction bits. -/
structure Fmt where
  eb : Nat
  mb : Nat
  deriving DecidableEq, Repr

abbrev f16 : Fmt := ⟨5, 10⟩
abbrev f32 : Fmt := ⟨8, 23⟩
abbrev f64 : Fmt := ⟨11, 52⟩

/-- Exponent bias. -/
def Fmt.bias (f : Fmt) : Int := (2 ^ (f.eb - 1) : Nat) - 1

/-- The exponent of the lowest bit of a subnormal. -/
def Fmt.qmin (f : Fmt) : Int := 1 - f.bias - f.mb

/-- The bits of infinity without sign, of the sign, of the default NaN. -/
def Fmt.inf (f : Fmt) : Nat := (2 ^ f.eb - 1) * 2 ^ f.mb
def Fmt.sign (f : Fmt) (s : Bool) : Nat := if s then 2 ^ (f.eb + f.mb) else 0
def Fmt.nan (f : Fmt) : Nat := f.inf + 2 ^ (f.mb - 1)

/-- A value read from its encoding: the finite value is `m` times 2 to the `e`. -/
inductive FVal where
  | nan (sig : Bool)
  | inf (s : Bool)
  | fin (s : Bool) (m : Nat) (e : Int)
  deriving DecidableEq, Repr

/-- The floating-point mode of `ASTAT`: rounding and flushing (R81). -/
structure FMode where
  rm  : Nat
  ftz : Bool
  deriving DecidableEq, Repr

/-- Is the encoding a subnormal one? -/
def Fmt.isSub (f : Fmt) (n : Nat) : Bool := decide (n / 2 ^ f.mb % 2 ^ f.eb = 0) && decide (n % 2 ^ f.mb ≠ 0)

/-- Is the encoding's sign bit set? -/
def Fmt.neg (f : Fmt) (n : Nat) : Bool := n.testBit (f.eb + f.mb)

/-- Read an operand (R100, R111). -/
def Fmt.read (f : Fmt) (z : FMode) (n : Nat) : FVal :=
  let s := f.neg n
  let x := n / 2 ^ f.mb % 2 ^ f.eb
  let m := n % 2 ^ f.mb
  if x = 2 ^ f.eb - 1 then (if m = 0 then .inf s else .nan (decide (m < 2 ^ (f.mb - 1))))
  else if x = 0 then .fin s (if z.ftz then 0 else m) f.qmin
  else .fin s (m + 2 ^ f.mb) (f.qmin + x - 1)

/-- `m` times 2 to the `e` as a multiple of 2 to the `q`, rounded, and whether that is inexact. -/
def roundQ (rm : Nat) (s : Bool) (m : Nat) (e q : Int) : Nat × Bool :=
  if q ≤ e then (m * 2 ^ (e - q).toNat, false)
  else
    let k := (q - e).toNat
    let d := m / 2 ^ k
    let r := m % 2 ^ k
    let half := 2 ^ (k - 1)
    let up := match rm with
      | 0 => decide (half < r) || (decide (r = half) && decide (d % 2 = 1))
      | 1 => false
      | 2 => s && decide (r ≠ 0)
      | _ => !s && decide (r ≠ 0)
    (if up then d + 1 else d, decide (r ≠ 0))

/-- The bits of a magnitude of `d` units of 2 to the `q`, `d` at most 2^(mb+1), `q` at least `qmin`. -/
def Fmt.pack (f : Fmt) (d : Nat) (q : Int) : Nat :=
  if d = 2 ^ (f.mb + 1) then ((q - f.qmin).toNat + 2) * 2 ^ f.mb
  else if d < 2 ^ f.mb then d
  else ((q - f.qmin).toNat + 1) * 2 ^ f.mb + (d - 2 ^ f.mb)

/-- A result that overflows (R81, R110). -/
def Fmt.overflow (f : Fmt) (rm : Nat) (s : Bool) : Nat :=
  f.sign s + (if rm = 1 ∨ (rm = 2 ∧ s = false) ∨ (rm = 3 ∧ s = true) then f.inf - 1 else f.inf)

/-- The exact finite value rounded to the format (R110, R111). (DEDUCED, log 37). -/
def Fmt.round (f : Fmt) (z : FMode) (s : Bool) (m : Nat) (e : Int) : Nat × BitVec 6 :=
  if m = 0 then (f.sign s, 0)
  else
    let q := (Nat.log2 m : Int) + e - f.mb
    let u := roundQ z.rm s m e q
    let tiny := decide (q < f.qmin) && !(decide (q = f.qmin - 1) && decide (u.1 = 2 ^ (f.mb + 1)))
    if q < f.qmin then
      let r := roundQ z.rm s m e f.qmin
      if z.ftz && f.isSub r.1 then (f.sign s, condUF ||| condINX)
      else (f.sign s + f.pack r.1 f.qmin, if r.2 then (if tiny then condUF ||| condINX else condINX) else 0)
    else
      let w := f.pack u.1 q
      if f.inf ≤ w then (f.overflow z.rm s, condOF ||| condINX)
      else (f.sign s + w, if u.2 then condINX else 0)

/-- The sum of signed multiples as sign, magnitude and exponent; the sign of an exact zero is `zs`. -/
def addExact (s1 : Bool) (m1 : Nat) (e1 : Int) (s2 : Bool) (m2 : Nat) (e2 : Int) (zs : Bool) : Bool × Nat × Int :=
  let e := if e1 ≤ e2 then e1 else e2
  let a : Int := (m1 * 2 ^ (e1 - e).toNat : Nat)
  let c : Int := (m2 * 2 ^ (e2 - e).toNat : Nat)
  let v := (if s1 then -a else a) + (if s2 then -c else c)
  (if v = 0 then zs else decide (v < 0), v.natAbs, e)

/-- INV for a signalling NaN among the operands. -/
def sigInv (l : List FVal) : BitVec 6 := if l.contains (.nan true) then condINV else 0

/-- Is a value a NaN? -/
def FVal.isNan : FVal → Bool
  | .nan _ => true
  | _ => false

/-- The sign of an exact zero sum of terms with the signs `s` and `t`. -/
def zeroSign (rm : Nat) (s t : Bool) : Bool := if s = t then s else decide (rm = 2)

/-- Addition. -/
def Fmt.add (f : Fmt) (z : FMode) (a b : FVal) : Nat × BitVec 6 :=
  match a, b with
  | .nan _, _ => (f.nan, sigInv [a, b])
  | _, .nan _ => (f.nan, sigInv [a, b])
  | .inf s, .inf t => if s = t then (f.sign s + f.inf, 0) else (f.nan, condINV)
  | .inf s, _ => (f.sign s + f.inf, 0)
  | _, .inf t => (f.sign t + f.inf, 0)
  | .fin s m e, .fin t n g =>
    let v := addExact s m e t n g (zeroSign z.rm s t)
    f.round z v.1 v.2.1 v.2.2

/-- A value with its sign flipped; a NaN stays. -/
def FVal.flip : FVal → FVal
  | .nan q => .nan q
  | .inf s => .inf (!s)
  | .fin s m e => .fin (!s) m e

/-- Multiplication. -/
def Fmt.mul (f : Fmt) (z : FMode) (a b : FVal) : Nat × BitVec 6 :=
  match a, b with
  | .nan _, _ => (f.nan, sigInv [a, b])
  | _, .nan _ => (f.nan, sigInv [a, b])
  | .inf s, .inf t => (f.sign (s != t) + f.inf, 0)
  | .inf s, .fin t n _ => if n = 0 then (f.nan, condINV) else (f.sign (s != t) + f.inf, 0)
  | .fin s m _, .inf t => if m = 0 then (f.nan, condINV) else (f.sign (s != t) + f.inf, 0)
  | .fin s m e, .fin t n g => f.round z (s != t) (m * n) (e + g)

/-- Division. -/
def Fmt.div (f : Fmt) (z : FMode) (a b : FVal) : Nat × BitVec 6 :=
  match a, b with
  | .nan _, _ => (f.nan, sigInv [a, b])
  | _, .nan _ => (f.nan, sigInv [a, b])
  | .inf _, .inf _ => (f.nan, condINV)
  | .inf s, .fin t _ _ => (f.sign (s != t) + f.inf, 0)
  | .fin s _ _, .inf t => (f.sign (s != t), 0)
  | .fin s m e, .fin t n g =>
    if n = 0 then (if m = 0 then (f.nan, condINV) else (f.sign (s != t) + f.inf, condDZ))
    else
      let k := 2 * f.mb + 6
      let d := m * 2 ^ k / n
      f.round z (s != t) (2 * d + (if m * 2 ^ k % n = 0 then 0 else 1)) (e - g - k - 1)

/-- The integer square root of `x`, whose root has at most `n` bits: `r` is what is found so far. -/
def isqrt (x : Nat) : Nat → Nat → Nat
  | 0, r => r
  | n + 1, r => isqrt x n (if (r + 2 ^ n) * (r + 2 ^ n) ≤ x then r + 2 ^ n else r)

/-- Square root. -/
def Fmt.sqrt (f : Fmt) (z : FMode) (a : FVal) : Nat × BitVec 6 :=
  match a with
  | .nan _ => (f.nan, sigInv [a])
  | .inf s => if s then (f.nan, condINV) else (f.inf, 0)
  | .fin s m e =>
    if m = 0 then (f.sign s, 0)
    else if s then (f.nan, condINV)
    else
      let k := 2 * (f.mb + 4)
      let odd := decide (e % 2 ≠ 0)
      let x := m * 2 ^ (k + bit' odd)
      let r := isqrt x (2 * f.mb + 8) 0
      f.round z false (2 * r + (if r * r = x then 0 else 1)) ((e - bit' odd - k) / 2 - 1)
where
  /-- 1 for true. -/
  bit' (p : Bool) : Nat := if p then 1 else 0

/-- Fused multiply-add: a×b + c, one rounding. -/
def Fmt.fma (f : Fmt) (z : FMode) (a b c : FVal) : Nat × BitVec 6 :=
  let bad := match a, b with
    | .inf _, .fin _ n _ => decide (n = 0)
    | .fin _ m _, .inf _ => decide (m = 0)
    | _, _ => false
  if a.isNan || b.isNan || c.isNan then
    (f.nan, if bad && Config.fmaNanInv then condINV else sigInv [a, b, c])
  else if bad then (f.nan, condINV)
  else match a, b, c with
    | .fin s m e, .fin t n g, .fin u k h =>
      let v := addExact (s != t) (m * n) (e + g) u k h (zeroSign z.rm (s != t) u)
      f.round z v.1 v.2.1 v.2.2
    | .fin _ _ _, .fin _ _ _, .inf u => (f.sign u + f.inf, 0)
    | a, b, c =>
      let p := prodSign a b
      match c with
      | .inf u => if u = p then (f.sign u + f.inf, 0) else (f.nan, condINV)
      | _ => (f.sign p + f.inf, 0)
where
  /-- The sign of a product. -/
  prodSign (a b : FVal) : Bool := sgnOf a != sgnOf b
  /-- The sign of a value. -/
  sgnOf : FVal → Bool
    | .nan _ => false
    | .inf s => s
    | .fin s _ _ => s

/-- Order of two values that are no NaNs: a below b; −0 is below +0 where `zs` is set. -/
def FVal.below (zs : Bool) (a b : FVal) : Bool :=
  match a, b with
  | .inf s, .inf t => s && !t
  | .inf s, .fin _ _ _ => s
  | .fin _ _ _, .inf t => !t
  | .fin s m e, .fin t n g =>
    if m = 0 ∧ n = 0 then zs && s && !t
    else
      let v := addExact s m e (!t) n g false
      v.1 && decide (v.2.1 ≠ 0)
  | _, _ => false

/-- Equality of two values that are no NaNs. -/
def FVal.same (a b : FVal) : Bool := !(a.below false b) && !(b.below false a)

/-- The encoding that an operand is read as: a flushed subnormal is a zero. (DEDUCED, log 36). -/
def Fmt.flushed (f : Fmt) (z : FMode) (n : Nat) : Nat := if z.ftz && f.isSub n then f.sign (f.neg n) else n

/-- `FMIN` (`mx` false) and `FMAX` of encodings (R111). -/
def Fmt.minmax (f : Fmt) (z : FMode) (mx : Bool) (m n : Nat) : Nat × BitVec 6 :=
  let a := f.read z m
  let b := f.read z n
  let inv := sigInv [a, b]
  if a.isNan && b.isNan then (f.nan, inv)
  else if a.isNan then (f.flushed z n, inv)
  else if b.isNan then (f.flushed z m, inv)
  else if FVal.below true b a != mx then (f.flushed z n, inv)
  else (f.flushed z m, inv)

/-- `FEQ`, `FLT`, `FLE` (R111): the truth and INV. -/
def fcmp (quiet : Bool) (p : FVal → FVal → Bool) (a b : FVal) : Bool × BitVec 6 :=
  if a.isNan || b.isNan then (false, if quiet then sigInv [a, b] else condINV) else (p a b, 0)

/-- An integer rounded to the format (R112). -/
def Fmt.ofInt (f : Fmt) (z : FMode) (v : Int) : Nat × BitVec 6 := f.round z (decide (v < 0)) v.natAbs 0

/-- A value converted to an integer between two bounds, toward zero (R112). -/
def toInt (lo hi : Int) (a : FVal) : Int × BitVec 6 :=
  match a with
  | .nan _ => (0, condINV)
  | .inf s => (if s then lo else hi, condINV)
  | .fin s m e =>
    let r := roundQ 1 s m e 0
    let v : Int := if s then -(r.1 : Int) else r.1
    if v < lo then (lo, condINV) else if hi < v then (hi, condINV) else (v, if r.2 then condINX else 0)

/-- A value converted to another format (R112). -/
def Fmt.conv (f : Fmt) (z : FMode) (a : FVal) : Nat × BitVec 6 :=
  match a with
  | .nan q => (f.nan, if q then condINV else 0)
  | .inf s => (f.sign s + f.inf, 0)
  | .fin s m e => f.round z s m e

/-- The class mask of an encoding (R112). -/
def Fmt.classMask (f : Fmt) (n : Nat) : Nat :=
  let s := f.neg n
  match f.read ⟨0, false⟩ n with
  | .nan q => if q then 2 ^ 8 else 2 ^ 9
  | .inf _ => if s then 1 else 2 ^ 7
  | .fin _ m _ =>
    if m = 0 then (if s then 2 ^ 3 else 2 ^ 4)
    else if f.isSub n then (if s then 2 ^ 2 else 2 ^ 5)
    else (if s then 2 else 2 ^ 6)

end Sys2Proof.Machine
end

