-- ==== Sys2Proof/Machine/Float.lean ====
section
/-! DEFINITION. The floating-point page (R100, R106, R109 to R112). -/
namespace Sys2Proof.Machine

/-- The format of a width; W is the default (R106). -/
def fmtOf (w : Option Width) : Fmt :=
  match w with
  | some .half => f16
  | some .dbl => f64
  | _ => f32

/-- Bits of a format. -/
def Fmt.bits (f : Fmt) : Nat := 1 + f.eb + f.mb

/-- One of three step counts by format. -/
def fsteps (w : Option Width) (h s d : Nat) : Nat :=
  match w with
  | some .half => h
  | some .dbl => d
  | _ => s

/-- The shape of a floating-point instruction with `n` operands and `k` base steps (R94, R106, R109). -/
def fpOp (w : Option Width) (n k : Nat) : Op :=
  { len := preLen w + 2, base := k, illegal := decide (w = some .byte) || decide (w = some .quad), din := n, dout := 1, plus3 := true }

/-- The mode that a task's `ASTAT` holds (R81). -/
def fmode (astat : Word) : FMode := ⟨fld astat 16 2, tbit astat 18⟩

/-- The mode of the executing task. -/
def Blk.fmode (b : Blk) (l : Nat) : FMode := Machine.fmode (b.task l (b.eng l).cur).astat

/-- An operand's encoding. -/
def fpIn (f : Fmt) (x : Entry128) : Nat := x.toNat % 2 ^ f.bits

/-- An instruction that computes a result and conditions from its operands, top first, under the task's mode. -/
def fpIns (op : Op) (g : FMode → List Entry128 → Entry128 × BitVec 6) : Ins :=
  ⟨op, fun b l ds _ => .done b [(g (b.fmode l) ds).1] [] none (g (b.fmode l) ds).2⟩

/-- Results of a format are zero-extended (R100). -/
def fpOut (r : Nat × BitVec 6) : Entry128 × BitVec 6 := (BitVec.ofNat 128 r.1, r.2)

/-- One operand. -/
def fpUn (w : Option Width) (g : Fmt → FMode → Nat → Nat × BitVec 6) (z : FMode) (ds : List Entry128) : Entry128 × BitVec 6 :=
  fpOut (g (fmtOf w) z (fpIn (fmtOf w) (ds.headD 0)))

/-- Two operands ( a b -- ). -/
def fpBin (w : Option Width) (g : Fmt → FMode → Nat → Nat → Nat × BitVec 6) (z : FMode) (ds : List Entry128) : Entry128 × BitVec 6 :=
  fpOut (g (fmtOf w) z (fpIn (fmtOf w) (ds.getD 1 0)) (fpIn (fmtOf w) (ds.headD 0)))

/-- A comparison of two operands ( a b -- f ). -/
def fpCmp (w : Option Width) (quiet : Bool) (p : FVal → FVal → Bool) (z : FMode) (ds : List Entry128) : Entry128 × BitVec 6 :=
  let f := fmtOf w
  let r := fcmp quiet p (f.read z (fpIn f (ds.getD 1 0))) (f.read z (fpIn f (ds.headD 0)))
  (flag r.1, r.2)

/-- Encoded operations. -/
def fAdd (f : Fmt) (z : FMode) (a b : Nat) : Nat × BitVec 6 := f.add z (f.read z a) (f.read z b)
def fSub (f : Fmt) (z : FMode) (a b : Nat) : Nat × BitVec 6 := f.add z (f.read z a) (f.read z b).flip
def fMul (f : Fmt) (z : FMode) (a b : Nat) : Nat × BitVec 6 := f.mul z (f.read z a) (f.read z b)
def fDiv (f : Fmt) (z : FMode) (a b : Nat) : Nat × BitVec 6 := f.div z (f.read z a) (f.read z b)
def fSqrt (f : Fmt) (z : FMode) (a : Nat) : Nat × BitVec 6 := f.sqrt z (f.read z a)
def fMin (f : Fmt) (z : FMode) (a b : Nat) : Nat × BitVec 6 := f.minmax z false a b
def fMax (f : Fmt) (z : FMode) (a b : Nat) : Nat × BitVec 6 := f.minmax z true a b
def fNeg (f : Fmt) (z : FMode) (a : Nat) : Nat × BitVec 6 :=
  (f.sign (!(f.neg (f.flushed z a))) + f.flushed z a % 2 ^ (f.eb + f.mb), 0)
def fAbs (f : Fmt) (z : FMode) (a : Nat) : Nat × BitVec 6 := (f.flushed z a % 2 ^ (f.eb + f.mb), 0)
def fMa (f : Fmt) (z : FMode) (a b c : Nat) : Nat × BitVec 6 := f.fma z (f.read z a) (f.read z b) (f.read z c)
def fNma (f : Fmt) (z : FMode) (a b c : Nat) : Nat × BitVec 6 := f.fma z (f.read z a).flip (f.read z b) (f.read z c)

/-- The order of `FLT` and of `FLE`. -/
def fLess (a b : FVal) : Bool := a.below false b
def fLessEq (a b : FVal) : Bool := !(b.below false a)

/-- `FADD` (R106, R110). -/
def insFadd (w : Option Width) : Ins := fpIns (fpOp w 2 (fsteps w 2 2 3)) (fpBin w fAdd)
def execFadd (e : Nat) (w : Option Width) (s : State) : Host.Outcome State Fault Refusal := s.run e (insFadd w)

/-- `FSUB`. -/
def insFsub (w : Option Width) : Ins := fpIns (fpOp w 2 (fsteps w 2 2 3)) (fpBin w fSub)
def execFsub (e : Nat) (w : Option Width) (s : State) : Host.Outcome State Fault Refusal := s.run e (insFsub w)

/-- `FMUL`. -/
def insFmul (w : Option Width) : Ins := fpIns (fpOp w 2 (fsteps w 2 2 3)) (fpBin w fMul)
def execFmul (e : Nat) (w : Option Width) (s : State) : Host.Outcome State Fault Refusal := s.run e (insFmul w)

/-- `FDIV`. -/
def insFdiv (w : Option Width) : Ins := fpIns (fpOp w 2 (fsteps w 8 12 20)) (fpBin w fDiv)
def execFdiv (e : Nat) (w : Option Width) (s : State) : Host.Outcome State Fault Refusal := s.run e (insFdiv w)

/-- `FSQRT`. -/
def insFsqrt (w : Option Width) : Ins := fpIns (fpOp w 1 (fsteps w 8 12 20)) (fpUn w fSqrt)
def execFsqrt (e : Nat) (w : Option Width) (s : State) : Host.Outcome State Fault Refusal := s.run e (insFsqrt w)

/-- `FMA ( a b c -- a×b+c )`. -/
def insFma (w : Option Width) : Ins :=
  fpIns (fpOp w 3 (fsteps w 3 3 4)) fun z ds =>
    let f := fmtOf w
    fpOut (fMa f z (fpIn f (ds.getD 2 0)) (fpIn f (ds.getD 1 0)) (fpIn f (ds.headD 0)))
def execFma (e : Nat) (w : Option Width) (s : State) : Host.Outcome State Fault Refusal := s.run e (insFma w)

/-- `FMIN` (R111). -/
def insFmin (w : Option Width) : Ins := fpIns (fpOp w 2 1) (fpBin w fMin)
def execFmin (e : Nat) (w : Option Width) (s : State) : Host.Outcome State Fault Refusal := s.run e (insFmin w)

/-- `FMAX` (R111). -/
def insFmax (w : Option Width) : Ins := fpIns (fpOp w 2 1) (fpBin w fMax)
def execFmax (e : Nat) (w : Option Width) (s : State) : Host.Outcome State Fault Refusal := s.run e (insFmax w)

/-- `FNEG` (R106, R111). -/
def insFneg (w : Option Width) : Ins := fpIns { fpOp w 1 1 with plus3 := false } (fpUn w fNeg)
def execFneg (e : Nat) (w : Option Width) (s : State) : Host.Outcome State Fault Refusal := s.run e (insFneg w)

/-- `FABS` (R106, R111). -/
def insFabs (w : Option Width) : Ins := fpIns { fpOp w 1 1 with plus3 := false } (fpUn w fAbs)
def execFabs (e : Nat) (w : Option Width) (s : State) : Host.Outcome State Fault Refusal := s.run e (insFabs w)

/-- `FEQ` (R98, R111). -/
def insFeq (w : Option Width) : Ins := fpIns (fpOp w 2 1) (fpCmp w true FVal.same)
def execFeq (e : Nat) (w : Option Width) (s : State) : Host.Outcome State Fault Refusal := s.run e (insFeq w)

/-- `FLT`. -/
def insFlt (w : Option Width) : Ins := fpIns (fpOp w 2 1) (fpCmp w false fLess)
def execFlt (e : Nat) (w : Option Width) (s : State) : Host.Outcome State Fault Refusal := s.run e (insFlt w)

/-- `FLE`. -/
def insFle (w : Option Width) : Ins := fpIns (fpOp w 2 1) (fpCmp w false fLessEq)
def execFle (e : Nat) (w : Option Width) (s : State) : Host.Outcome State Fault Refusal := s.run e (insFle w)

/-- `FCLASS` (R111, R112). -/
def insFclass (w : Option Width) : Ins :=
  fpIns { fpOp w 1 1 with plus3 := false } (fpUn w fun f _ a => (f.classMask a, 0))
def execFclass (e : Nat) (w : Option Width) (s : State) : Host.Outcome State Fault Refusal := s.run e (insFclass w)

/-! `FCVT` (R112). -/

/-- A format code: a floating-point format. -/
def cvtFp (c : Nat) : Option Fmt :=
  match c with
  | 1 => some f16
  | 2 => some f32
  | 3 => some f64
  | _ => none

/-- A format code: an integer's bits and whether it is signed. -/
def cvtInt (c : Nat) : Option (Nat × Bool) :=
  match c with
  | 8 => some (32, true)
  | 9 => some (32, false)
  | 10 => some (64, true)
  | 11 => some (64, false)
  | _ => none

/-- The bounds of an integer format. -/
def intLo (n : Nat × Bool) : Int := if n.2 then smin n.1 else 0
def intHi (n : Nat × Bool) : Int := if n.2 then smax n.1 else (2 ^ n.1 : Nat) - 1

/-- Is the format byte one of the listed pairs (R94, R112)? -/
def cvtOk (src dst : Nat) : Bool :=
  match cvtFp src, cvtInt src, cvtFp dst, cvtInt dst with
  | some f, _, some g, _ => decide (f ≠ g)
  | some _, _, _, some _ => true
  | _, some _, some _, _ => true
  | _, _, _, _ => false

/-- The conversion. -/
def cvtRes (src dst : Nat) (z : FMode) (x : Entry128) : Entry128 × BitVec 6 :=
  match cvtFp src, cvtInt src, cvtFp dst, cvtInt dst with
  | some f, _, some g, _ => fpOut (g.conv z (f.read z (fpIn f x)))
  | some f, _, _, some n =>
    let r := toInt (intLo n) (intHi n) (f.read z (fpIn f x))
    (if n.2 then sx n.1 r.1 else zx n.1 r.1.toNat, r.2)
  | _, some n, some g, _ => fpOut (g.ofInt z (if n.2 then sgn n.1 (low n.1 x) else (low n.1 x : Int)))
  | _, _, _, _ => (x, 0)

/-- `FCVT` with its format byte: source in [7:4], target in [3:0]. -/
def insFcvt (fmt : BitVec 8) : Ins :=
  fpIns { len := 3, base := 2, illegal := !(cvtOk (fmt.toNat / 16) (fmt.toNat % 16)), din := 1, dout := 1, plus3 := true }
    fun z ds => cvtRes (fmt.toNat / 16) (fmt.toNat % 16) z (ds.headD 0)
def execFcvt (e : Nat) (fmt : BitVec 8) (s : State) : Host.Outcome State Fault Refusal := s.run e (insFcvt fmt)

end Sys2Proof.Machine
end

