-- ==== Sys2Proof/Machine/System.lean ====
section
/-! DEFINITION. Control-word access and the system page (R83 to R89, R105, R119 to R121, R127, R179 to R183, R208, R209, R541). -/
namespace Sys2Proof.Machine

/-! Control words. -/

/-- What a `CRD` returns: for `STKSTAT` the occupancy after its own push (R86). -/
def Blk.crdGet (b : Blk) (l i : Nat) : Word :=
  let t := (b.eng l).cur
  let c := b.task l t
  if i = 0x018 ∧ b.pl l ≠ 3 then stkStat (Nat.min 12 (c.ds.length + 1)) c.rs.length else b.ctlGet l t i

/-- `CRD idx ( -- x )` (R83, R84, R94). -/
def insCrd (idx : BitVec 16) : Ins :=
  ⟨{ len := 3, illegal := (ctlLevels idx.toNat).isNone, minPl := (match ctlLevels idx.toNat with
      | some (r, _) => r
      | none => 0), dout := 1 },
   fun b l _ _ => .done b [(b.crdGet l idx.toNat).setWidth 128] []⟩
def execCrd (e : Nat) (idx : BitVec 16) (s : State) : Host.Outcome State Fault Refusal := s.run e (insCrd idx)

/-- The level that writes a control word, none where it is not listed or read-only. -/
def ctlWrite (i : Nat) : Option Nat :=
  match ctlLevels i with
  | some (_, w) => w
  | none => none

/-- `CWR idx ( x -- )` (R70, R83, R84, R89, R94, R160). (DEDUCED, log 162). -/
def insCwr (idx : BitVec 16) : Ins :=
  ⟨{ len := 3, early := decide (idx.toNat ≤ 1), illegal := (ctlWrite idx.toNat).isNone, minPl := (ctlWrite idx.toNat).getD 0, din := 1 },
   fun b l ds _ =>
    if idx.toNat = 0x04A ∧ b.mstkOk = false then .exc b ⟨0x01, 0, b.infoBytes l, 0⟩
    else .done b [] [] none 0 none fun b => b.ctlSet l (b.eng l).cur idx.toNat ((ds.headD 0).setWidth 32)⟩
def execCwr (e : Nat) (idx : BitVec 16) (s : State) : Host.Outcome State Fault Refusal := s.run e (insCwr idx)

/-! System page. -/

/-- The shape of a system-page instruction: a page prefix and an opcode byte. -/
def sysOp (base minPl din dout : Nat) : Op := { len := 2, base := base, early := true, minPl := minPl, din := din, dout := dout }

/-- Does a write of a ROUTER page wait for its release (R210)? -/
def Blk.routerWaits (b : Blk) (p : Nat) : Bool := b.joined p && (b.pair p).q.any fun o => match o.act with
  | .page a _ _ => decide (0x010 ≤ pageOf a) && decide (pageOf a < 0x018)
  | _ => false

/-- `SYNC` (R89, R105): it does not retire before the pair's earlier writes of ROUTER pages are performed (R210). -/
def insSync : Ins :=
  ⟨sysOp 2 0 0 0, fun b l _ _ => if b.routerWaits (l / 2) then .stay b else .done b [] [] none 0 none fun b => b.applyPending l⟩
def execSync (e : Nat) (s : State) : Host.Outcome State Fault Refusal := s.run e insSync

/-- `SYNC.I` (R105, R127): the fetch buffer is discarded and filled again with the 32 bytes behind it. -/
def insSyncI : Ins :=
  ⟨sysOp 3 0 0 0, fun b l _ _ => .done b [] [] none 0 none fun b =>
    let a := (b.task l (b.eng l).cur).pc.toNat
    (b.setEng l { b.eng l with fpc := a, fbuf := b.fetchN l (b.pl l) a 34 }).fetchNotes l (b.pl l) (a + 2) 32⟩
def execSyncI (e : Nat) (s : State) : Host.Outcome State Fault Refusal := s.run e insSyncI

/-- Is a saved status word refused by a return executed at level `pl` (R119)? -/
def retBad (stat : Word) (pl : Nat) : Bool :=
  decide (pl < fld stat 0 2) || decide (fld stat 0 2 = 2) || decide (fld stat 4 4 ≠ 0) || decide (fld stat 9 3 ≠ 0) ||
  decide (fld stat 20 12 ≠ 0)

/-- A return to the saved status and PC (R119, R163). -/
def retAct (stat pc : Word) (b : Blk) (l : Nat) : Res :=
  let pl := b.pl l
  if retBad stat pl then .exc b ⟨0x03, pl, stat.toNat, 0⟩
  else
    let t := (b.eng l).cur
    .done ((b.setTask l t { b.task l t with tstat := stat &&& 0xF010F }).applyPending l) [] [] (some pc.toNat)

/-- `SRET` (R105, R119); `atM` says that it executes at PL 3, where it is illegal. -/
def insSret (atM : Bool) : Ins :=
  ⟨{ sysOp 3 1 0 0 with illegal := atM, sysRet := true },
   fun b l _ _ => retAct (b.task l (b.eng l).cur).ssaveStat (b.task l (b.eng l).cur).ssavePc b l⟩
def execSret (e : Nat) (s : State) : Host.Outcome State Fault Refusal :=
  s.run e (insSret (decide (s.blk.pl (s.blk.lead e) = 3)))

/-- `MRET` (R105, R119). -/
def insMret : Ins := ⟨{ sysOp 3 3 0 0 with sysRet := true }, fun b l _ _ => retAct (b.eng l).msaveStat (b.eng l).msavePc b l⟩
def execMret (e : Nat) (s : State) : Host.Outcome State Fault Refusal := s.run e insMret

/-- `EVDONE ( id -- )` (R122, R208, R150): the top source is popped, or `ROUTER_ORDER` follows. (DEDUCED, log 46). -/
def insEvdone : Ins :=
  ⟨{ sysOp 2 0 1 0 with latch := true },
   fun b l ds _ =>
    let id := (ds.headD 0).toNat % 1024
    let bad := fun info => Res.done (b.event 0x010 1) [] [] none 0 (some ⟨0x13, 0, info, 0⟩)
    match (b.eng l).stack with
    | [] => bad (id + 2 ^ 31)
    | x :: rest => if x.src = id then .done (b.setEng l { b.eng l with stack := rest }) [] [] else bad (id + x.src * 2 ^ 16)⟩
def execEvdone (e : Nat) (s : State) : Host.Outcome State Fault Refusal := s.run e insEvdone

/-- `SEV ( d -- )` (R121). -/
def insSev : Ins :=
  ⟨sysOp 2 0 1 0, fun b l ds _ =>
    match b.sevOp l ((ds.headD 0).setWidth 32) with
    | .ok b => .done b [] []
    | .exc x b => .exc b x
    | .stay b => .stay b⟩
def execSev (e : Nat) (s : State) : Host.Outcome State Fault Refusal := s.run e insSev

/-! Waits. -/

/-- In a replay the log says whether a wait's time condition held when it was issued (R332): an entry of KIND 7 of this moment. (DEDUCED, log 34). -/
def Blk.loggedTime (b : Blk) (l t : Nat) : Bool :=
  match (b.pair (l / 2)).cursor with
  | i :: _ => decide (i.kind = 7) && decide (i.spc ≤ (b.pair (l / 2)).spc) && decide (i.aux.toNat / 2 ^ 10 % 64 = t)
  | [] => false

/-- Does engine `l` replay a log? (DESIGN CHOICE, log 139). -/
def Blk.replays (b : Blk) (l : Nat) : Bool :=
  b.joined (l / 2) && (decide ((b.pair (l / 2)).phase = .replay) || decide ((b.pair (l / 2)).phase = .follow))

/-- The time condition of a wait at its issue, noted as an input of the pair (R329): whether it holds, and the block after. (DEDUCED, log 34). -/
def Blk.timeNow (b : Blk) (l : Nat) (k : WaitKind) (t : BitVec 64) : Bool × Blk :=
  let c := (b.eng l).cur
  if t = 0 then (decide (k = .waitt), b)
  else if b.replays l then
    (if b.loggedTime l c then (true, b.setPair (l / 2) { b.pair (l / 2) with cursor := (b.pair (l / 2)).cursor.drop 1 }) else (false, b))
  else if t ≤ b.tb.cnt then (true, b.logIn (l / 2) 7 (c * 2 ^ 10) b.tb.cnt.toNat)
  else (false, b)

/-- A wait's operand stays on top of its stack, cached (R179). -/
def Blk.keepTop (b : Blk) (l : Nat) (x : Entry128) : Blk :=
  let t := (b.eng l).cur
  let v := b.stk l t (b.pl l) false
  if v.cache.isEmpty then (b.eccRead v.sp).setStk l t { v with cache := [x], sp := v.sp + 16 } else b

/-- The task waits: below PL 3 it leaves Running, at PL 3 its engine waits in place (R78, R120, R175, R184). (DEDUCED, log 166). -/
def Blk.beginWait (b : Blk) (l : Nat) (k : WaitKind) (x : Entry128) : Res :=
  let b := b.keepTop l x
  let t := (b.eng l).cur
  if b.pl l = 3 then .stay (b.setEng l { b.eng l with waitM := some k })
  else .pause ((b.setTask l t { b.task l t with st := .waiting, wait := some k, woke := none, byp := false }).setEng l
    { b.eng l with run := false })

/-- The operation of a wait instruction (R120, R179, R183). -/
def waitAct (k : WaitKind) (b : Blk) (l : Nat) (ds _rs : List Entry128) : Res :=
  let t := (b.eng l).cur
  let c := b.task l t
  let x := ds.headD 0
  match c.chain, decide (k = .waitt) with
  | (e, _) :: rest, false => .done (b.setTask l t { c with chain := rest }) (waitOut k 0 ++ [e]) []
  | _, _ =>
    if c.evf = true ∧ k ≠ .waitt then .done (b.setTask l t { c with evf := false }) (waitOut k 0) []
    else
      let z := b.timeNow l k (x.setWidth 64)
      if z.1 then .done z.2 (waitOut k 1) [] none 0 (if k = .wfex then some ⟨0x11, 0, x.toNat % 2 ^ 32, 0⟩ else none)
      else z.2.beginWait l k x

/-- Does the executing task hold a chained entry (R183)? -/
def Blk.chained (b : Blk) (l : Nat) : Bool := !(b.task l (b.eng l).cur).chain.isEmpty

/-- `WFE ( t -- s )`; with a chained entry ( t -- e 0 ). -/
def insWfe (chained : Bool) : Ins := ⟨sysOp 1 0 1 (if chained then 2 else 1), waitAct .wfe⟩
def execWfe (e : Nat) (s : State) : Host.Outcome State Fault Refusal := s.run e (insWfe (s.blk.chained (s.blk.lead e)))

/-- `WFEX ( t -- )`; with a chained entry ( t -- e ). -/
def insWfex (chained : Bool) : Ins := ⟨sysOp 1 0 1 (if chained then 1 else 0), waitAct .wfex⟩
def execWfex (e : Nat) (s : State) : Host.Outcome State Fault Refusal := s.run e (insWfex (s.blk.chained (s.blk.lead e)))

/-- `WAITT ( t -- )`. -/
def insWaitt : Ins := ⟨sysOp 1 0 1 0, waitAct .waitt⟩
def execWaitt (e : Nat) (s : State) : Host.Outcome State Fault Refusal := s.run e insWaitt

end Sys2Proof.Machine
end

