-- ==== Sys2Proof/Machine/VecOps.lean ====
section
/-! DEFINITION. Sheaves, elements and predicates (R132 to R140), element-wise results (R138), vector memory access and its resumption
(R143 to R147). -/
namespace Sys2Proof.Machine

/-- What governs a vector instruction: Sheaf size code, element width code, `ZM` and `TSTAT.VEN` (R79, R133). -/
structure VCfg where
  sg  : Nat
  ew  : Nat
  zm  : Bool
  ven : Bool
  deriving DecidableEq, Repr

/-- Registers of a Sheaf, bits of an element, bytes of an element, elements of a Sheaf (R133, R134). -/
def VCfg.g (c : VCfg) : Nat := 2 ^ c.sg
def VCfg.bits (c : VCfg) : Nat := if c.ew = 0 then 32 else if c.ew = 1 then 16 else 8
def VCfg.size (c : VCfg) : Nat := c.bits / 8
def VCfg.elems (c : VCfg) : Nat := 128 * c.g / c.bits
/-- The format of elements (R138). -/
def VCfg.fmt (c : VCfg) : Fmt := if c.ew = 1 then f16 else f32

/-- The governing configuration of the task that engine `l` executes. -/
def Blk.vcfg (b : Blk) (l : Nat) : VCfg :=
  let x := b.task l (b.eng l).cur
  ⟨fld x.vcfgLive 0 2, fld x.vcfgLive 2 2, tbit x.vcfgLive 4, tbit x.tstat 8⟩

/-- Vector register and predicate register of a task. -/
def TaskCtx.vreg (x : TaskCtx) (n : Nat) : Entry128 := Tab.get (fun _ => 0) x.v n
def TaskCtx.preg (x : TaskCtx) (n : Nat) : BitVec 16 := Tab.get (fun _ => 0) x.p n

/-- Element `k` of Sheaf `v` (R134). -/
def VCfg.el (c : VCfg) (x : TaskCtx) (v : BitVec 4) (k : Nat) : Nat :=
  (x.vreg (v.toNat + k * c.bits / 128)).toNat / 2 ^ (k * c.bits % 128) % 2 ^ c.bits

/-- The registers with element `k` of Sheaf `v` written. -/
def VCfg.setEl (c : VCfg) (t : Tab Entry128) (v : BitVec 4) (k n : Nat) : Tab Entry128 :=
  let r := v.toNat + k * c.bits / 128
  let sh := k * c.bits % 128
  let old := (Tab.get (fun _ => (0 : Entry128)) t r).toNat
  Tab.set (fun _ => 0) t r (BitVec.ofNat 128 (old - old / 2 ^ sh % 2 ^ c.bits * 2 ^ sh + n % 2 ^ c.bits * 2 ^ sh))

/-- Is element `k` active in the predicate Sheaf `m` (R135)? -/
def VCfg.inPred (c : VCfg) (x : TaskCtx) (m k : Nat) : Bool := (x.preg (m + k * c.size / 16)).getLsbD (k * c.size % 16)

/-- Is element `k` active under the qualifier `q` (R135, R139)? -/
def VCfg.active (c : VCfg) (x : TaskCtx) (q : BitVec 4) (k : Nat) : Bool :=
  if q.getLsbD 3 then c.inPred x (q.toNat % 8) k else true

/-! Decoding checks (R94, R140). -/

/-- Is a qualifier refused: unpredicated with a predicate number, or a number that is no multiple of g? -/
def VCfg.qBad (c : VCfg) (q : BitVec 4) : Bool :=
  if q.getLsbD 3 then decide (q.toNat % 8 % c.g ≠ 0) else decide (q ≠ 0)

/-- Is one of the register or predicate numbers no multiple of g, or are vector instructions disabled? -/
def VCfg.bad (c : VCfg) (regs : List Nat) : Bool := !c.ven || regs.any fun r => decide (r % c.g ≠ 0)

/-- The shape of a vector instruction of `len` bytes with `base` steps, naming the registers `regs` and the qualifier `q`. -/
def VCfg.op (c : VCfg) (len base : Nat) (regs : List Nat) (q : BitVec 4) : Op :=
  { len := len, base := base, illegal := c.bad regs || c.qBad q, vec := true }

/-- The same for a floating-point instruction: elements of 8 bits are refused, precise mode costs 3 steps (R137, R140). -/
def VCfg.fop (c : VCfg) (len base : Nat) (regs : List Nat) (q : BitVec 4) : Op :=
  { c.op len base regs q with illegal := c.bad regs || c.qBad q || decide (c.ew = 2), plus3 := true }

/-! Element-wise results. -/

/-- The registers after an element-wise result in Sheaf `d`, and the conditions of the active elements (R135, R138). -/
def VCfg.map (c : VCfg) (x : TaskCtx) (d q : BitVec 4) (f : Nat → Nat × BitVec 6) : Tab Entry128 × BitVec 6 :=
  (List.range c.elems).foldl (fun r k =>
    if c.active x q k then (c.setEl r.1 d k (f k).1, r.2 ||| (f k).2)
    else if c.zm then (c.setEl r.1 d k 0, r.2) else r) (x.v, 0)

/-- Write the vector registers of the executing task. -/
def Blk.setV (b : Blk) (l : Nat) (v : Tab Entry128) : Blk :=
  let t := (b.eng l).cur
  b.setTask l t { b.task l t with v := v }

/-- Write the predicate registers of the executing task. -/
def Blk.setP (b : Blk) (l : Nat) (p : Tab (BitVec 16)) : Blk :=
  let t := (b.eng l).cur
  b.setTask l t { b.task l t with p := p }

/-- An instruction with an element-wise result: `f` gives element `k` of it from the registers and the floating-point mode. -/
def vecIns (c : VCfg) (op : Op) (d q : BitVec 4) (f : TaskCtx → FMode → Nat → Nat × BitVec 6) : Ins :=
  ⟨op, fun b l _ _ =>
    let x := b.task l (b.eng l).cur
    let r := c.map x d q (f x (b.fmode l))
    .done b [] [] none r.2 none fun b => b.setV l r.1⟩

/-- Form A with an integer operation on two elements. -/
def vecA (c : VCfg) (d a b q : BitVec 4) (g : Nat → Nat → Nat → Nat × BitVec 6) : Ins :=
  vecIns c (c.op 4 c.g [d.toNat, a.toNat, b.toNat] q) d q fun x _ k => g c.bits (c.el x a k) (c.el x b k)

/-- Form B with an integer operation on one element. -/
def vecB (c : VCfg) (d a q : BitVec 4) (g : Nat → Nat → Nat × BitVec 6) : Ins :=
  vecIns c (c.op 4 c.g [d.toNat, a.toNat] q) d q fun x _ k => g c.bits (c.el x a k)

/-- Form I with a shift by an amount. -/
def vecI (c : VCfg) (d a q : BitVec 4) (sh : BitVec 8) (g : Nat → Nat → Nat → Nat × BitVec 6) : Ins :=
  vecIns c (c.op 5 c.g [d.toNat, a.toNat] q) d q fun x _ k => g c.bits (c.el x a k) sh.toNat

/-- Form A with a floating-point operation on two elements. -/
def vecFA (c : VCfg) (d a b q : BitVec 4) (base : Nat) (g : Fmt → FMode → Nat → Nat → Nat × BitVec 6) : Ins :=
  vecIns c (c.fop 4 base [d.toNat, a.toNat, b.toNat] q) d q fun x z k => g c.fmt z (c.el x a k) (c.el x b k)

/-- Form B with a floating-point operation on one element. -/
def vecFB (c : VCfg) (d a q : BitVec 4) (base : Nat) (g : Fmt → FMode → Nat → Nat × BitVec 6) : Ins :=
  vecIns c (c.fop 4 base [d.toNat, a.toNat] q) d q fun x z k => g c.fmt z (c.el x a k)

/-- An entry as an element. -/
def asEl (r : Entry128 × BitVec 6) : Nat × BitVec 6 := (r.1.toNat, r.2)

/-! Predicates. -/

/-- The bits of a predicate Sheaf as one number. -/
def VCfg.predVal (c : VCfg) (x : TaskCtx) (m : Nat) : Nat :=
  (List.range c.g).foldl (fun a j => a + (x.preg (m + j)).toNat * 2 ^ (16 * j)) 0

/-- The predicate registers with the Sheaf `m` holding the bits of `n`. -/
def VCfg.setPred (c : VCfg) (p : Tab (BitVec 16)) (m n : Nat) : Tab (BitVec 16) :=
  (List.range c.g).foldl (fun p j => Tab.set (fun _ => 0) p (m + j) (BitVec.ofNat 16 (n / 2 ^ (16 * j)))) p

/-- The bits of a predicate in which the elements that `f` holds of are active, every byte alike (R135). -/
def VCfg.predOf (c : VCfg) (f : Nat → Bool) : Nat :=
  (List.range c.elems).foldl (fun a k => if f k then a + (2 ^ c.size - 1) * 2 ^ (k * c.size) else a) 0

/-- Form C: a comparison into predicate Sheaf `pd`. -/
def vecCmp (c : VCfg) (op : Op) (pd : BitVec 3) (q : BitVec 4) (f : TaskCtx → FMode → Nat → Bool × BitVec 6) : Ins :=
  ⟨op, fun b l _ _ =>
    let x := b.task l (b.eng l).cur
    let g := f x (b.fmode l)
    let n := c.predOf fun k => c.active x q k && (g k).1
    let conds := (List.range c.elems).foldl (fun a k => if c.active x q k then a ||| (g k).2 else a) 0
    .done b [] [] none conds none fun b => b.setP l (c.setPred x.p pd.toNat n)⟩

/-- An integer comparison. -/
def vecC (c : VCfg) (a b : BitVec 4) (pd : BitVec 3) (q : BitVec 4) (g : Nat → Nat → Nat → Bool) : Ins :=
  vecCmp c (c.op 4 c.g [a.toNat, b.toNat, pd.toNat] q) pd q fun x _ k => (g c.bits (c.el x a k) (c.el x b k), 0)

/-- A floating-point comparison. -/
def vecFC (c : VCfg) (a b : BitVec 4) (pd : BitVec 3) (q : BitVec 4) (quiet : Bool) (p : FVal → FVal → Bool) : Ins :=
  vecCmp c (c.fop 4 c.g [a.toNat, b.toNat, pd.toNat] q) pd q fun x z k =>
    fcmp quiet p (c.fmt.read z (c.el x a k)) (c.fmt.read z (c.el x b k))

/-- Form P: an operation on predicate Sheaves, with no regard to elements. -/
def predP (c : VCfg) (pd : BitVec 3) (src : List (BitVec 3)) (g : TaskCtx → Nat) : Ins :=
  ⟨c.op 4 1 (pd.toNat :: src.map BitVec.toNat) 0, fun b l _ _ =>
    .done (b.setP l (c.setPred (b.task l (b.eng l).cur).p pd.toNat (g (b.task l (b.eng l).cur)))) [] []⟩

/-! Vector memory access. -/

/-- The address of element `k` of a Sheaf at `a`. -/
def VCfg.addr (c : VCfg) (a k : Nat) : Nat := a + k * c.size

/-- The elements that an access reaches. -/
def VCfg.actives (c : VCfg) (x : TaskCtx) (q : BitVec 4) : List Nat := (List.range c.elems).filter fun k => c.active x q k

/-- A Sheaf with the active elements loaded from the bytes `d` in order, inactive ones under `ZM`. -/
def VCfg.fill (c : VCfg) (x : TaskCtx) (v q : BitVec 4) (d : List Byte) : Tab Entry128 :=
  let act := c.actives x q
  (c.map x v q fun k => (leNat ((d.drop (c.size * act.findIdx fun j => j == k)).take c.size), 0)).1

/-- `VLD` and `VLDP` (R143); `post` is left on the stack where the address advances. -/
def vldAct (c : VCfg) (v q : BitVec 4) (post : Entry128 → List Entry128) (b : Blk) (l : Nat) (ds _rs : List Entry128) : Res :=
  let x := b.task l (b.eng l).cur
  let a := (ds.headD 0).toNat
  let b := b.paySpan l a (16 * c.g)
  if a % c.size ≠ 0 ∧ (c.actives x q).isEmpty = true then .exc b (excAt 0x06 3 a)
  else match b.loadVec l ((c.actives x q).map fun k => c.addr a k) c.size with
    | .ok d b => .done (b.setV l (c.fill x v q d)) (post (ds.headD 0)) []
    | .exc x b => .exc b x
    | .stay b => .stay b

/-- `VST` and `VSTP` (R143). -/
def vstAct (c : VCfg) (v q : BitVec 4) (post : Entry128 → List Entry128) (b : Blk) (l : Nat) (ds _rs : List Entry128) : Res :=
  let x := b.task l (b.eng l).cur
  let a := (ds.headD 0).toNat
  let b := b.paySpan l a (16 * c.g)
  if a % c.size ≠ 0 ∧ (c.actives x q).isEmpty = true then .exc b (excAt 0x07 3 a)
  else match b.storeVec l c.size ((c.actives x q).map fun k => (c.addr a k, toLe c.size (c.el x v k))) with
    | .ok b => .done b (post (ds.headD 0)) []
    | .exc x b => .exc b x
    | .stay b => .stay b

/-- The address past a Sheaf (R142). -/
def VCfg.past (c : VCfg) (a : Entry128) : List Entry128 := [a + BitVec.ofNat 128 (16 * c.g)]

/-- An element's failure as the exception of a resumable instruction (R146, R150). -/
def elemExc (x : Exc) : Exc := if x.cause = 0x06 ∨ x.cause = 0x07 then { x with cause := 0x0B, sub := x.cause } else x

/-- A resumable vector instruction from position `k` on, `k0` at its issue, at most `m` positions: `step` performs one, `cost` is the
base count from a position on (R146, R147). A later position that fails leaves the base count of the part done to be counted (R158). -/
def Blk.vecGo (b : Blk) (l n : Nat) (cost : Nat → Nat) (step : Blk → Nat → StoreRes) (k0 k : Nat) : Nat → Res
  | 0 => .stay b
  | m + 1 =>
    match step b k with
    | .exc x b => .exc (if k = k0 then b else b.addSteps l 2) (elemExc x)
    | .stay b => .stay b
    | .ok b =>
      let b := b.addSteps l (cost k - cost (k + 1))
      if n ≤ k + 1 then .done (b.setVix l 0) [] []
      else
        let b := b.setVix l (k + 1)
        if m = 0 || b.breaks l then .pause b else (b.tickSpc l 0).vecGo l n cost step k0 (k + 1) m

/-- A resumable vector instruction: `VIX` = E completes at once (R147). -/
def vecRun (c : VCfg) (m : Nat) (cost : Nat → Nat) (step : Nat → Blk → Nat → Nat → StoreRes) (b : Blk) (l : Nat) (ds _rs : List Entry128) : Res :=
  let k := (b.task l (b.eng l).cur).vix.toNat
  if c.elems ≤ k then .done (b.setVix l 0) [] []
  else b.vecGo l c.elems cost (fun b k => step (ds.headD 0).toNat b l k) k k (Nat.max 1 m)

/-- One record of a structure load of `f` fields at `a` (R144). (DEDUCED, log 39). -/
def recStep (c : VCfg) (f : Nat) (v q : BitVec 4) (a : Nat) (b : Blk) (l k : Nat) : StoreRes :=
  let b := b.paySpan l a (16 * c.g * f)
  let x := b.task l (b.eng l).cur
  let put := fun (b : Blk) (d : List Byte) => b.setV l ((List.range f).foldl (fun t j =>
    c.setEl t (v + BitVec.ofNat 4 (j * c.g)) k (leNat ((d.drop (j * c.size)).take c.size))) (b.task l (b.eng l).cur).v)
  if c.active x q k then
    match b.loadVec l ((List.range f).map fun j => a + (k * f + j) * c.size) c.size with
    | .ok d b => .ok (put b d)
    | .exc x b => .exc x b
    | .stay b => .stay b
  else if c.zm then .ok (put b []) else .ok b

/-- One element of a gather (R145). -/
def gatherStep (c : VCfg) (v q i : BitVec 4) (a : Nat) (b : Blk) (l k : Nat) : StoreRes :=
  let x := b.task l (b.eng l).cur
  let put := fun (b : Blk) (n : Nat) => b.setV l (c.setEl (b.task l (b.eng l).cur).v v k n)
  if c.active x q k then
    match b.loadVec l [a + c.el x i k] c.size with
    | .ok d b => .ok (put b (leNat d))
    | .exc x b => .exc x b
    | .stay b => .stay b
  else if c.zm then .ok (put b 0) else .ok b

/-- One element of a scatter (R145). -/
def scatterStep (c : VCfg) (v q i : BitVec 4) (a : Nat) (b : Blk) (l k : Nat) : StoreRes :=
  let x := b.task l (b.eng l).cur
  if c.active x q k then b.storeVec l c.size [(a + c.el x i k, toLe c.size (c.el x v k))] else .ok b

/-- The shape of a resumable instruction: `VIX` above E is refused (R147), `cost` is its base count. -/
def VCfg.ropn (c : VCfg) (len : Nat) (regs : List Nat) (q : BitVec 4) (vix cost : Nat) (bad : Bool) : Op :=
  { c.op len cost regs q with illegal := c.bad regs || c.qBad q || bad || decide (c.elems < vix), din := 1, fin := some 2 }

/-- The base count of a structure load of `f` fields from position `k` on (R144). -/
def VCfg.recCost (c : VCfg) (f k : Nat) : Nat := 2 + ((c.elems - k) * f * c.size + 15) / 16

/-- The base count of a gather or scatter from position `k` on (R145). -/
def VCfg.elemCost (c : VCfg) (k : Nat) : Nat := 2 + (c.elems - k)

end Sys2Proof.Machine
end

