-- ==== Sys2Proof/Machine/Vector.lean ====
section
/-! DEFINITION. The vector page (R132 to R149): element-wise instructions, comparisons, transfers, reductions, predicates and memory
access. Each is read with the configuration `c` that governs it at issue. -/
namespace Sys2Proof.Machine


/-- `VADD` (R142): modular. -/
def insVadd (c : VCfg) (d a b q : BitVec 4) : Ins :=
  vecA c d a b q fun _ x y => (x + y, 0)
def execVadd (e : Nat) (d a b q : BitVec 4) (s : State) : Host.Outcome State Fault Refusal :=
  s.run e (insVadd (s.blk.vcfg (s.blk.lead e)) d a b q)

/-- `VSUB` (R142): modular. -/
def insVsub (c : VCfg) (d a b q : BitVec 4) : Ins :=
  vecA c d a b q fun w x y => (x + 2 ^ w - y, 0)
def execVsub (e : Nat) (d a b q : BitVec 4) (s : State) : Host.Outcome State Fault Refusal :=
  s.run e (insVsub (s.blk.vcfg (s.blk.lead e)) d a b q)

/-- `VAND` (R142). -/
def insVand (c : VCfg) (d a b q : BitVec 4) : Ins :=
  vecA c d a b q fun _ x y => (Nat.land x y, 0)
def execVand (e : Nat) (d a b q : BitVec 4) (s : State) : Host.Outcome State Fault Refusal :=
  s.run e (insVand (s.blk.vcfg (s.blk.lead e)) d a b q)

/-- `VOR` (R142). -/
def insVor (c : VCfg) (d a b q : BitVec 4) : Ins :=
  vecA c d a b q fun _ x y => (Nat.lor x y, 0)
def execVor (e : Nat) (d a b q : BitVec 4) (s : State) : Host.Outcome State Fault Refusal :=
  s.run e (insVor (s.blk.vcfg (s.blk.lead e)) d a b q)

/-- `VXOR` (R142). -/
def insVxor (c : VCfg) (d a b q : BitVec 4) : Ins :=
  vecA c d a b q fun _ x y => (Nat.xor x y, 0)
def execVxor (e : Nat) (d a b q : BitVec 4) (s : State) : Host.Outcome State Fault Refusal :=
  s.run e (insVxor (s.blk.vcfg (s.blk.lead e)) d a b q)

/-- `VNOT` (R142). -/
def insVnot (c : VCfg) (d a q : BitVec 4) : Ins :=
  vecB c d a q fun w x => (2 ^ w - 1 - x, 0)
def execVnot (e : Nat) (d a q : BitVec 4) (s : State) : Host.Outcome State Fault Refusal :=
  s.run e (insVnot (s.blk.vcfg (s.blk.lead e)) d a q)

/-- `VNEG` (R107, R138, R142). -/
def insVneg (c : VCfg) (d a q : BitVec 4) : Ins :=
  vecB c d a q fun w x => asEl (negRes w x)
def execVneg (e : Nat) (d a q : BitVec 4) (s : State) : Host.Outcome State Fault Refusal :=
  s.run e (insVneg (s.blk.vcfg (s.blk.lead e)) d a q)

/-- `VABS` (R107, R138, R142). -/
def insVabs (c : VCfg) (d a q : BitVec 4) : Ins :=
  vecB c d a q fun w x => asEl (absRes w x)
def execVabs (e : Nat) (d a q : BitVec 4) (s : State) : Host.Outcome State Fault Refusal :=
  s.run e (insVabs (s.blk.vcfg (s.blk.lead e)) d a q)

/-- `VMIN`, signed (R142). -/
def insVmin (c : VCfg) (d a b q : BitVec 4) : Ins :=
  vecA c d a b q fun w x y => (if sgn w x ≤ sgn w y then x else y, 0)
def execVmin (e : Nat) (d a b q : BitVec 4) (s : State) : Host.Outcome State Fault Refusal :=
  s.run e (insVmin (s.blk.vcfg (s.blk.lead e)) d a b q)

/-- `VMAX`, signed (R142). -/
def insVmax (c : VCfg) (d a b q : BitVec 4) : Ins :=
  vecA c d a b q fun w x y => (if sgn w x ≤ sgn w y then y else x, 0)
def execVmax (e : Nat) (d a b q : BitVec 4) (s : State) : Host.Outcome State Fault Refusal :=
  s.run e (insVmax (s.blk.vcfg (s.blk.lead e)) d a b q)

/-- `VMINU` (R142). -/
def insVminu (c : VCfg) (d a b q : BitVec 4) : Ins :=
  vecA c d a b q fun _ x y => (Nat.min x y, 0)
def execVminu (e : Nat) (d a b q : BitVec 4) (s : State) : Host.Outcome State Fault Refusal :=
  s.run e (insVminu (s.blk.vcfg (s.blk.lead e)) d a b q)

/-- `VMAXU` (R142). -/
def insVmaxu (c : VCfg) (d a b q : BitVec 4) : Ins :=
  vecA c d a b q fun _ x y => (Nat.max x y, 0)
def execVmaxu (e : Nat) (d a b q : BitVec 4) (s : State) : Host.Outcome State Fault Refusal :=
  s.run e (insVmaxu (s.blk.vcfg (s.blk.lead e)) d a b q)

/-- `VADDS` (R107, R138, R142). -/
def insVadds (c : VCfg) (d a b q : BitVec 4) : Ins :=
  vecA c d a b q fun w x y => asEl (saturate w (sgn w x + sgn w y))
def execVadds (e : Nat) (d a b q : BitVec 4) (s : State) : Host.Outcome State Fault Refusal :=
  s.run e (insVadds (s.blk.vcfg (s.blk.lead e)) d a b q)

/-- `VSUBS` (R107, R138, R142). -/
def insVsubs (c : VCfg) (d a b q : BitVec 4) : Ins :=
  vecA c d a b q fun w x y => asEl (saturate w (sgn w x - sgn w y))
def execVsubs (e : Nat) (d a b q : BitVec 4) (s : State) : Host.Outcome State Fault Refusal :=
  s.run e (insVsubs (s.blk.vcfg (s.blk.lead e)) d a b q)

/-- `VSHL`: the amount is the element of b (R107, R142). -/
def insVshl (c : VCfg) (d a b q : BitVec 4) : Ins :=
  vecA c d a b q fun w x y => ((shlRes w x y).toNat, 0)
def execVshl (e : Nat) (d a b q : BitVec 4) (s : State) : Host.Outcome State Fault Refusal :=
  s.run e (insVshl (s.blk.vcfg (s.blk.lead e)) d a b q)

/-- `VSHR`: the amount is the element of b (R107, R142). -/
def insVshr (c : VCfg) (d a b q : BitVec 4) : Ins :=
  vecA c d a b q fun w x y => ((shrRes w x y).toNat, 0)
def execVshr (e : Nat) (d a b q : BitVec 4) (s : State) : Host.Outcome State Fault Refusal :=
  s.run e (insVshr (s.blk.vcfg (s.blk.lead e)) d a b q)

/-- `VSAR`: the amount is the element of b (R107, R142). -/
def insVsar (c : VCfg) (d a b q : BitVec 4) : Ins :=
  vecA c d a b q fun w x y => ((sarRes w x y).toNat, 0)
def execVsar (e : Nat) (d a b q : BitVec 4) (s : State) : Host.Outcome State Fault Refusal :=
  s.run e (insVsar (s.blk.vcfg (s.blk.lead e)) d a b q)

/-- `VSHLI` (R107, R142). -/
def insVshli (c : VCfg) (d a q : BitVec 4) (sh : BitVec 8) : Ins :=
  vecI c d a q sh fun w x n => ((shlRes w x n).toNat, 0)
def execVshli (e : Nat) (d a q : BitVec 4) (sh : BitVec 8) (s : State) : Host.Outcome State Fault Refusal :=
  s.run e (insVshli (s.blk.vcfg (s.blk.lead e)) d a q sh)

/-- `VSHRI` (R107, R142). -/
def insVshri (c : VCfg) (d a q : BitVec 4) (sh : BitVec 8) : Ins :=
  vecI c d a q sh fun w x n => ((shrRes w x n).toNat, 0)
def execVshri (e : Nat) (d a q : BitVec 4) (sh : BitVec 8) (s : State) : Host.Outcome State Fault Refusal :=
  s.run e (insVshri (s.blk.vcfg (s.blk.lead e)) d a q sh)

/-- `VSARI` (R107, R142). -/
def insVsari (c : VCfg) (d a q : BitVec 4) (sh : BitVec 8) : Ins :=
  vecI c d a q sh fun w x n => ((sarRes w x n).toNat, 0)
def execVsari (e : Nat) (d a q : BitVec 4) (sh : BitVec 8) (s : State) : Host.Outcome State Fault Refusal :=
  s.run e (insVsari (s.blk.vcfg (s.blk.lead e)) d a q sh)

/-- `VMOV` (R142). -/
def insVmov (c : VCfg) (d a q : BitVec 4) : Ins :=
  vecB c d a q fun _ x => (x, 0)
def execVmov (e : Nat) (d a q : BitVec 4) (s : State) : Host.Outcome State Fault Refusal :=
  s.run e (insVmov (s.blk.vcfg (s.blk.lead e)) d a q)

/-- `VSEL` (R140, R142): every element of d is written, a's where active, b's elsewhere. -/
def insVsel (c : VCfg) (d a b q : BitVec 4) : Ins :=
  let op := c.op 4 c.g [d.toNat, a.toNat, b.toNat] q
  vecIns c { op with illegal := op.illegal || !(q.getLsbD 3) } d 0 fun x _ k => (if c.active x q k then c.el x a k else c.el x b k, 0)
def execVsel (e : Nat) (d a b q : BitVec 4) (s : State) : Host.Outcome State Fault Refusal :=
  s.run e (insVsel (s.blk.vcfg (s.blk.lead e)) d a b q)

/-- `VMUL` (R142). -/
def insVmul (c : VCfg) (d a b q : BitVec 4) : Ins :=
  vecA c d a b q fun _ x y => (x * y, 0)
def execVmul (e : Nat) (d a b q : BitVec 4) (s : State) : Host.Outcome State Fault Refusal :=
  s.run e (insVmul (s.blk.vcfg (s.blk.lead e)) d a b q)

/-- `VMULH`, signed (R142). -/
def insVmulh (c : VCfg) (d a b q : BitVec 4) : Ins :=
  vecA c d a b q fun w x y => ((sx w (sgn w x * sgn w y / (2 ^ w : Nat))).toNat, 0)
def execVmulh (e : Nat) (d a b q : BitVec 4) (s : State) : Host.Outcome State Fault Refusal :=
  s.run e (insVmulh (s.blk.vcfg (s.blk.lead e)) d a b q)

/-- `VMULQ` (R108, R138, R140): Q15 or Q31. -/
def insVmulq (c : VCfg) (d a b q : BitVec 4) : Ins :=
  vecIns c { c.fop 4 c.g [d.toNat, a.toNat, b.toNat] q with plus3 := false } d q fun x _ k =>
    asEl (mulqRes (c.bits - 1) (c.el x a k) (c.el x b k))
def execVmulq (e : Nat) (d a b q : BitVec 4) (s : State) : Host.Outcome State Fault Refusal :=
  s.run e (insVmulq (s.blk.vcfg (s.blk.lead e)) d a b q)

/-- `VMAC` (R142): d + a×b, modular. -/
def insVmac (c : VCfg) (d a b q : BitVec 4) : Ins :=
  vecIns c (c.op 4 c.g [d.toNat, a.toNat, b.toNat] q) d q fun x _ k =>
    (c.el x d k + c.el x a k * c.el x b k, 0)
def execVmac (e : Nat) (d a b q : BitVec 4) (s : State) : Host.Outcome State Fault Refusal :=
  s.run e (insVmac (s.blk.vcfg (s.blk.lead e)) d a b q)

/-- `VFADD` (R110, R111, R138, R142). -/
def insVfadd (c : VCfg) (d a b q : BitVec 4) : Ins :=
  vecFA c d a b q c.g fAdd
def execVfadd (e : Nat) (d a b q : BitVec 4) (s : State) : Host.Outcome State Fault Refusal :=
  s.run e (insVfadd (s.blk.vcfg (s.blk.lead e)) d a b q)

/-- `VFSUB` (R110, R111, R138, R142). -/
def insVfsub (c : VCfg) (d a b q : BitVec 4) : Ins :=
  vecFA c d a b q c.g fSub
def execVfsub (e : Nat) (d a b q : BitVec 4) (s : State) : Host.Outcome State Fault Refusal :=
  s.run e (insVfsub (s.blk.vcfg (s.blk.lead e)) d a b q)

/-- `VFMUL` (R110, R111, R138, R142). -/
def insVfmul (c : VCfg) (d a b q : BitVec 4) : Ins :=
  vecFA c d a b q c.g fMul
def execVfmul (e : Nat) (d a b q : BitVec 4) (s : State) : Host.Outcome State Fault Refusal :=
  s.run e (insVfmul (s.blk.vcfg (s.blk.lead e)) d a b q)

/-- `VFMIN` (R110, R111, R138, R142). -/
def insVfmin (c : VCfg) (d a b q : BitVec 4) : Ins :=
  vecFA c d a b q c.g fMin
def execVfmin (e : Nat) (d a b q : BitVec 4) (s : State) : Host.Outcome State Fault Refusal :=
  s.run e (insVfmin (s.blk.vcfg (s.blk.lead e)) d a b q)

/-- `VFMAX` (R110, R111, R138, R142). -/
def insVfmax (c : VCfg) (d a b q : BitVec 4) : Ins :=
  vecFA c d a b q c.g fMax
def execVfmax (e : Nat) (d a b q : BitVec 4) (s : State) : Host.Outcome State Fault Refusal :=
  s.run e (insVfmax (s.blk.vcfg (s.blk.lead e)) d a b q)

/-- `VFDIV` (R110, R138, R142). -/
def insVfdiv (c : VCfg) (d a b q : BitVec 4) : Ins :=
  vecFA c d a b q (4 * c.g) fDiv
def execVfdiv (e : Nat) (d a b q : BitVec 4) (s : State) : Host.Outcome State Fault Refusal :=
  s.run e (insVfdiv (s.blk.vcfg (s.blk.lead e)) d a b q)

/-- `VFMA` (R110, R138, R142): a×b + d, one rounding. -/
def insVfma (c : VCfg) (d a b q : BitVec 4) : Ins :=
  vecIns c (c.fop 4 c.g [d.toNat, a.toNat, b.toNat] q) d q fun x z k =>
    fMa c.fmt z (c.el x a k) (c.el x b k) (c.el x d k)
def execVfma (e : Nat) (d a b q : BitVec 4) (s : State) : Host.Outcome State Fault Refusal :=
  s.run e (insVfma (s.blk.vcfg (s.blk.lead e)) d a b q)

/-- `VFNMA` (R110, R138, R142): d − a×b, one rounding. -/
def insVfnma (c : VCfg) (d a b q : BitVec 4) : Ins :=
  vecIns c (c.fop 4 c.g [d.toNat, a.toNat, b.toNat] q) d q fun x z k =>
    fNma c.fmt z (c.el x a k) (c.el x b k) (c.el x d k)
def execVfnma (e : Nat) (d a b q : BitVec 4) (s : State) : Host.Outcome State Fault Refusal :=
  s.run e (insVfnma (s.blk.vcfg (s.blk.lead e)) d a b q)

/-- `VFSQRT` (R110, R138, R142). -/
def insVfsqrt (c : VCfg) (d a q : BitVec 4) : Ins :=
  vecFB c d a q (4 * c.g) fSqrt
def execVfsqrt (e : Nat) (d a q : BitVec 4) (s : State) : Host.Outcome State Fault Refusal :=
  s.run e (insVfsqrt (s.blk.vcfg (s.blk.lead e)) d a q)

/-- `VFNEG` (R111, R137, R142). -/
def insVfneg (c : VCfg) (d a q : BitVec 4) : Ins :=
  vecIns c { c.fop 4 c.g [d.toNat, a.toNat] q with plus3 := false } d q fun x z k => fNeg c.fmt z (c.el x a k)
def execVfneg (e : Nat) (d a q : BitVec 4) (s : State) : Host.Outcome State Fault Refusal :=
  s.run e (insVfneg (s.blk.vcfg (s.blk.lead e)) d a q)

/-- `VFABS` (R111, R137, R142). -/
def insVfabs (c : VCfg) (d a q : BitVec 4) : Ins :=
  vecIns c { c.fop 4 c.g [d.toNat, a.toNat] q with plus3 := false } d q fun x z k => fAbs c.fmt z (c.el x a k)
def execVfabs (e : Nat) (d a q : BitVec 4) (s : State) : Host.Outcome State Fault Refusal :=
  s.run e (insVfabs (s.blk.vcfg (s.blk.lead e)) d a q)

/-- `VFCVTI` (R112, R142): to a signed integer of the element width. -/
def insVfcvti (c : VCfg) (d a q : BitVec 4) : Ins :=
  vecFB c d a q c.g fun f z x =>
    let r := toInt (smin c.bits) (smax c.bits) (f.read z x)
    ((BitVec.ofInt 128 r.1).toNat, r.2)
def execVfcvti (e : Nat) (d a q : BitVec 4) (s : State) : Host.Outcome State Fault Refusal :=
  s.run e (insVfcvti (s.blk.vcfg (s.blk.lead e)) d a q)

/-- `VFCVTF` (R112, R142): from a signed integer of the element width. -/
def insVfcvtf (c : VCfg) (d a q : BitVec 4) : Ins :=
  vecFB c d a q c.g fun f z x => f.ofInt z (sgn c.bits x)
def execVfcvtf (e : Nat) (d a q : BitVec 4) (s : State) : Host.Outcome State Fault Refusal :=
  s.run e (insVfcvtf (s.blk.vcfg (s.blk.lead e)) d a q)

/-- `VCMPEQ` (R135, R142). -/
def insVcmpeq (c : VCfg) (a b : BitVec 4) (pd : BitVec 3) (q : BitVec 4) : Ins :=
  vecC c a b pd q fun _ x y => x == y
def execVcmpeq (e : Nat) (a b : BitVec 4) (pd : BitVec 3) (q : BitVec 4) (s : State) : Host.Outcome State Fault Refusal :=
  s.run e (insVcmpeq (s.blk.vcfg (s.blk.lead e)) a b pd q)

/-- `VCMPLT`, signed (R135, R142). -/
def insVcmplt (c : VCfg) (a b : BitVec 4) (pd : BitVec 3) (q : BitVec 4) : Ins :=
  vecC c a b pd q fun w x y => decide (sgn w x < sgn w y)
def execVcmplt (e : Nat) (a b : BitVec 4) (pd : BitVec 3) (q : BitVec 4) (s : State) : Host.Outcome State Fault Refusal :=
  s.run e (insVcmplt (s.blk.vcfg (s.blk.lead e)) a b pd q)

/-- `VCMPLE`, signed (R135, R142). -/
def insVcmple (c : VCfg) (a b : BitVec 4) (pd : BitVec 3) (q : BitVec 4) : Ins :=
  vecC c a b pd q fun w x y => decide (sgn w x ≤ sgn w y)
def execVcmple (e : Nat) (a b : BitVec 4) (pd : BitVec 3) (q : BitVec 4) (s : State) : Host.Outcome State Fault Refusal :=
  s.run e (insVcmple (s.blk.vcfg (s.blk.lead e)) a b pd q)

/-- `VCMPLTU` (R135, R142). -/
def insVcmpltu (c : VCfg) (a b : BitVec 4) (pd : BitVec 3) (q : BitVec 4) : Ins :=
  vecC c a b pd q fun _ x y => decide (x < y)
def execVcmpltu (e : Nat) (a b : BitVec 4) (pd : BitVec 3) (q : BitVec 4) (s : State) : Host.Outcome State Fault Refusal :=
  s.run e (insVcmpltu (s.blk.vcfg (s.blk.lead e)) a b pd q)

/-- `VFCMPEQ`, quiet (R111, R135, R142). -/
def insVfcmpeq (c : VCfg) (a b : BitVec 4) (pd : BitVec 3) (q : BitVec 4) : Ins :=
  vecFC c a b pd q true FVal.same
def execVfcmpeq (e : Nat) (a b : BitVec 4) (pd : BitVec 3) (q : BitVec 4) (s : State) : Host.Outcome State Fault Refusal :=
  s.run e (insVfcmpeq (s.blk.vcfg (s.blk.lead e)) a b pd q)

/-- `VFCMPLT`, signalling (R111, R135, R142). -/
def insVfcmplt (c : VCfg) (a b : BitVec 4) (pd : BitVec 3) (q : BitVec 4) : Ins :=
  vecFC c a b pd q false fLess
def execVfcmplt (e : Nat) (a b : BitVec 4) (pd : BitVec 3) (q : BitVec 4) (s : State) : Host.Outcome State Fault Refusal :=
  s.run e (insVfcmplt (s.blk.vcfg (s.blk.lead e)) a b pd q)

/-- `VFCMPLE`, signalling (R111, R135, R142). -/
def insVfcmple (c : VCfg) (a b : BitVec 4) (pd : BitVec 3) (q : BitVec 4) : Ins :=
  vecFC c a b pd q false fLessEq
def execVfcmple (e : Nat) (a b : BitVec 4) (pd : BitVec 3) (q : BitVec 4) (s : State) : Host.Outcome State Fault Refusal :=
  s.run e (insVfcmple (s.blk.vcfg (s.blk.lead e)) a b pd q)

/-- `VSPLAT ( x -- )` (R142). -/
def insVsplat (c : VCfg) (v q : BitVec 4) : Ins :=
  ⟨{ c.op 3 c.g [v.toNat] q with din := 1 }, fun b l ds _ =>
    .done (b.setV l (c.map (b.task l (b.eng l).cur) v q fun _ => ((ds.headD 0).toNat, 0)).1) [] []⟩
def execVsplat (e : Nat) (v q : BitVec 4) (s : State) : Host.Outcome State Fault Refusal :=
  s.run e (insVsplat (s.blk.vcfg (s.blk.lead e)) v q)

/-- `VEXT ( k -- x )` (R149). -/
def insVext (c : VCfg) (v : BitVec 4) : Ins :=
  ⟨{ c.op 3 2 [v.toNat] 0 with din := 1, dout := 1 }, fun b l ds _ =>
    let k := (ds.headD 0).toNat % 2 ^ 16
    .done b [if c.elems ≤ k then 0 else sx c.bits (c.el (b.task l (b.eng l).cur) v k)] []⟩
def execVext (e : Nat) (v : BitVec 4) (s : State) : Host.Outcome State Fault Refusal :=
  s.run e (insVext (s.blk.vcfg (s.blk.lead e)) v)

/-- `VINS ( x k -- )` (R149). -/
def insVins (c : VCfg) (v : BitVec 4) : Ins :=
  ⟨{ c.op 3 2 [v.toNat] 0 with din := 2 }, fun b l ds _ =>
    let k := (ds.headD 0).toNat % 2 ^ 16
    .done (if c.elems ≤ k then b else b.setV l (c.setEl (b.task l (b.eng l).cur).v v k (ds.getD 1 0).toNat)) [] []⟩
def execVins (e : Nat) (v : BitVec 4) (s : State) : Host.Outcome State Fault Refusal :=
  s.run e (insVins (s.blk.vcfg (s.blk.lead e)) v)

/-- `VPERM` (R149). -/
def insVperm (c : VCfg) (d a b q : BitVec 4) : Ins :=
  vecIns c (c.op 4 (2 * c.g) [d.toNat, a.toNat, b.toNat] q) d q fun x _ k =>
    (if c.elems ≤ c.el x b k then 0 else c.el x a (c.el x b k), 0)
def execVperm (e : Nat) (d a b q : BitVec 4) (s : State) : Host.Outcome State Fault Refusal :=
  s.run e (insVperm (s.blk.vcfg (s.blk.lead e)) d a b q)

/-- `VREDADD` (R149): modular sum. -/
def insVredadd (c : VCfg) (a q : BitVec 4) : Ins :=
  ⟨{ c.op 3 (2 + c.g) [a.toNat] q with dout := 1 }, fun b l _ _ =>
    let x := b.task l (b.eng l).cur
    .done b [sx c.bits (((c.actives x q).foldl (fun n k => n + c.el x a k) 0 : Nat))] []⟩
def execVredadd (e : Nat) (a q : BitVec 4) (s : State) : Host.Outcome State Fault Refusal :=
  s.run e (insVredadd (s.blk.vcfg (s.blk.lead e)) a q)

/-- `VREDMIN` (R149). -/
def insVredmin (c : VCfg) (a q : BitVec 4) : Ins :=
  ⟨{ c.op 3 (2 + c.g) [a.toNat] q with dout := 1 }, fun b l _ _ =>
    let x := b.task l (b.eng l).cur
    .done b [sx c.bits ((c.actives x q).foldl (fun n k => if sgn c.bits (c.el x a k) < n then sgn c.bits (c.el x a k) else n) (smax c.bits))] []⟩
def execVredmin (e : Nat) (a q : BitVec 4) (s : State) : Host.Outcome State Fault Refusal :=
  s.run e (insVredmin (s.blk.vcfg (s.blk.lead e)) a q)

/-- `VREDMAX` (R149). -/
def insVredmax (c : VCfg) (a q : BitVec 4) : Ins :=
  ⟨{ c.op 3 (2 + c.g) [a.toNat] q with dout := 1 }, fun b l _ _ =>
    let x := b.task l (b.eng l).cur
    .done b [sx c.bits ((c.actives x q).foldl (fun n k => if n < sgn c.bits (c.el x a k) then sgn c.bits (c.el x a k) else n) (smin c.bits))] []⟩
def execVredmax (e : Nat) (a q : BitVec 4) (s : State) : Host.Outcome State Fault Refusal :=
  s.run e (insVredmax (s.blk.vcfg (s.blk.lead e)) a q)

/-- The sum of elements in order: the first as it is read, each further one added with one rounding (R149). -/
def fsum (f : Fmt) (z : FMode) : List Nat → Nat × BitVec 6
  | [] => (0, 0)
  | x :: t => t.foldl (fun r y => ((fAdd f z r.1 y).1, r.2 ||| (fAdd f z r.1 y).2)) (f.conv z (f.read z x))

/-- `VFREDADD` (R149). -/
def insVfredadd (c : VCfg) (a q : BitVec 4) : Ins :=
  ⟨{ c.fop 3 (2 + c.elems) [a.toNat] q with dout := 1 }, fun b l _ _ =>
    let x := b.task l (b.eng l).cur
    let r := fsum c.fmt (b.fmode l) ((c.actives x q).map fun k => c.el x a k)
    .done b [BitVec.ofNat 128 r.1] [] none r.2⟩
/-- (DEDUCED, log 38). -/
def execVfredadd (e : Nat) (a q : BitVec 4) (s : State) : Host.Outcome State Fault Refusal :=
  s.run e (insVfredadd (s.blk.vcfg (s.blk.lead e)) a q)

/-- `PAND` (R142). -/
def insPand (c : VCfg) (pd pa pb : BitVec 3) : Ins :=
  predP c pd [pa, pb] fun x => Nat.land (c.predVal x pa.toNat) (c.predVal x pb.toNat)
def execPand (e : Nat) (pd pa pb : BitVec 3) (s : State) : Host.Outcome State Fault Refusal :=
  s.run e (insPand (s.blk.vcfg (s.blk.lead e)) pd pa pb)

/-- `POR` (R142). -/
def insPor (c : VCfg) (pd pa pb : BitVec 3) : Ins :=
  predP c pd [pa, pb] fun x => Nat.lor (c.predVal x pa.toNat) (c.predVal x pb.toNat)
def execPor (e : Nat) (pd pa pb : BitVec 3) (s : State) : Host.Outcome State Fault Refusal :=
  s.run e (insPor (s.blk.vcfg (s.blk.lead e)) pd pa pb)

/-- `PXOR` (R142). -/
def insPxor (c : VCfg) (pd pa pb : BitVec 3) : Ins :=
  predP c pd [pa, pb] fun x => Nat.xor (c.predVal x pa.toNat) (c.predVal x pb.toNat)
def execPxor (e : Nat) (pd pa pb : BitVec 3) (s : State) : Host.Outcome State Fault Refusal :=
  s.run e (insPxor (s.blk.vcfg (s.blk.lead e)) pd pa pb)

/-- `PNOT` (R142). -/
def insPnot (c : VCfg) (pd pa : BitVec 3) : Ins :=
  predP c pd [pa] fun x => 2 ^ (16 * c.g) - 1 - c.predVal x pa.toNat
def execPnot (e : Nat) (pd pa : BitVec 3) (s : State) : Host.Outcome State Fault Refusal :=
  s.run e (insPnot (s.blk.vcfg (s.blk.lead e)) pd pa)

/-- `PALL` (R142). -/
def insPall (c : VCfg) (pn : BitVec 3) : Ins :=
  { predP c pn [] fun _ => 2 ^ (16 * c.g) - 1 with op := c.op 3 1 [pn.toNat] 0 }
def execPall (e : Nat) (pn : BitVec 3) (s : State) : Host.Outcome State Fault Refusal :=
  s.run e (insPall (s.blk.vcfg (s.blk.lead e)) pn)

/-- `PRD ( -- x )` (R142). -/
def insPrd (c : VCfg) (pn : BitVec 3) : Ins :=
  ⟨{ c.op 3 1 [pn.toNat] 0 with dout := 1 }, fun b l _ _ =>
    .done b [BitVec.ofNat 128 (c.predVal (b.task l (b.eng l).cur) pn.toNat)] []⟩
def execPrd (e : Nat) (pn : BitVec 3) (s : State) : Host.Outcome State Fault Refusal :=
  s.run e (insPrd (s.blk.vcfg (s.blk.lead e)) pn)

/-- `PWR ( x -- )` (R142). -/
def insPwr (c : VCfg) (pn : BitVec 3) : Ins :=
  ⟨{ c.op 3 1 [pn.toNat] 0 with din := 1 }, fun b l ds _ =>
    .done (b.setP l (c.setPred (b.task l (b.eng l).cur).p pn.toNat (ds.headD 0).toNat)) [] []⟩
def execPwr (e : Nat) (pn : BitVec 3) (s : State) : Host.Outcome State Fault Refusal :=
  s.run e (insPwr (s.blk.vcfg (s.blk.lead e)) pn)

/-- `PCNT ( -- n )` (R142): active elements. -/
def insPcnt (c : VCfg) (pn : BitVec 3) : Ins :=
  ⟨{ c.op 3 1 [pn.toNat] 0 with dout := 1 }, fun b l _ _ =>
    .done b [BitVec.ofNat 128 ((List.range c.elems).countP fun k => c.inPred (b.task l (b.eng l).cur) pn.toNat k)] []⟩
def execPcnt (e : Nat) (pn : BitVec 3) (s : State) : Host.Outcome State Fault Refusal :=
  s.run e (insPcnt (s.blk.vcfg (s.blk.lead e)) pn)

/-- `VWHILE ( n -- n' )` (R148). -/
def insVwhile (c : VCfg) (pn : BitVec 3) : Ins :=
  ⟨{ c.op 3 1 [pn.toNat] 0 with din := 1, dout := 1 }, fun b l ds _ =>
    let n := (ds.headD 0).toNat % 2 ^ 64
    let k := Nat.min n c.elems
    .done (b.setP l (c.setPred (b.task l (b.eng l).cur).p pn.toNat (c.predOf fun j => decide (j < k)))) [BitVec.ofNat 128 (n - k)] []⟩
def execVwhile (e : Nat) (pn : BitVec 3) (s : State) : Host.Outcome State Fault Refusal :=
  s.run e (insVwhile (s.blk.vcfg (s.blk.lead e)) pn)

/-- `VLD ( a -- )` (R142, R143). -/
def insVld (c : VCfg) (v q : BitVec 4) : Ins :=
  ⟨{ c.op 3 c.g [v.toNat] q with din := 1, dout := 0 }, vldAct c v q (fun _ => [])⟩
def execVld (e : Nat) (v q : BitVec 4) (s : State) : Host.Outcome State Fault Refusal :=
  s.run e (insVld (s.blk.vcfg (s.blk.lead e)) v q)

/-- `VLDP ( a -- a' )` (R142, R143). -/
def insVldp (c : VCfg) (v q : BitVec 4) : Ins :=
  ⟨{ c.op 3 c.g [v.toNat] q with din := 1, dout := 1 }, vldAct c v q c.past⟩
def execVldp (e : Nat) (v q : BitVec 4) (s : State) : Host.Outcome State Fault Refusal :=
  s.run e (insVldp (s.blk.vcfg (s.blk.lead e)) v q)

/-- `VST ( a -- )` (R142, R143). -/
def insVst (c : VCfg) (v q : BitVec 4) : Ins :=
  ⟨{ c.op 3 c.g [v.toNat] q with din := 1, dout := 0 }, vstAct c v q (fun _ => [])⟩
def execVst (e : Nat) (v q : BitVec 4) (s : State) : Host.Outcome State Fault Refusal :=
  s.run e (insVst (s.blk.vcfg (s.blk.lead e)) v q)

/-- `VSTP ( a -- a' )` (R142, R143). -/
def insVstp (c : VCfg) (v q : BitVec 4) : Ins :=
  ⟨{ c.op 3 c.g [v.toNat] q with din := 1, dout := 1 }, vstAct c v q c.past⟩
def execVstp (e : Nat) (v q : BitVec 4) (s : State) : Host.Outcome State Fault Refusal :=
  s.run e (insVstp (s.blk.vcfg (s.blk.lead e)) v q)

/-- `VIX` of the executing task. -/
def Blk.vixOf (b : Blk) (l : Nat) : Nat := (b.task l (b.eng l).cur).vix.toNat

/-- `VLD2 ( a -- )` (R140, R144, R146, R147), at most `n` records. -/
def insVld2 (c : VCfg) (vix : Nat) (v q : BitVec 4) (n : Nat) : Ins :=
  ⟨c.ropn 3 [v.toNat] q vix (c.recCost 2 vix) (decide (16 < v.toNat + 2 * c.g)),
   vecRun c n (c.recCost 2) fun a b l k => recStep c 2 v q a b l k⟩
def execVld2 (e : Nat) (v q : BitVec 4) (n : Nat) (s : State) : Host.Outcome State Fault Refusal :=
  s.run e (insVld2 (s.blk.vcfg (s.blk.lead e)) (s.blk.vixOf (s.blk.lead e)) v q n)

/-- `VLD3 ( a -- )` (R140, R144, R146, R147), at most `n` records. -/
def insVld3 (c : VCfg) (vix : Nat) (v q : BitVec 4) (n : Nat) : Ins :=
  ⟨c.ropn 3 [v.toNat] q vix (c.recCost 3 vix) (decide (16 < v.toNat + 3 * c.g)),
   vecRun c n (c.recCost 3) fun a b l k => recStep c 3 v q a b l k⟩
def execVld3 (e : Nat) (v q : BitVec 4) (n : Nat) (s : State) : Host.Outcome State Fault Refusal :=
  s.run e (insVld3 (s.blk.vcfg (s.blk.lead e)) (s.blk.vixOf (s.blk.lead e)) v q n)

/-- `VLD4 ( a -- )` (R140, R144, R146, R147), at most `n` records. -/
def insVld4 (c : VCfg) (vix : Nat) (v q : BitVec 4) (n : Nat) : Ins :=
  ⟨c.ropn 3 [v.toNat] q vix (c.recCost 4 vix) (decide (16 < v.toNat + 4 * c.g)),
   vecRun c n (c.recCost 4) fun a b l k => recStep c 4 v q a b l k⟩
def execVld4 (e : Nat) (v q : BitVec 4) (n : Nat) (s : State) : Host.Outcome State Fault Refusal :=
  s.run e (insVld4 (s.blk.vcfg (s.blk.lead e)) (s.blk.vixOf (s.blk.lead e)) v q n)

/-- `VGATHER ( base -- )` (R140, R145 to R147), at most `n` positions. -/
def insVgather (c : VCfg) (vix : Nat) (v q i : BitVec 4) (n : Nat) : Ins :=
  ⟨c.ropn 4 [v.toNat, i.toNat] q vix (c.elemCost vix) (v == i),
   vecRun c n c.elemCost fun a b l k => gatherStep c v q i a b l k⟩
def execVgather (e : Nat) (v q i : BitVec 4) (n : Nat) (s : State) : Host.Outcome State Fault Refusal :=
  s.run e (insVgather (s.blk.vcfg (s.blk.lead e)) (s.blk.vixOf (s.blk.lead e)) v q i n)

/-- `VSCATTER ( base -- )` (R145 to R147), at most `n` positions. -/
def insVscatter (c : VCfg) (vix : Nat) (v q i : BitVec 4) (n : Nat) : Ins :=
  ⟨c.ropn 4 [v.toNat, i.toNat] q vix (c.elemCost vix) false,
   vecRun c n c.elemCost fun a b l k => scatterStep c v q i a b l k⟩
def execVscatter (e : Nat) (v q i : BitVec 4) (n : Nat) (s : State) : Host.Outcome State Fault Refusal :=
  s.run e (insVscatter (s.blk.vcfg (s.blk.lead e)) (s.blk.vixOf (s.blk.lead e)) v q i n)

end Sys2Proof.Machine
end

