-- ==== Sys2Proof/Machine/Rep.lean ====
section
/-! DEFINITION. The `REP` prefix (R124 to R126, R128, R141, R160). -/
namespace Sys2Proof.Machine

/-- The instruction that engine `l` finds behind a `REP` byte, as it is decoded at issue, and whether `REP` refuses it (R125); a second `REP`
is no instruction to decode (R92, R94). None for a command that is no instruction. -/
def Blk.repBody (s : Blk) (l : Nat) (i : Instr) : Option (Ins × Bool) :=
  match i with
  | .nop _ => some (insNop, false)
  | .dup _ => some (insDup, false)
  | .drop _ => some (insDrop, false)
  | .swap _ => some (insSwap, false)
  | .over _ => some (insOver, false)
  | .rot _ => some (insRot, false)
  | .nip _ => some (insNip, false)
  | .tuck _ => some (insTuck, false)
  | .toR _ => some (insToR, false)
  | .rFrom _ => some (insRFrom, false)
  | .rFetch _ => some (insRFetch, false)
  | .rdrop _ => some (insRdrop, false)
  | .twoDup _ => some (insTwoDup, false)
  | .twoDrop _ => some (insTwoDrop, false)
  | .twoSwap _ => some (insTwoSwap, false)
  | .twoOver _ => some (insTwoOver, false)
  | .add _ w => some (insAdd w, false)
  | .sub _ w => some (insSub w, false)
  | .and _ w => some (insAnd w, false)
  | .or _ w => some (insOr w, false)
  | .xor _ w => some (insXor w, false)
  | .not _ w => some (insNot w, false)
  | .neg _ w => some (insNeg w, false)
  | .abs _ w => some (insAbs w, false)
  | .shl _ w => some (insShl w, false)
  | .shr _ w => some (insShr w, false)
  | .sar _ w => some (insSar w, false)
  | .rol _ w => some (insRol w, false)
  | .ror _ w => some (insRor w, false)
  | .mul _ w => some (insMul w, false)
  | .mulh _ w => some (insMulh w, false)
  | .mulhu _ w => some (insMulhu w, false)
  | .div _ w => some (insDiv w, false)
  | .divu _ w => some (insDivu w, false)
  | .rem _ w => some (insRem w, false)
  | .remu _ w => some (insRemu w, false)
  | .divrem _ w => some (insDivrem w, false)
  | .adds _ w => some (insAdds w, false)
  | .subs _ w => some (insSubs w, false)
  | .min _ w => some (insMin w, false)
  | .max _ w => some (insMax w, false)
  | .minu _ w => some (insMinu w, false)
  | .maxu _ w => some (insMaxu w, false)
  | .clz _ w => some (insClz w, false)
  | .ctz _ w => some (insCtz w, false)
  | .popc _ w => some (insPopc w, false)
  | .sext _ w => some (insSext w, false)
  | .zext _ w => some (insZext w, false)
  | .mulq15 _ => some (insMulq15, false)
  | .mulq31 _ => some (insMulq31, false)
  | .eq _ w => some (insEq w, false)
  | .ne _ w => some (insNe w, false)
  | .lt _ w => some (insLt w, false)
  | .le _ w => some (insLe w, false)
  | .ltu _ w => some (insLtu w, false)
  | .leu _ w => some (insLeu w, false)
  | .sel _ => some (insSel, false)
  | .clamp _ w => some (insClamp w, false)
  | .ld _ w => some (insLd w, false)
  | .lds _ w => some (insLds w, false)
  | .st _ w => some (insSt w, false)
  | .fence _ => some (insFence, false)
  | .cas _ w => some (insCas w, false)
  | .swapm _ w => some (insSwapm w, false)
  | .addm _ w => some (insAddm w, false)
  | .ret _ => some (insRet, true)
  | .jmps _ => some (insJmps, true)
  | .calls _ => some (insCalls, true)
  | .breakpt _ => some (insBreak, true)
  | .duty _ => some (insDuty, false)
  | .movb _ n => some (insMovb n ((s.topOperand l).map BitVec.toNat) (s.vixOf l) 3, true)
  | .lit8 _ s8 lxh => some (insLit8 s8 lxh, false)
  | .pick _ n8 => some (insPick n8, false)
  | .addi _ w s8 => some (insAddi w s8, false)
  | .shli _ w u8 => some (insShli w u8, false)
  | .shri _ w u8 => some (insShri w u8, false)
  | .sari _ w u8 => some (insSari w u8, false)
  | .roli _ w u8 => some (insRoli w u8, false)
  | .syscall _ u8 => some (insSyscall u8, true)
  | .br _ size off => some (insBr size off, true)
  | .bz _ size off => some (insBz size off 0, true)
  | .bnz _ size off => some (insBnz size off 0, true)
  | .lit16 _ s16 lxh => some (insLit16 s16 lxh, false)
  | .lit32 _ val lx lxh => some (insLit32 val lx lxh, false)
  | .call _ size off => some (insCall size off, true)
  | .crd _ idx => some (insCrd idx, false)
  | .cwr _ idx => some (insCwr idx, decide (idx = 0x004))
  | .ldo _ w s16 => some (insLdo w s16, false)
  | .ldos _ w s16 => some (insLdos w s16, false)
  | .sto _ w s16 => some (insSto w s16, false)
  | .sync _ => some (insSync, true)
  | .syncI _ => some (insSyncI, true)
  | .sret _ => some (insSret (decide (s.pl l = 3)), true)
  | .mret _ => some (insMret, true)
  | .evdone _ => some (insEvdone, true)
  | .wfe _ => some (insWfe false, true)
  | .wfex _ => some (insWfex false, true)
  | .waitt _ => some (insWaitt, true)
  | .sev _ => some (insSev, true)
  | .fadd _ w => some (insFadd w, false)
  | .fsub _ w => some (insFsub w, false)
  | .fmul _ w => some (insFmul w, false)
  | .fdiv _ w => some (insFdiv w, false)
  | .fsqrt _ w => some (insFsqrt w, false)
  | .fma _ w => some (insFma w, false)
  | .fmin _ w => some (insFmin w, false)
  | .fmax _ w => some (insFmax w, false)
  | .fneg _ w => some (insFneg w, false)
  | .fabs _ w => some (insFabs w, false)
  | .feq _ w => some (insFeq w, false)
  | .flt _ w => some (insFlt w, false)
  | .fle _ w => some (insFle w, false)
  | .fcvt _ fmt => some (insFcvt fmt, false)
  | .fclass _ w => some (insFclass w, false)
  | .vld _ v q => some (insVld (s.vcfg l) v q, false)
  | .vldp _ v q => some (insVldp (s.vcfg l) v q, false)
  | .vst _ v q => some (insVst (s.vcfg l) v q, false)
  | .vstp _ v q => some (insVstp (s.vcfg l) v q, false)
  | .vld2 _ v q n => some (insVld2 (s.vcfg l) (s.vixOf l) v q n, true)
  | .vld3 _ v q n => some (insVld3 (s.vcfg l) (s.vixOf l) v q n, true)
  | .vld4 _ v q n => some (insVld4 (s.vcfg l) (s.vixOf l) v q n, true)
  | .vgather _ v q i n => some (insVgather (s.vcfg l) (s.vixOf l) v q i n, true)
  | .vscatter _ v q i n => some (insVscatter (s.vcfg l) (s.vixOf l) v q i n, true)
  | .vadd _ d a b q => some (insVadd (s.vcfg l) d a b q, false)
  | .vsub _ d a b q => some (insVsub (s.vcfg l) d a b q, false)
  | .vand _ d a b q => some (insVand (s.vcfg l) d a b q, false)
  | .vor _ d a b q => some (insVor (s.vcfg l) d a b q, false)
  | .vxor _ d a b q => some (insVxor (s.vcfg l) d a b q, false)
  | .vnot _ d a q => some (insVnot (s.vcfg l) d a q, false)
  | .vneg _ d a q => some (insVneg (s.vcfg l) d a q, false)
  | .vabs _ d a q => some (insVabs (s.vcfg l) d a q, false)
  | .vmin _ d a b q => some (insVmin (s.vcfg l) d a b q, false)
  | .vmax _ d a b q => some (insVmax (s.vcfg l) d a b q, false)
  | .vminu _ d a b q => some (insVminu (s.vcfg l) d a b q, false)
  | .vmaxu _ d a b q => some (insVmaxu (s.vcfg l) d a b q, false)
  | .vadds _ d a b q => some (insVadds (s.vcfg l) d a b q, false)
  | .vsubs _ d a b q => some (insVsubs (s.vcfg l) d a b q, false)
  | .vshl _ d a b q => some (insVshl (s.vcfg l) d a b q, false)
  | .vshr _ d a b q => some (insVshr (s.vcfg l) d a b q, false)
  | .vsar _ d a b q => some (insVsar (s.vcfg l) d a b q, false)
  | .vshli _ d a q sh => some (insVshli (s.vcfg l) d a q sh, false)
  | .vshri _ d a q sh => some (insVshri (s.vcfg l) d a q sh, false)
  | .vsari _ d a q sh => some (insVsari (s.vcfg l) d a q sh, false)
  | .vmov _ d a q => some (insVmov (s.vcfg l) d a q, false)
  | .vsel _ d a b q => some (insVsel (s.vcfg l) d a b q, false)
  | .vmul _ d a b q => some (insVmul (s.vcfg l) d a b q, false)
  | .vmulh _ d a b q => some (insVmulh (s.vcfg l) d a b q, false)
  | .vmulq _ d a b q => some (insVmulq (s.vcfg l) d a b q, false)
  | .vmac _ d a b q => some (insVmac (s.vcfg l) d a b q, false)
  | .vfadd _ d a b q => some (insVfadd (s.vcfg l) d a b q, false)
  | .vfsub _ d a b q => some (insVfsub (s.vcfg l) d a b q, false)
  | .vfmul _ d a b q => some (insVfmul (s.vcfg l) d a b q, false)
  | .vfma _ d a b q => some (insVfma (s.vcfg l) d a b q, false)
  | .vfnma _ d a b q => some (insVfnma (s.vcfg l) d a b q, false)
  | .vfdiv _ d a b q => some (insVfdiv (s.vcfg l) d a b q, false)
  | .vfsqrt _ d a q => some (insVfsqrt (s.vcfg l) d a q, false)
  | .vfmin _ d a b q => some (insVfmin (s.vcfg l) d a b q, false)
  | .vfmax _ d a b q => some (insVfmax (s.vcfg l) d a b q, false)
  | .vfneg _ d a q => some (insVfneg (s.vcfg l) d a q, false)
  | .vfabs _ d a q => some (insVfabs (s.vcfg l) d a q, false)
  | .vfcvti _ d a q => some (insVfcvti (s.vcfg l) d a q, false)
  | .vfcvtf _ d a q => some (insVfcvtf (s.vcfg l) d a q, false)
  | .vcmpeq _ a b pd q => some (insVcmpeq (s.vcfg l) a b pd q, false)
  | .vcmplt _ a b pd q => some (insVcmplt (s.vcfg l) a b pd q, false)
  | .vcmple _ a b pd q => some (insVcmple (s.vcfg l) a b pd q, false)
  | .vcmpltu _ a b pd q => some (insVcmpltu (s.vcfg l) a b pd q, false)
  | .vfcmpeq _ a b pd q => some (insVfcmpeq (s.vcfg l) a b pd q, false)
  | .vfcmplt _ a b pd q => some (insVfcmplt (s.vcfg l) a b pd q, false)
  | .vfcmple _ a b pd q => some (insVfcmple (s.vcfg l) a b pd q, false)
  | .vsplat _ v q => some (insVsplat (s.vcfg l) v q, false)
  | .vext _ v => some (insVext (s.vcfg l) v, false)
  | .vins _ v => some (insVins (s.vcfg l) v, false)
  | .vperm _ d a b q => some (insVperm (s.vcfg l) d a b q, false)
  | .vredadd _ a q => some (insVredadd (s.vcfg l) a q, false)
  | .vredmin _ a q => some (insVredmin (s.vcfg l) a q, false)
  | .vredmax _ a q => some (insVredmax (s.vcfg l) a q, false)
  | .vfredadd _ a q => some (insVfredadd (s.vcfg l) a q, false)
  | .pand _ pd pa pb => some (insPand (s.vcfg l) pd pa pb, false)
  | .por _ pd pa pb => some (insPor (s.vcfg l) pd pa pb, false)
  | .pxor _ pd pa pb => some (insPxor (s.vcfg l) pd pa pb, false)
  | .pnot _ pd pa => some (insPnot (s.vcfg l) pd pa, false)
  | .pall _ pn => some (insPall (s.vcfg l) pn, false)
  | .prd _ pn => some (insPrd (s.vcfg l) pn, false)
  | .pwr _ pn => some (insPwr (s.vcfg l) pn, false)
  | .pcnt _ pn => some (insPcnt (s.vcfg l) pn, false)
  | .vwhile _ pn => some (insVwhile (s.vcfg l) pn, false)
  | .rep _ _ _ => some (⟨{ insNop.op with illegal := true }, insNop.act⟩, false)
  | _ => none

/-- An atomic that waits for its release completes as an iteration of the `REP` of `len` bytes (R540). -/
def Blk.repAtomic (b : Blk) (l len : Nat) : Blk :=
  match (b.eng l).atomic with
  | some a => b.setEng l { b.eng l with atomic := some { a with rep := len } }
  | none => b

/-- At most `m` iterations. -/
def Blk.repGo (b : Blk) (l : Nat) (i : Ins) (len pl : Nat) : Nat → Blk
  | 0 => b.held l
  | m + 1 =>
    match b.runOp l i.op i.act with
    | .stop b => b.atPoint l
    | .stay b => (b.repAtomic l len).held l
    | .pause b => b.held l
    | .fin b _ _ =>
      let z := b.iterate l i.op len pl
      if !z.2 then z.1
      else if m = 0 || z.1.breaks l then z.1.atPoint l else z.1.repGo l i len pl m

/-- The base count of a `REP` of an instruction of `base` steps with `n` iterations before it (R124). -/
def repBase (base n : Nat) : Nat := 1 + n * base

/-- `REP` on engine `l`, at most `n` iterations, one at least: its own step, then the iterations; its whole base count goes into the count of
R160. (DEDUCED, log 41). (DEDUCED, log 32). -/
def Blk.rep (b : Blk) (l n : Nat) (i : Ins) (refused : Bool) : Blk :=
  let len := i.op.len + 1
  if b.canIssue l && (b.eng l).waitM.isNone then
    let going := (b.eng l).mid
    let base := repBase i.op.base (b.task l (b.eng l).cur).lc.toNat
    match b.begin l { i.op with len := len, base := base } with
    | .error b => b
    | .ok b =>
      let b := b.holdArea l
      let pl := b.pl l
      let pending := (b.eng l).arith.isSome
      if i.op.illegal || b.badBytes l then (b.raise l ⟨0x01, 0, b.infoBytes l, 0⟩).atPoint l
      else if refused then (b.raise l ⟨0x10, 0, b.infoBytes l, 0⟩).atPoint l
      else if (b.task l (b.eng l).cur).lc = 0 then b.retire l { len := len } pl pending none none
      else if going then b.repGo l i len pl (Nat.max 1 n)
      else ((b.countBase l base pending).spend l 1).repGo l i len pl (Nat.max 1 n)
  else b

/-- `REP` (R124 to R126); a prefix of no instruction is no command of the engine. (DESIGN CHOICE, log 21). -/
def execRep (e : Nat) (n : Nat) (body : Instr) (s : State) : Host.Outcome State Fault Refusal :=
  let l := s.blk.lead e
  match s.blk.repBody l body with
  | some (i, refused) => s.done (s.blk.rep l n i refused)
  | none => s.done s.blk

end Sys2Proof.Machine
end

