-- ==== Sys2Proof/Machine/Dispatch.lean ====
section
/-! DEFINITION. One arm for each command: a direct call of its meaning. -/
namespace Sys2Proof.Machine

def exec (i : Instr) (s : State) : Host.Outcome State Fault Refusal :=
  match i with
  | .nop e => Sys2Proof.Machine.execNop e s
  | .dup e => Sys2Proof.Machine.execDup e s
  | .drop e => Sys2Proof.Machine.execDrop e s
  | .swap e => Sys2Proof.Machine.execSwap e s
  | .over e => Sys2Proof.Machine.execOver e s
  | .rot e => Sys2Proof.Machine.execRot e s
  | .nip e => Sys2Proof.Machine.execNip e s
  | .tuck e => Sys2Proof.Machine.execTuck e s
  | .toR e => Sys2Proof.Machine.execToR e s
  | .rFrom e => Sys2Proof.Machine.execRFrom e s
  | .rFetch e => Sys2Proof.Machine.execRFetch e s
  | .rdrop e => Sys2Proof.Machine.execRdrop e s
  | .twoDup e => Sys2Proof.Machine.execTwoDup e s
  | .twoDrop e => Sys2Proof.Machine.execTwoDrop e s
  | .twoSwap e => Sys2Proof.Machine.execTwoSwap e s
  | .twoOver e => Sys2Proof.Machine.execTwoOver e s
  | .add e w => Sys2Proof.Machine.execAdd e w s
  | .sub e w => Sys2Proof.Machine.execSub e w s
  | .and e w => Sys2Proof.Machine.execAnd e w s
  | .or e w => Sys2Proof.Machine.execOr e w s
  | .xor e w => Sys2Proof.Machine.execXor e w s
  | .not e w => Sys2Proof.Machine.execNot e w s
  | .neg e w => Sys2Proof.Machine.execNeg e w s
  | .abs e w => Sys2Proof.Machine.execAbs e w s
  | .shl e w => Sys2Proof.Machine.execShl e w s
  | .shr e w => Sys2Proof.Machine.execShr e w s
  | .sar e w => Sys2Proof.Machine.execSar e w s
  | .rol e w => Sys2Proof.Machine.execRol e w s
  | .ror e w => Sys2Proof.Machine.execRor e w s
  | .mul e w => Sys2Proof.Machine.execMul e w s
  | .mulh e w => Sys2Proof.Machine.execMulh e w s
  | .mulhu e w => Sys2Proof.Machine.execMulhu e w s
  | .div e w => Sys2Proof.Machine.execDiv e w s
  | .divu e w => Sys2Proof.Machine.execDivu e w s
  | .rem e w => Sys2Proof.Machine.execRem e w s
  | .remu e w => Sys2Proof.Machine.execRemu e w s
  | .divrem e w => Sys2Proof.Machine.execDivrem e w s
  | .adds e w => Sys2Proof.Machine.execAdds e w s
  | .subs e w => Sys2Proof.Machine.execSubs e w s
  | .min e w => Sys2Proof.Machine.execMin e w s
  | .max e w => Sys2Proof.Machine.execMax e w s
  | .minu e w => Sys2Proof.Machine.execMinu e w s
  | .maxu e w => Sys2Proof.Machine.execMaxu e w s
  | .clz e w => Sys2Proof.Machine.execClz e w s
  | .ctz e w => Sys2Proof.Machine.execCtz e w s
  | .popc e w => Sys2Proof.Machine.execPopc e w s
  | .sext e w => Sys2Proof.Machine.execSext e w s
  | .zext e w => Sys2Proof.Machine.execZext e w s
  | .mulq15 e => Sys2Proof.Machine.execMulq15 e s
  | .mulq31 e => Sys2Proof.Machine.execMulq31 e s
  | .eq e w => Sys2Proof.Machine.execEq e w s
  | .ne e w => Sys2Proof.Machine.execNe e w s
  | .lt e w => Sys2Proof.Machine.execLt e w s
  | .le e w => Sys2Proof.Machine.execLe e w s
  | .ltu e w => Sys2Proof.Machine.execLtu e w s
  | .leu e w => Sys2Proof.Machine.execLeu e w s
  | .sel e => Sys2Proof.Machine.execSel e s
  | .clamp e w => Sys2Proof.Machine.execClamp e w s
  | .ld e w => Sys2Proof.Machine.execLd e w s
  | .lds e w => Sys2Proof.Machine.execLds e w s
  | .st e w => Sys2Proof.Machine.execSt e w s
  | .fence e => Sys2Proof.Machine.execFence e s
  | .cas e w => Sys2Proof.Machine.execCas e w s
  | .swapm e w => Sys2Proof.Machine.execSwapm e w s
  | .addm e w => Sys2Proof.Machine.execAddm e w s
  | .ret e => Sys2Proof.Machine.execRet e s
  | .jmps e => Sys2Proof.Machine.execJmps e s
  | .calls e => Sys2Proof.Machine.execCalls e s
  | .breakpt e => Sys2Proof.Machine.execBreakpt e s
  | .duty e => Sys2Proof.Machine.execDuty e s
  | .movb e n => Sys2Proof.Machine.execMovb e n s
  | .lit8 e s8 lxh => Sys2Proof.Machine.execLit8 e s8 lxh s
  | .pick e n8 => Sys2Proof.Machine.execPick e n8 s
  | .addi e w s8 => Sys2Proof.Machine.execAddi e w s8 s
  | .shli e w u8 => Sys2Proof.Machine.execShli e w u8 s
  | .shri e w u8 => Sys2Proof.Machine.execShri e w u8 s
  | .sari e w u8 => Sys2Proof.Machine.execSari e w u8 s
  | .roli e w u8 => Sys2Proof.Machine.execRoli e w u8 s
  | .syscall e u8 => Sys2Proof.Machine.execSyscall e u8 s
  | .br e size off => Sys2Proof.Machine.execBr e size off s
  | .bz e size off => Sys2Proof.Machine.execBz e size off s
  | .bnz e size off => Sys2Proof.Machine.execBnz e size off s
  | .lit16 e s16 lxh => Sys2Proof.Machine.execLit16 e s16 lxh s
  | .lit32 e val lx lxh => Sys2Proof.Machine.execLit32 e val lx lxh s
  | .call e size off => Sys2Proof.Machine.execCall e size off s
  | .crd e idx => Sys2Proof.Machine.execCrd e idx s
  | .cwr e idx => Sys2Proof.Machine.execCwr e idx s
  | .ldo e w s16 => Sys2Proof.Machine.execLdo e w s16 s
  | .ldos e w s16 => Sys2Proof.Machine.execLdos e w s16 s
  | .sto e w s16 => Sys2Proof.Machine.execSto e w s16 s
  | .rep e n body => Sys2Proof.Machine.execRep e n body s
  | .sync e => Sys2Proof.Machine.execSync e s
  | .syncI e => Sys2Proof.Machine.execSyncI e s
  | .sret e => Sys2Proof.Machine.execSret e s
  | .mret e => Sys2Proof.Machine.execMret e s
  | .evdone e => Sys2Proof.Machine.execEvdone e s
  | .wfe e => Sys2Proof.Machine.execWfe e s
  | .wfex e => Sys2Proof.Machine.execWfex e s
  | .waitt e => Sys2Proof.Machine.execWaitt e s
  | .sev e => Sys2Proof.Machine.execSev e s
  | .fadd e w => Sys2Proof.Machine.execFadd e w s
  | .fsub e w => Sys2Proof.Machine.execFsub e w s
  | .fmul e w => Sys2Proof.Machine.execFmul e w s
  | .fdiv e w => Sys2Proof.Machine.execFdiv e w s
  | .fsqrt e w => Sys2Proof.Machine.execFsqrt e w s
  | .fma e w => Sys2Proof.Machine.execFma e w s
  | .fmin e w => Sys2Proof.Machine.execFmin e w s
  | .fmax e w => Sys2Proof.Machine.execFmax e w s
  | .fneg e w => Sys2Proof.Machine.execFneg e w s
  | .fabs e w => Sys2Proof.Machine.execFabs e w s
  | .feq e w => Sys2Proof.Machine.execFeq e w s
  | .flt e w => Sys2Proof.Machine.execFlt e w s
  | .fle e w => Sys2Proof.Machine.execFle e w s
  | .fcvt e fmt => Sys2Proof.Machine.execFcvt e fmt s
  | .fclass e w => Sys2Proof.Machine.execFclass e w s
  | .vld e v q => Sys2Proof.Machine.execVld e v q s
  | .vldp e v q => Sys2Proof.Machine.execVldp e v q s
  | .vst e v q => Sys2Proof.Machine.execVst e v q s
  | .vstp e v q => Sys2Proof.Machine.execVstp e v q s
  | .vld2 e v q n => Sys2Proof.Machine.execVld2 e v q n s
  | .vld3 e v q n => Sys2Proof.Machine.execVld3 e v q n s
  | .vld4 e v q n => Sys2Proof.Machine.execVld4 e v q n s
  | .vgather e v q ix n => Sys2Proof.Machine.execVgather e v q ix n s
  | .vscatter e v q ix n => Sys2Proof.Machine.execVscatter e v q ix n s
  | .vadd e d a b q => Sys2Proof.Machine.execVadd e d a b q s
  | .vsub e d a b q => Sys2Proof.Machine.execVsub e d a b q s
  | .vand e d a b q => Sys2Proof.Machine.execVand e d a b q s
  | .vor e d a b q => Sys2Proof.Machine.execVor e d a b q s
  | .vxor e d a b q => Sys2Proof.Machine.execVxor e d a b q s
  | .vnot e d a q => Sys2Proof.Machine.execVnot e d a q s
  | .vneg e d a q => Sys2Proof.Machine.execVneg e d a q s
  | .vabs e d a q => Sys2Proof.Machine.execVabs e d a q s
  | .vmin e d a b q => Sys2Proof.Machine.execVmin e d a b q s
  | .vmax e d a b q => Sys2Proof.Machine.execVmax e d a b q s
  | .vminu e d a b q => Sys2Proof.Machine.execVminu e d a b q s
  | .vmaxu e d a b q => Sys2Proof.Machine.execVmaxu e d a b q s
  | .vadds e d a b q => Sys2Proof.Machine.execVadds e d a b q s
  | .vsubs e d a b q => Sys2Proof.Machine.execVsubs e d a b q s
  | .vshl e d a b q => Sys2Proof.Machine.execVshl e d a b q s
  | .vshr e d a b q => Sys2Proof.Machine.execVshr e d a b q s
  | .vsar e d a b q => Sys2Proof.Machine.execVsar e d a b q s
  | .vshli e d a q sh => Sys2Proof.Machine.execVshli e d a q sh s
  | .vshri e d a q sh => Sys2Proof.Machine.execVshri e d a q sh s
  | .vsari e d a q sh => Sys2Proof.Machine.execVsari e d a q sh s
  | .vmov e d a q => Sys2Proof.Machine.execVmov e d a q s
  | .vsel e d a b q => Sys2Proof.Machine.execVsel e d a b q s
  | .vmul e d a b q => Sys2Proof.Machine.execVmul e d a b q s
  | .vmulh e d a b q => Sys2Proof.Machine.execVmulh e d a b q s
  | .vmulq e d a b q => Sys2Proof.Machine.execVmulq e d a b q s
  | .vmac e d a b q => Sys2Proof.Machine.execVmac e d a b q s
  | .vfadd e d a b q => Sys2Proof.Machine.execVfadd e d a b q s
  | .vfsub e d a b q => Sys2Proof.Machine.execVfsub e d a b q s
  | .vfmul e d a b q => Sys2Proof.Machine.execVfmul e d a b q s
  | .vfma e d a b q => Sys2Proof.Machine.execVfma e d a b q s
  | .vfnma e d a b q => Sys2Proof.Machine.execVfnma e d a b q s
  | .vfdiv e d a b q => Sys2Proof.Machine.execVfdiv e d a b q s
  | .vfsqrt e d a q => Sys2Proof.Machine.execVfsqrt e d a q s
  | .vfmin e d a b q => Sys2Proof.Machine.execVfmin e d a b q s
  | .vfmax e d a b q => Sys2Proof.Machine.execVfmax e d a b q s
  | .vfneg e d a q => Sys2Proof.Machine.execVfneg e d a q s
  | .vfabs e d a q => Sys2Proof.Machine.execVfabs e d a q s
  | .vfcvti e d a q => Sys2Proof.Machine.execVfcvti e d a q s
  | .vfcvtf e d a q => Sys2Proof.Machine.execVfcvtf e d a q s
  | .vcmpeq e a b pd q => Sys2Proof.Machine.execVcmpeq e a b pd q s
  | .vcmplt e a b pd q => Sys2Proof.Machine.execVcmplt e a b pd q s
  | .vcmple e a b pd q => Sys2Proof.Machine.execVcmple e a b pd q s
  | .vcmpltu e a b pd q => Sys2Proof.Machine.execVcmpltu e a b pd q s
  | .vfcmpeq e a b pd q => Sys2Proof.Machine.execVfcmpeq e a b pd q s
  | .vfcmplt e a b pd q => Sys2Proof.Machine.execVfcmplt e a b pd q s
  | .vfcmple e a b pd q => Sys2Proof.Machine.execVfcmple e a b pd q s
  | .vsplat e v q => Sys2Proof.Machine.execVsplat e v q s
  | .vext e v => Sys2Proof.Machine.execVext e v s
  | .vins e v => Sys2Proof.Machine.execVins e v s
  | .vperm e d a b q => Sys2Proof.Machine.execVperm e d a b q s
  | .vredadd e a q => Sys2Proof.Machine.execVredadd e a q s
  | .vredmin e a q => Sys2Proof.Machine.execVredmin e a q s
  | .vredmax e a q => Sys2Proof.Machine.execVredmax e a q s
  | .vfredadd e a q => Sys2Proof.Machine.execVfredadd e a q s
  | .pand e pd pa pb => Sys2Proof.Machine.execPand e pd pa pb s
  | .por e pd pa pb => Sys2Proof.Machine.execPor e pd pa pb s
  | .pxor e pd pa pb => Sys2Proof.Machine.execPxor e pd pa pb s
  | .pnot e pd pa => Sys2Proof.Machine.execPnot e pd pa s
  | .pall e pn => Sys2Proof.Machine.execPall e pn s
  | .prd e pn => Sys2Proof.Machine.execPrd e pn s
  | .pwr e pn => Sys2Proof.Machine.execPwr e pn s
  | .pcnt e pn => Sys2Proof.Machine.execPcnt e pn s
  | .vwhile e pn => Sys2Proof.Machine.execVwhile e pn s
  | .arith e => Sys2Proof.Machine.execArith e s
  | .dispatch e => Sys2Proof.Machine.execDispatch e s
  | .timedWake e t => Sys2Proof.Machine.execTimedWake e t s
  | .bypassAccept port => Sys2Proof.Machine.execBypassAccept port s
  | .evtSrc k level => Sys2Proof.Machine.execEvtSrc k level s
  | .routerSelection e => Sys2Proof.Machine.execRouterSelection e s
  | .stormWindow win => Sys2Proof.Machine.execStormWindow win s
  | .pendSet m val => Sys2Proof.Machine.execPendSet m val s
  | .pendClr m val => Sys2Proof.Machine.execPendClr m val s
  | .quarRelease m j val => Sys2Proof.Machine.execQuarRelease m j val s
  | .taskStart m e => Sys2Proof.Machine.execTaskStart m e s
  | .taskStop m e => Sys2Proof.Machine.execTaskStop m e s
  | .taskHalt m e => Sys2Proof.Machine.execTaskHalt m e s
  | .taskResume m e => Sys2Proof.Machine.execTaskResume m e s
  | .ctxRead m e => Sys2Proof.Machine.execCtxRead m e s
  | .ctxWrite m e => Sys2Proof.Machine.execCtxWrite m e s
  | .lvlmap m e j val => Sys2Proof.Machine.execLvlmap m e j val s
  | .bypmap m e j val => Sys2Proof.Machine.execBypmap m e j val s
  | .tbCtrlLoad m => Sys2Proof.Machine.execTbCtrlLoad m s
  | .offsetAdj m val => Sys2Proof.Machine.execOffsetAdj m val s
  | .rateAdj m val => Sys2Proof.Machine.execRateAdj m val s
  | .incWrite m frac val => Sys2Proof.Machine.execIncWrite m frac val s
  | .timeLo m => Sys2Proof.Machine.execTimeLo m s
  | .stepmeterWindow rate pace => Sys2Proof.Machine.execStepmeterWindow rate pace s
  | .tbPps => Sys2Proof.Machine.execTbPps s
  | .tbClkLoss => Sys2Proof.Machine.execTbClkLoss s
  | .modeReqConfigure m => Sys2Proof.Machine.execModeReqConfigure m s
  | .modeReqRun m => Sys2Proof.Machine.execModeReqRun m s
  | .modeReqSafeHold m => Sys2Proof.Machine.execModeReqSafeHold m s
  | .nodeId m val => Sys2Proof.Machine.execNodeId m val s
  | .supplyRemoved => Sys2Proof.Machine.execSupplyRemoved s
  | .pin x => Sys2Proof.Machine.execPin x s
  | .supply core memOk => Sys2Proof.Machine.execSupply core memOk s
  | .zeroize => Sys2Proof.Machine.execZeroize s
  | .resetRelease => Sys2Proof.Machine.execResetRelease s
  | .fuseRead word data err => Sys2Proof.Machine.execFuseRead word data err s
  | .bootBegin => Sys2Proof.Machine.execBootBegin s
  | .load => Sys2Proof.Machine.execLoad s
  | .badMsg => Sys2Proof.Machine.execBadMsg s
  | .candidateResult => Sys2Proof.Machine.execCandidateResult s
  | .bootTmo => Sys2Proof.Machine.execBootTmo s
  | .fuseProg m val => Sys2Proof.Machine.execFuseProg m val s
  | .lcAdv m val => Sys2Proof.Machine.execLcAdv m val s
  | .arbSet m val => Sys2Proof.Machine.execArbSet m val s
  | .fuseProgramDone err => Sys2Proof.Machine.execFuseProgramDone err s
  | .rstReq m val => Sys2Proof.Machine.execRstReq m val s
  | .keyWrite m => Sys2Proof.Machine.execKeyWrite m s
  | .keyErase m => Sys2Proof.Machine.execKeyErase m s
  | .keyLock m => Sys2Proof.Machine.execKeyLock m s
  | .derive m => Sys2Proof.Machine.execDerive m s
  | .eraseAll m => Sys2Proof.Machine.execEraseAll m s
  | .keyCmdDone => Sys2Proof.Machine.execKeyCmdDone s
  | .hostRead addr beats tag crc => Sys2Proof.Machine.execHostRead addr beats tag crc s
  | .hostWrite addr beats tag crc => Sys2Proof.Machine.execHostWrite addr beats tag crc s
  | .hpPortRst => Sys2Proof.Machine.execHpPortRst s
  | .hpHold => Sys2Proof.Machine.execHpHold s
  | .hcmdNop arg => Sys2Proof.Machine.execHcmdNop arg s
  | .hcmdStart svc arg => Sys2Proof.Machine.execHcmdStart svc arg s
  | .hcmdStop svc arg => Sys2Proof.Machine.execHcmdStop svc arg s
  | .query svc arg => Sys2Proof.Machine.execQuery svc arg s
  | .hcmdSafeHold arg => Sys2Proof.Machine.execHcmdSafeHold arg s
  | .hcmdSleep arg => Sys2Proof.Machine.execHcmdSleep arg s
  | .hcmdTakeover arg => Sys2Proof.Machine.execHcmdTakeover arg s
  | .hcmdReset arg => Sys2Proof.Machine.execHcmdReset arg s
  | .hcmdDone => Sys2Proof.Machine.execHcmdDone s
  | .hresDoneClear => Sys2Proof.Machine.execHresDoneClear s
  | .mbInpost k len => Sys2Proof.Machine.execMbInpost k len s
  | .mbInFree m k => Sys2Proof.Machine.execMbInFree m k s
  | .mbOutpost m k len => Sys2Proof.Machine.execMbOutpost m k len s
  | .mbOutTake k => Sys2Proof.Machine.execMbOutTake k s
  | .sleepCmd m val => Sys2Proof.Machine.execSleepCmd m val s
  | .sleepCommit => Sys2Proof.Machine.execSleepCommit s
  | .entryTmo => Sys2Proof.Machine.execEntryTmo s
  | .wakeEvent kind => Sys2Proof.Machine.execWakeEvent kind s
  | .wakeBanksOn => Sys2Proof.Machine.execWakeBanksOn s
  | .wakePoint ns => Sys2Proof.Machine.execWakePoint ns s
  | .pwrVack level => Sys2Proof.Machine.execPwrVack level s
  | .pwrDroop code => Sys2Proof.Machine.execPwrDroop code s
  | .droopHold k => Sys2Proof.Machine.execDroopHold k s
  | .pwrCap cap => Sys2Proof.Machine.execPwrCap cap s
  | .tjWarn level => Sys2Proof.Machine.execTjWarn level s
  | .tjCrit level => Sys2Proof.Machine.execTjCrit level s
  | .bankPwr m j val => Sys2Proof.Machine.execBankPwr m j val s
  | .bankTransitionStart bank => Sys2Proof.Machine.execBankTransitionStart bank s
  | .pwrDone bank => Sys2Proof.Machine.execPwrDone bank s
  | .eccWriteBack addr => Sys2Proof.Machine.execEccWriteBack addr s
  | .spareCopyDone k => Sys2Proof.Machine.execSpareCopyDone k s
  | .collideValidClear m val => Sys2Proof.Machine.execCollideValidClear m val s
  | .periodStart g late => Sys2Proof.Machine.execPeriodStart g late s
  | .periodTop g late => Sys2Proof.Machine.execPeriodTop g late s
  | .switchingEdge leg rise => Sys2Proof.Machine.execSwitchingEdge leg rise s
  | .deadTime leg high => Sys2Proof.Machine.execDeadTime leg high s
  | .trig g => Sys2Proof.Machine.execTrig g s
  | .wdog g => Sys2Proof.Machine.execWdog g s
  | .clk => Sys2Proof.Machine.execClk s
  | .drvRefclkReturn => Sys2Proof.Machine.execDrvRefclkReturn s
  | .gctrl m g val => Sys2Proof.Machine.execGctrl m g val s
  | .gstatClear m g val => Sys2Proof.Machine.execGstatClear m g val s
  | .trip k => Sys2Proof.Machine.execTrip k s
  | .tlatchClear m val => Sys2Proof.Machine.execTlatchClear m val s
  | .sampleTransfer port data tag rise => Sys2Proof.Machine.execSampleTransfer port data tag rise s
  | .samplePortStuck port => Sys2Proof.Machine.execSamplePortStuck port s
  | .encEdge k a b => Sys2Proof.Machine.execEncEdge k a b s
  | .encIndex k => Sys2Proof.Machine.execEncIndex k s
  | .captureEdge c rise => Sys2Proof.Machine.execCaptureEdge c rise s
  | .pop m c => Sys2Proof.Machine.execPop m c s
  | .clrOvf m c => Sys2Proof.Machine.execClrOvf m c s
  | .channelStart m ch => Sys2Proof.Machine.execChannelStart m ch s
  | .channelStop m ch => Sys2Proof.Machine.execChannelStop m ch s
  | .channelResume m ch => Sys2Proof.Machine.execChannelResume m ch s
  | .append m ch val => Sys2Proof.Machine.execAppend m ch val s
  | .descriptorLoad ch => Sys2Proof.Machine.execDescriptorLoad ch s
  | .moverBurst x => Sys2Proof.Machine.execMoverBurst x s
  | .linkRead ch => Sys2Proof.Machine.execLinkRead ch s
  | .outputRelease p cmp => Sys2Proof.Machine.execOutputRelease p cmp s
  | .compareWatchdog p => Sys2Proof.Machine.execCompareWatchdog p s
  | .rollbackDone p => Sys2Proof.Machine.execRollbackDone p s
  | .resumed p ns => Sys2Proof.Machine.execResumed p ns s
  | .milestonePoint p => Sys2Proof.Machine.execMilestonePoint p s
  | .milestoneCommit p agree => Sys2Proof.Machine.execMilestoneCommit p agree s
  | .take m p => Sys2Proof.Machine.execTake m p s
  | .mcfg m val => Sys2Proof.Machine.execMcfg m val s
  | .hello role ver digest => Sys2Proof.Machine.execHello role ver digest s
  | .input p entry => Sys2Proof.Machine.execInput p entry s
  | .release p entry => Sys2Proof.Machine.execRelease p entry s
  | .horizon p spc => Sys2Proof.Machine.execHorizon p spc s
  | .msmark p spc count tb digest => Sys2Proof.Machine.execMsmark p spc count tb digest s
  | .line p addr data => Sys2Proof.Machine.execLine p addr data s
  | .image p off data => Sys2Proof.Machine.execImage p off data s
  | .time tb => Sys2Proof.Machine.execTime tb s
  | .ack p spc count => Sys2Proof.Machine.execAck p spc count s
  | .resync p => Sys2Proof.Machine.execResync p s
  | .horizonSend p => Sys2Proof.Machine.execHorizonSend p s
  | .timeSend => Sys2Proof.Machine.execTimeSend s
  | .ackSend => Sys2Proof.Machine.execAckSend s
  | .heartbeat => Sys2Proof.Machine.execHeartbeat s
  | .mirFail => Sys2Proof.Machine.execMirFail s
  | .heartbeatLoss frames => Sys2Proof.Machine.execHeartbeatLoss frames s
  | .takeover m => Sys2Proof.Machine.execTakeover m s
  | .mcmdResync m => Sys2Proof.Machine.execMcmdResync m s
  | .pairLive p ns => Sys2Proof.Machine.execPairLive p ns s
  | .deposed => Sys2Proof.Machine.execDeposed s
  | .mirrorFrame lane good frame => Sys2Proof.Machine.execMirrorFrame lane good frame s
  | .frameClose lane => Sys2Proof.Machine.execFrameClose lane s
  | .ackOnly lane => Sys2Proof.Machine.execAckOnly lane s
  | .mirrorRetransmit fseq lane => Sys2Proof.Machine.execMirrorRetransmit fseq lane s
  | .lctrl m k val => Sys2Proof.Machine.execLctrl m k val s
  | .retire m k => Sys2Proof.Machine.execRetire m k s
  | .relink m k => Sys2Proof.Machine.execRelink m k s
  | .phyResetDone k => Sys2Proof.Machine.execPhyResetDone k s
  | .txRdy k => Sys2Proof.Machine.execTxRdy k s
  | .train k stat => Sys2Proof.Machine.execTrain k stat s
  | .amReceived k sub x => Sys2Proof.Machine.execAmReceived k sub x s
  | .attemptTimeout k => Sys2Proof.Machine.execAttemptTimeout k s
  | .sigDetLoss k => Sys2Proof.Machine.execSigDetLoss k s
  | .phyStatusLow k rxLock => Sys2Proof.Machine.execPhyStatusLow k rxLock s
  | .codewordReceived k data parity mac => Sys2Proof.Machine.execCodewordReceived k data parity mac s
  | .phyIrq k level => Sys2Proof.Machine.execPhyIrq k level s
  | .frameReceive port ts err frame => Sys2Proof.Machine.execFrameReceive port ts err frame s
  | .frameTransmit port q ts => Sys2Proof.Machine.execFrameTransmit port q ts s
  | .cpuTxpost m q val => Sys2Proof.Machine.execCpuTxpost m q val s
  | .fdbRead m idx => Sys2Proof.Machine.execFdbRead m idx s
  | .fdbWrite m idx => Sys2Proof.Machine.execFdbWrite m idx s
  | .flush m => Sys2Proof.Machine.execFlush m s
  | .vlanRead m vid => Sys2Proof.Machine.execVlanRead m vid s
  | .vlanWrite m vid => Sys2Proof.Machine.execVlanWrite m vid s
  | .strmRead m => Sys2Proof.Machine.execStrmRead m s
  | .strmWrite m => Sys2Proof.Machine.execStrmWrite m s
  | .saRead m => Sys2Proof.Machine.execSaRead m s
  | .saWrite m => Sys2Proof.Machine.execSaWrite m s
  | .fdbAging idx => Sys2Proof.Machine.execFdbAging idx s
  | .gateInterval port => Sys2Proof.Machine.execGateInterval port s
  | .oper m port val => Sys2Proof.Machine.execOper m port val s
  | .gateListSwap port => Sys2Proof.Machine.execGateListSwap port s
  | .syncSend port => Sys2Proof.Machine.execSyncSend port s
  | .doipAnnouncement => Sys2Proof.Machine.execDoipAnnouncement s
  | .ecfg m n val => Sys2Proof.Machine.execEcfg m n val s
  | .edgeLink n level => Sys2Proof.Machine.execEdgeLink n level s
  | .edgePortLost n => Sys2Proof.Machine.execEdgePortLost n s
  | .fabricRead m e width len => Sys2Proof.Machine.execFabricRead m e width len s
  | .fabricWrite m e width len => Sys2Proof.Machine.execFabricWrite m e width len s
  | .fabricCas m e width len => Sys2Proof.Machine.execFabricCas m e width len s
  | .fabricSwap m e width len => Sys2Proof.Machine.execFabricSwap m e width len s
  | .fabricAdd m e width len => Sys2Proof.Machine.execFabricAdd m e width len s
  | .fabricDoorbell m e width len => Sys2Proof.Machine.execFabricDoorbell m e width len s
  | .tallothRead src hdr => Sys2Proof.Machine.execTallothRead src hdr s
  | .tallothWrite src hdr => Sys2Proof.Machine.execTallothWrite src hdr s
  | .tallothCas src hdr => Sys2Proof.Machine.execTallothCas src hdr s
  | .tallothSwap src hdr => Sys2Proof.Machine.execTallothSwap src hdr s
  | .tallothAdd src hdr => Sys2Proof.Machine.execTallothAdd src hdr s
  | .doorbell src hdr => Sys2Proof.Machine.execDoorbell src hdr s
  | .readResp src hdr => Sys2Proof.Machine.execReadResp src hdr s
  | .complete src hdr => Sys2Proof.Machine.execComplete src hdr s
  | .atomicResp src hdr => Sys2Proof.Machine.execAtomicResp src hdr s
  | .tallothAck src ack start => Sys2Proof.Machine.execTallothAck src ack start s
  | .tallothNak src ack => Sys2Proof.Machine.execTallothNak src ack s
  | .fabRto peer => Sys2Proof.Machine.execFabRto peer s
  | .fabricAckSend peer => Sys2Proof.Machine.execFabricAckSend peer s
  | .dbFifo m => Sys2Proof.Machine.execDbFifo m s
  | .peerDownClear m node => Sys2Proof.Machine.execPeerDownClear m node s
  | .mpCtrl m val => Sys2Proof.Machine.execMpCtrl m val s
  | .mpRequest c => Sys2Proof.Machine.execMpRequest c s
  | .creditReturn c write => Sys2Proof.Machine.execCreditReturn c write s
  | .readResponse c tag sts crc data => Sys2Proof.Machine.execReadResponse c tag sts crc data s
  | .writeAck c tag sts => Sys2Proof.Machine.execWriteAck c tag sts s
  | .mpTmo c tag => Sys2Proof.Machine.execMpTmo c tag s
  | .ctlErr c => Sys2Proof.Machine.execCtlErr c s
  | .ctlRdyLoss c => Sys2Proof.Machine.execCtlRdyLoss c s
  | .idcode => Sys2Proof.Machine.execIdcode s
  | .dbgacc addr write data => Sys2Proof.Machine.execDbgacc addr write data s
  | .dbgstat => Sys2Proof.Machine.execDbgstat s
  | .bypass => Sys2Proof.Machine.execBypass s
  | .debugAccessDone => Sys2Proof.Machine.execDebugAccessDone s
  | .haltReq m val => Sys2Proof.Machine.execHaltReq m val s
  | .resumeReq m val => Sys2Proof.Machine.execResumeReq m val s
  | .stepReq m val => Sys2Proof.Machine.execStepReq m val s
  | .reform m p => Sys2Proof.Machine.execReform m p s
  | .reformDone p => Sys2Proof.Machine.execReformDone p s
  | .debugReset val => Sys2Proof.Machine.execDebugReset val s
  | .dbgHaltI => Sys2Proof.Machine.execDbgHaltI s
  | .dbgResumeI => Sys2Proof.Machine.execDbgResumeI s
  | .dbgSnapI => Sys2Proof.Machine.execDbgSnapI s
  | .halt e => Sys2Proof.Machine.execHalt e s
  | .traceWrite => Sys2Proof.Machine.execTraceWrite s
  | .snap m u => Sys2Proof.Machine.execSnap m u s
  | .freeze m u on => Sys2Proof.Machine.execFreeze m u on s
  | .clear m u => Sys2Proof.Machine.execClear m u s
  | .pmGsnap m val => Sys2Proof.Machine.execPmGsnap m val s
  | .testMode => Sys2Proof.Machine.execTestMode s
  | .testModeExit => Sys2Proof.Machine.execTestModeExit s
  | .mbistGo sel => Sys2Proof.Machine.execMbistGo sel s
  | .lock m page key => Sys2Proof.Machine.execLock m page key s
  | .unlock m page key => Sys2Proof.Machine.execUnlock m page key s
  | .cntClr m page => Sys2Proof.Machine.execCntClr m page s
  | .setAlias m page off val => Sys2Proof.Machine.execSetAlias m page off val s
  | .clearAlias m page off val => Sys2Proof.Machine.execClearAlias m page off val s
  | .rcRead m page off => Sys2Proof.Machine.execRcRead m page off s
  | .registerWrite m page off val => Sys2Proof.Machine.execRegisterWrite m page off val s
  | .supplyValid => Sys2Proof.Machine.execSupplyValid s
  | .tbRefclkEdge => Sys2Proof.Machine.execTbRefclkEdge s
  | .tripDeassert k => Sys2Proof.Machine.execTripDeassert k s
  | .signalPresent x => Sys2Proof.Machine.execSignalPresent x s
  | .amLockLost k sub => Sys2Proof.Machine.execAmLockLost k sub s
  | .hpPortRstRelease => Sys2Proof.Machine.execHpPortRstRelease s
  | .noMirrorFrame => Sys2Proof.Machine.execNoMirrorFrame s
  | .recoveryResetTimeout k => Sys2Proof.Machine.execRecoveryResetTimeout k s
  | .mbistDone fail => Sys2Proof.Machine.execMbistDone fail s

end Sys2Proof.Machine
end

