-- ==== Sys2Proof/WellFormed.lean ====
section
/-! DEFINITION. Well-formed commands: every number names something the block has (R2, R194, R231, R248, R266, R277, R278, R285,
R313, R366, R376, R392, R426, R525). What an engine checks at decode (R94) is no part of it: an engine meets those forms and
raises `ILLEGAL_OP`. -/
namespace Sys2Proof

/-- A counter unit that exists (R493). -/
def CounterUnit.wf : CounterUnit → Bool
  | .engine e => decide (e < 16)
  | .mover => true
  | .switch => true

/-- Is the command well formed? -/
def Instr.wf : Instr → Bool
  | .nop e0 => decide (e0 < 16)
  | .dup e0 => decide (e0 < 16)
  | .drop e0 => decide (e0 < 16)
  | .swap e0 => decide (e0 < 16)
  | .over e0 => decide (e0 < 16)
  | .rot e0 => decide (e0 < 16)
  | .nip e0 => decide (e0 < 16)
  | .tuck e0 => decide (e0 < 16)
  | .toR e0 => decide (e0 < 16)
  | .rFrom e0 => decide (e0 < 16)
  | .rFetch e0 => decide (e0 < 16)
  | .rdrop e0 => decide (e0 < 16)
  | .twoDup e0 => decide (e0 < 16)
  | .twoDrop e0 => decide (e0 < 16)
  | .twoSwap e0 => decide (e0 < 16)
  | .twoOver e0 => decide (e0 < 16)
  | .add e0 _ => decide (e0 < 16)
  | .sub e0 _ => decide (e0 < 16)
  | .and e0 _ => decide (e0 < 16)
  | .or e0 _ => decide (e0 < 16)
  | .xor e0 _ => decide (e0 < 16)
  | .not e0 _ => decide (e0 < 16)
  | .neg e0 _ => decide (e0 < 16)
  | .abs e0 _ => decide (e0 < 16)
  | .shl e0 _ => decide (e0 < 16)
  | .shr e0 _ => decide (e0 < 16)
  | .sar e0 _ => decide (e0 < 16)
  | .rol e0 _ => decide (e0 < 16)
  | .ror e0 _ => decide (e0 < 16)
  | .mul e0 _ => decide (e0 < 16)
  | .mulh e0 _ => decide (e0 < 16)
  | .mulhu e0 _ => decide (e0 < 16)
  | .div e0 _ => decide (e0 < 16)
  | .divu e0 _ => decide (e0 < 16)
  | .rem e0 _ => decide (e0 < 16)
  | .remu e0 _ => decide (e0 < 16)
  | .divrem e0 _ => decide (e0 < 16)
  | .adds e0 _ => decide (e0 < 16)
  | .subs e0 _ => decide (e0 < 16)
  | .min e0 _ => decide (e0 < 16)
  | .max e0 _ => decide (e0 < 16)
  | .minu e0 _ => decide (e0 < 16)
  | .maxu e0 _ => decide (e0 < 16)
  | .clz e0 _ => decide (e0 < 16)
  | .ctz e0 _ => decide (e0 < 16)
  | .popc e0 _ => decide (e0 < 16)
  | .sext e0 _ => decide (e0 < 16)
  | .zext e0 _ => decide (e0 < 16)
  | .mulq15 e0 => decide (e0 < 16)
  | .mulq31 e0 => decide (e0 < 16)
  | .eq e0 _ => decide (e0 < 16)
  | .ne e0 _ => decide (e0 < 16)
  | .lt e0 _ => decide (e0 < 16)
  | .le e0 _ => decide (e0 < 16)
  | .ltu e0 _ => decide (e0 < 16)
  | .leu e0 _ => decide (e0 < 16)
  | .sel e0 => decide (e0 < 16)
  | .clamp e0 _ => decide (e0 < 16)
  | .ld e0 _ => decide (e0 < 16)
  | .lds e0 _ => decide (e0 < 16)
  | .st e0 _ => decide (e0 < 16)
  | .fence e0 => decide (e0 < 16)
  | .cas e0 _ => decide (e0 < 16)
  | .swapm e0 _ => decide (e0 < 16)
  | .addm e0 _ => decide (e0 < 16)
  | .ret e0 => decide (e0 < 16)
  | .jmps e0 => decide (e0 < 16)
  | .calls e0 => decide (e0 < 16)
  | .breakpt e0 => decide (e0 < 16)
  | .duty e0 => decide (e0 < 16)
  | .movb e0 _ => decide (e0 < 16)
  | .lit8 e0 _ _ => decide (e0 < 16)
  | .pick e0 _ => decide (e0 < 16)
  | .addi e0 _ _ => decide (e0 < 16)
  | .shli e0 _ _ => decide (e0 < 16)
  | .shri e0 _ _ => decide (e0 < 16)
  | .sari e0 _ _ => decide (e0 < 16)
  | .roli e0 _ _ => decide (e0 < 16)
  | .syscall e0 _ => decide (e0 < 16)
  | .br e0 _ _ => decide (e0 < 16)
  | .bz e0 _ _ => decide (e0 < 16)
  | .bnz e0 _ _ => decide (e0 < 16)
  | .lit16 e0 _ _ => decide (e0 < 16)
  | .lit32 e0 _ _ _ => decide (e0 < 16)
  | .call e0 _ _ => decide (e0 < 16)
  | .crd e0 _ => decide (e0 < 16)
  | .cwr e0 _ => decide (e0 < 16)
  | .ldo e0 _ _ => decide (e0 < 16)
  | .ldos e0 _ _ => decide (e0 < 16)
  | .sto e0 _ _ => decide (e0 < 16)
  | .rep e0 _ body0 => decide (e0 < 16) && decide (body0.ctorIdx < 187) && body0.wf
  | .sync e0 => decide (e0 < 16)
  | .syncI e0 => decide (e0 < 16)
  | .sret e0 => decide (e0 < 16)
  | .mret e0 => decide (e0 < 16)
  | .evdone e0 => decide (e0 < 16)
  | .wfe e0 => decide (e0 < 16)
  | .wfex e0 => decide (e0 < 16)
  | .waitt e0 => decide (e0 < 16)
  | .sev e0 => decide (e0 < 16)
  | .fadd e0 _ => decide (e0 < 16)
  | .fsub e0 _ => decide (e0 < 16)
  | .fmul e0 _ => decide (e0 < 16)
  | .fdiv e0 _ => decide (e0 < 16)
  | .fsqrt e0 _ => decide (e0 < 16)
  | .fma e0 _ => decide (e0 < 16)
  | .fmin e0 _ => decide (e0 < 16)
  | .fmax e0 _ => decide (e0 < 16)
  | .fneg e0 _ => decide (e0 < 16)
  | .fabs e0 _ => decide (e0 < 16)
  | .feq e0 _ => decide (e0 < 16)
  | .flt e0 _ => decide (e0 < 16)
  | .fle e0 _ => decide (e0 < 16)
  | .fcvt e0 _ => decide (e0 < 16)
  | .fclass e0 _ => decide (e0 < 16)
  | .vld e0 _ _ => decide (e0 < 16)
  | .vldp e0 _ _ => decide (e0 < 16)
  | .vst e0 _ _ => decide (e0 < 16)
  | .vstp e0 _ _ => decide (e0 < 16)
  | .vld2 e0 _ _ _ => decide (e0 < 16)
  | .vld3 e0 _ _ _ => decide (e0 < 16)
  | .vld4 e0 _ _ _ => decide (e0 < 16)
  | .vgather e0 _ _ _ _ => decide (e0 < 16)
  | .vscatter e0 _ _ _ _ => decide (e0 < 16)
  | .vadd e0 _ _ _ _ => decide (e0 < 16)
  | .vsub e0 _ _ _ _ => decide (e0 < 16)
  | .vand e0 _ _ _ _ => decide (e0 < 16)
  | .vor e0 _ _ _ _ => decide (e0 < 16)
  | .vxor e0 _ _ _ _ => decide (e0 < 16)
  | .vnot e0 _ _ _ => decide (e0 < 16)
  | .vneg e0 _ _ _ => decide (e0 < 16)
  | .vabs e0 _ _ _ => decide (e0 < 16)
  | .vmin e0 _ _ _ _ => decide (e0 < 16)
  | .vmax e0 _ _ _ _ => decide (e0 < 16)
  | .vminu e0 _ _ _ _ => decide (e0 < 16)
  | .vmaxu e0 _ _ _ _ => decide (e0 < 16)
  | .vadds e0 _ _ _ _ => decide (e0 < 16)
  | .vsubs e0 _ _ _ _ => decide (e0 < 16)
  | .vshl e0 _ _ _ _ => decide (e0 < 16)
  | .vshr e0 _ _ _ _ => decide (e0 < 16)
  | .vsar e0 _ _ _ _ => decide (e0 < 16)
  | .vshli e0 _ _ _ _ => decide (e0 < 16)
  | .vshri e0 _ _ _ _ => decide (e0 < 16)
  | .vsari e0 _ _ _ _ => decide (e0 < 16)
  | .vmov e0 _ _ _ => decide (e0 < 16)
  | .vsel e0 _ _ _ _ => decide (e0 < 16)
  | .vmul e0 _ _ _ _ => decide (e0 < 16)
  | .vmulh e0 _ _ _ _ => decide (e0 < 16)
  | .vmulq e0 _ _ _ _ => decide (e0 < 16)
  | .vmac e0 _ _ _ _ => decide (e0 < 16)
  | .vfadd e0 _ _ _ _ => decide (e0 < 16)
  | .vfsub e0 _ _ _ _ => decide (e0 < 16)
  | .vfmul e0 _ _ _ _ => decide (e0 < 16)
  | .vfma e0 _ _ _ _ => decide (e0 < 16)
  | .vfnma e0 _ _ _ _ => decide (e0 < 16)
  | .vfdiv e0 _ _ _ _ => decide (e0 < 16)
  | .vfsqrt e0 _ _ _ => decide (e0 < 16)
  | .vfmin e0 _ _ _ _ => decide (e0 < 16)
  | .vfmax e0 _ _ _ _ => decide (e0 < 16)
  | .vfneg e0 _ _ _ => decide (e0 < 16)
  | .vfabs e0 _ _ _ => decide (e0 < 16)
  | .vfcvti e0 _ _ _ => decide (e0 < 16)
  | .vfcvtf e0 _ _ _ => decide (e0 < 16)
  | .vcmpeq e0 _ _ _ _ => decide (e0 < 16)
  | .vcmplt e0 _ _ _ _ => decide (e0 < 16)
  | .vcmple e0 _ _ _ _ => decide (e0 < 16)
  | .vcmpltu e0 _ _ _ _ => decide (e0 < 16)
  | .vfcmpeq e0 _ _ _ _ => decide (e0 < 16)
  | .vfcmplt e0 _ _ _ _ => decide (e0 < 16)
  | .vfcmple e0 _ _ _ _ => decide (e0 < 16)
  | .vsplat e0 _ _ => decide (e0 < 16)
  | .vext e0 _ => decide (e0 < 16)
  | .vins e0 _ => decide (e0 < 16)
  | .vperm e0 _ _ _ _ => decide (e0 < 16)
  | .vredadd e0 _ _ => decide (e0 < 16)
  | .vredmin e0 _ _ => decide (e0 < 16)
  | .vredmax e0 _ _ => decide (e0 < 16)
  | .vfredadd e0 _ _ => decide (e0 < 16)
  | .pand e0 _ _ _ => decide (e0 < 16)
  | .por e0 _ _ _ => decide (e0 < 16)
  | .pxor e0 _ _ _ => decide (e0 < 16)
  | .pnot e0 _ _ => decide (e0 < 16)
  | .pall e0 _ => decide (e0 < 16)
  | .prd e0 _ => decide (e0 < 16)
  | .pwr e0 _ => decide (e0 < 16)
  | .pcnt e0 _ => decide (e0 < 16)
  | .vwhile e0 _ => decide (e0 < 16)
  | .arith e0 => decide (e0 < 16)
  | .dispatch e0 => decide (e0 < 16)
  | .timedWake e0 t0 => decide (e0 < 16) && decide (t0 < 64)
  | .bypassAccept port0 => decide (port0 < 32)
  | .evtSrc k0 _ => decide (k0 < 768)
  | .routerSelection e0 => decide (e0 < 16)
  | .stormWindow win0 => decide (win0 < 16)
  | .pendSet m0 _ => decide (m0 < 24)
  | .pendClr m0 _ => decide (m0 < 24)
  | .quarRelease m0 j0 _ => decide (m0 < 24) && decide (j0 < 32)
  | .taskStart m0 e0 => decide (m0 < 24) && decide (e0 < 16)
  | .taskStop m0 e0 => decide (m0 < 24) && decide (e0 < 16)
  | .taskHalt m0 e0 => decide (m0 < 24) && decide (e0 < 16)
  | .taskResume m0 e0 => decide (m0 < 24) && decide (e0 < 16)
  | .ctxRead m0 e0 => decide (m0 < 24) && decide (e0 < 16)
  | .ctxWrite m0 e0 => decide (m0 < 24) && decide (e0 < 16)
  | .lvlmap m0 e0 j0 _ => decide (m0 < 24) && decide (e0 < 16) && decide (j0 < 4)
  | .bypmap m0 e0 j0 _ => decide (m0 < 24) && decide (e0 < 16) && decide (j0 < 8)
  | .tbCtrlLoad m0 => decide (m0 < 24)
  | .offsetAdj m0 _ => decide (m0 < 24)
  | .rateAdj m0 _ => decide (m0 < 24)
  | .incWrite m0 _ _ => decide (m0 < 24)
  | .timeLo m0 => decide (m0 < 24)
  | .stepmeterWindow _ _ => true
  | .tbPps => true
  | .tbClkLoss => true
  | .modeReqConfigure m0 => decide (m0 < 24)
  | .modeReqRun m0 => decide (m0 < 24)
  | .modeReqSafeHold m0 => decide (m0 < 24)
  | .nodeId m0 _ => decide (m0 < 24)
  | .supplyRemoved => true
  | .pin x => (match x.pin with
    | .edgeIrq n => decide (n < 16)
    | _ => true)
  | .supply _ _ => true
  | .zeroize => true
  | .resetRelease => true
  | .fuseRead word0 _ _ => decide (word0 < 64)
  | .bootBegin => true
  | .load => true
  | .badMsg => true
  | .candidateResult => true
  | .bootTmo => true
  | .fuseProg m0 _ => decide (m0 < 24)
  | .lcAdv m0 _ => decide (m0 < 24)
  | .arbSet m0 _ => decide (m0 < 24)
  | .fuseProgramDone _ => true
  | .rstReq m0 _ => decide (m0 < 24)
  | .keyWrite m0 => decide (m0 < 24)
  | .keyErase m0 => decide (m0 < 24)
  | .keyLock m0 => decide (m0 < 24)
  | .derive m0 => decide (m0 < 24)
  | .eraseAll m0 => decide (m0 < 24)
  | .keyCmdDone => true
  | .hostRead _ beats0 _ _ => decide (1 ≤ beats0) && decide (beats0 ≤ 4)
  | .hostWrite _ beats0 _ _ => decide (1 ≤ beats0.length) && decide (beats0.length ≤ 4)
  | .hpPortRst => true
  | .hpHold => true
  | .hcmdNop _ => true
  | .hcmdStart _ _ => true
  | .hcmdStop _ _ => true
  | .query _ _ => true
  | .hcmdSafeHold _ => true
  | .hcmdSleep _ => true
  | .hcmdTakeover _ => true
  | .hcmdReset _ => true
  | .hcmdDone => true
  | .hresDoneClear => true
  | .mbInpost k0 _ => decide (k0 < 16)
  | .mbInFree m0 k0 => decide (m0 < 24) && decide (k0 < 16)
  | .mbOutpost m0 k0 _ => decide (m0 < 24) && decide (k0 < 16)
  | .mbOutTake k0 => decide (k0 < 16)
  | .sleepCmd m0 _ => decide (m0 < 24)
  | .sleepCommit => true
  | .entryTmo => true
  | .wakeEvent kind0 => decide (kind0 < 6)
  | .wakeBanksOn => true
  | .wakePoint _ => true
  | .pwrVack _ => true
  | .pwrDroop _ => true
  | .droopHold k0 => decide (k0 < 5)
  | .pwrCap _ => true
  | .tjWarn _ => true
  | .tjCrit _ => true
  | .bankPwr m0 j0 _ => decide (m0 < 24) && decide (j0 < 6)
  | .bankTransitionStart bank0 => decide (bank0 < 96)
  | .pwrDone bank0 => decide (bank0 < 96)
  | .eccWriteBack addr0 => decide (addr0 < 536870912)
  | .spareCopyDone k0 => decide (k0 < 4)
  | .collideValidClear m0 _ => decide (m0 < 24)
  | .periodStart g0 _ => decide (g0 < 8)
  | .periodTop g0 _ => decide (g0 < 8)
  | .switchingEdge leg0 _ => decide (leg0 < 24)
  | .deadTime leg0 _ => decide (leg0 < 24)
  | .trig g0 => decide (g0 < 8)
  | .wdog g0 => decide (g0 < 8)
  | .clk => true
  | .drvRefclkReturn => true
  | .gctrl m0 g0 _ => decide (m0 < 24) && decide (g0 < 8)
  | .gstatClear m0 g0 _ => decide (m0 < 24) && decide (g0 < 8)
  | .trip k0 => decide (k0 < 32)
  | .tlatchClear m0 _ => decide (m0 < 24)
  | .sampleTransfer port0 _ _ _ => decide (port0 < 32)
  | .samplePortStuck port0 => decide (port0 < 32)
  | .encEdge k0 _ _ => decide (k0 < 8)
  | .encIndex k0 => decide (k0 < 8)
  | .captureEdge c0 _ => decide (c0 < 8)
  | .pop m0 c0 => decide (m0 < 24) && decide (c0 < 8)
  | .clrOvf m0 c0 => decide (m0 < 24) && decide (c0 < 8)
  | .channelStart m0 ch0 => decide (m0 < 24) && decide (ch0 < 64)
  | .channelStop m0 ch0 => decide (m0 < 24) && decide (ch0 < 64)
  | .channelResume m0 ch0 => decide (m0 < 24) && decide (ch0 < 64)
  | .append m0 ch0 _ => decide (m0 < 24) && decide (ch0 < 64)
  | .descriptorLoad ch0 => decide (ch0 < 64)
  | .moverBurst x => decide (x.ch < 64)
  | .linkRead ch0 => decide (ch0 < 64)
  | .outputRelease p0 _ => decide (p0 < 8)
  | .compareWatchdog p0 => decide (p0 < 8)
  | .rollbackDone p0 => decide (p0 < 8)
  | .resumed p0 _ => decide (p0 < 8)
  | .milestonePoint p0 => decide (p0 < 8)
  | .milestoneCommit p0 _ => decide (p0 < 8)
  | .take m0 p0 => decide (m0 < 24) && decide (p0 < 8)
  | .mcfg m0 _ => decide (m0 < 24)
  | .hello _ _ _ => true
  | .input p0 _ => decide (p0 < 8)
  | .release p0 _ => decide (p0 < 8)
  | .horizon p0 _ => decide (p0 < 8)
  | .msmark p0 _ _ _ _ => decide (p0 < 8)
  | .line p0 addr0 data0 => decide (p0 < 8) && decide (addr0 < 393216) && decide (data0.length = 64)
  | .image p0 _ data0 => decide (p0 < 8) && decide (data0.length = 1024)
  | .time _ => true
  | .ack p0 _ _ => decide (p0 < 8)
  | .resync p0 => decide (p0 < 8)
  | .horizonSend p0 => decide (p0 < 8)
  | .timeSend => true
  | .ackSend => true
  | .heartbeat => true
  | .mirFail => true
  | .heartbeatLoss _ => true
  | .takeover m0 => decide (m0 < 24)
  | .mcmdResync m0 => decide (m0 < 24)
  | .pairLive p0 _ => decide (p0 < 8)
  | .deposed => true
  | .mirrorFrame lane0 _ frame0 => decide (lane0 < 2) && decide (frame0.length ≤ 9604)
  | .frameClose lane0 => decide (lane0 < 2)
  | .ackOnly lane0 => decide (lane0 < 2)
  | .mirrorRetransmit _ lane0 => decide (lane0 < 2)
  | .lctrl m0 k0 _ => decide (m0 < 24) && decide (k0 < 6)
  | .retire m0 k0 => decide (m0 < 24) && decide (k0 < 6)
  | .relink m0 k0 => decide (m0 < 24) && decide (k0 < 6)
  | .phyResetDone k0 => decide (k0 < 6)
  | .txRdy k0 => decide (k0 < 6)
  | .train k0 _ => decide (k0 < 6)
  | .amReceived k0 sub0 _ => decide (k0 < 6) && decide (sub0 < 2)
  | .attemptTimeout k0 => decide (k0 < 6)
  | .sigDetLoss k0 => decide (k0 < 6)
  | .phyStatusLow k0 _ => decide (k0 < 6)
  | .codewordReceived k0 d c _ => decide (k0 < 6) && decide (d.length = 514) && decide (c.length = 62)
  | .phyIrq k0 _ => decide (k0 < 6)
  | .frameReceive port0 _ _ frame0 => decide (port0 < 21) && decide (frame0.length ≤ 9604)
  | .frameTransmit port0 q0 _ => decide (port0 < 21) && decide (q0 < 8)
  | .cpuTxpost m0 q0 _ => decide (m0 < 24) && decide (q0 < 8)
  | .fdbRead m0 _ => decide (m0 < 24)
  | .fdbWrite m0 _ => decide (m0 < 24)
  | .flush m0 => decide (m0 < 24)
  | .vlanRead m0 _ => decide (m0 < 24)
  | .vlanWrite m0 _ => decide (m0 < 24)
  | .strmRead m0 => decide (m0 < 24)
  | .strmWrite m0 => decide (m0 < 24)
  | .saRead m0 => decide (m0 < 24)
  | .saWrite m0 => decide (m0 < 24)
  | .fdbAging idx0 => decide (idx0 < 8192)
  | .gateInterval port0 => decide (port0 < 21)
  | .oper m0 port0 _ => decide (m0 < 24) && decide (port0 < 21)
  | .gateListSwap port0 => decide (port0 < 21)
  | .syncSend port0 => decide (port0 < 21)
  | .doipAnnouncement => true
  | .ecfg m0 n0 _ => decide (m0 < 24) && decide (n0 < 16)
  | .edgeLink n0 _ => decide (n0 < 16)
  | .edgePortLost n0 => decide (n0 < 16)
  | .fabricRead m0 e0 _ _ => decide (m0 < 24) && decide (e0 < 16)
  | .fabricWrite m0 e0 _ _ => decide (m0 < 24) && decide (e0 < 16)
  | .fabricCas m0 e0 _ _ => decide (m0 < 24) && decide (e0 < 16)
  | .fabricSwap m0 e0 _ _ => decide (m0 < 24) && decide (e0 < 16)
  | .fabricAdd m0 e0 _ _ => decide (m0 < 24) && decide (e0 < 16)
  | .fabricDoorbell m0 e0 _ _ => decide (m0 < 24) && decide (e0 < 16)
  | .tallothRead src0 hdr0 => decide (src0 < 512) && decide (hdr0.payload.length ≤ 1024) && decide (hdr0.len ≤ 1024)
  | .tallothWrite src0 hdr0 => decide (src0 < 512) && decide (hdr0.payload.length ≤ 1024) && decide (hdr0.len ≤ 1024)
  | .tallothCas src0 hdr0 => decide (src0 < 512) && decide (hdr0.payload.length ≤ 1024) && decide (hdr0.len ≤ 1024)
  | .tallothSwap src0 hdr0 => decide (src0 < 512) && decide (hdr0.payload.length ≤ 1024) && decide (hdr0.len ≤ 1024)
  | .tallothAdd src0 hdr0 => decide (src0 < 512) && decide (hdr0.payload.length ≤ 1024) && decide (hdr0.len ≤ 1024)
  | .doorbell src0 hdr0 => decide (src0 < 512) && decide (hdr0.payload.length ≤ 1024) && decide (hdr0.len ≤ 1024)
  | .readResp src0 hdr0 => decide (src0 < 512) && decide (hdr0.payload.length ≤ 1024) && decide (hdr0.len ≤ 1024)
  | .complete src0 hdr0 => decide (src0 < 512) && decide (hdr0.payload.length ≤ 1024) && decide (hdr0.len ≤ 1024)
  | .atomicResp src0 hdr0 => decide (src0 < 512) && decide (hdr0.payload.length ≤ 1024) && decide (hdr0.len ≤ 1024)
  | .tallothAck src0 _ _ => decide (src0 < 512)
  | .tallothNak src0 _ => decide (src0 < 512)
  | .fabRto peer0 => decide (peer0 < 512)
  | .fabricAckSend peer0 => decide (peer0 < 512)
  | .dbFifo m0 => decide (m0 < 24)
  | .peerDownClear m0 _ => decide (m0 < 24)
  | .mpCtrl m0 _ => decide (m0 < 24)
  | .mpRequest c0 => decide (c0 < 2)
  | .creditReturn c0 _ => decide (c0 < 2)
  | .readResponse c0 tag0 _ _ data0 => decide (c0 < 2) && decide (tag0 < 256) && decide (data0.length = 64)
  | .writeAck c0 tag0 _ => decide (c0 < 2) && decide (tag0 < 256)
  | .mpTmo c0 tag0 => decide (c0 < 2) && decide (tag0 < 256)
  | .ctlErr c0 => decide (c0 < 2)
  | .ctlRdyLoss c0 => decide (c0 < 2)
  | .idcode => true
  | .dbgacc _ _ _ => true
  | .dbgstat => true
  | .bypass => true
  | .debugAccessDone => true
  | .haltReq m0 _ => decide (m0 < 24)
  | .resumeReq m0 _ => decide (m0 < 24)
  | .stepReq m0 _ => decide (m0 < 24)
  | .reform m0 p0 => decide (m0 < 24) && decide (p0 < 8)
  | .reformDone p0 => decide (p0 < 8)
  | .debugReset _ => true
  | .dbgHaltI => true
  | .dbgResumeI => true
  | .dbgSnapI => true
  | .halt e0 => decide (e0 < 16)
  | .traceWrite => true
  | .snap m0 u0 => decide (m0 < 24) && u0.wf
  | .freeze m0 u0 _ => decide (m0 < 24) && u0.wf
  | .clear m0 u0 => decide (m0 < 24) && u0.wf
  | .pmGsnap m0 _ => decide (m0 < 24)
  | .testMode => true
  | .testModeExit => true
  | .mbistGo _ => true
  | .lock m0 page0 _ => decide (m0 < 24) && decide (page0 < 256)
  | .unlock m0 page0 _ => decide (m0 < 24) && decide (page0 < 256)
  | .cntClr m0 page0 => decide (m0 < 24) && decide (page0 < 256)
  | .setAlias m0 page0 off0 _ => decide (m0 < 24) && decide (page0 < 256) && decide (off0 < 4096)
  | .clearAlias m0 page0 off0 _ => decide (m0 < 24) && decide (page0 < 256) && decide (off0 < 4096)
  | .rcRead m0 page0 off0 => decide (m0 < 24) && decide (page0 < 256) && decide (off0 < 4096)
  | .registerWrite m0 page0 off0 _ => decide (m0 < 24) && decide (page0 < 256) && decide (off0 < 4096)
  | .supplyValid => true
  | .tbRefclkEdge => true
  | .tripDeassert k0 => decide (k0 < 32)
  | .signalPresent x => decide (x.k < 6)
  | .amLockLost k0 sub0 => decide (k0 < 6) && decide (sub0 < 2)
  | .hpPortRstRelease => true
  | .noMirrorFrame => true
  | .recoveryResetTimeout k0 => decide (k0 < 256)
  | .mbistDone _ => true

end Sys2Proof
end

