-- ==== Sys2Proof/Safety.lean ====
section
/-! DEFINITION. What the statements speak of: a well-kept state; an engine at which nothing but its next instruction is due; and what
such an instruction leaves. -/
namespace Sys2Proof.Machine

/-! A well-kept state. -/

/-- What an unlisted byte of memory reads as: zero (DESIGN CHOICE, log 3). -/
def memDefault (_ : Nat) : Byte := 0

/-- The canonical form of memory. -/
def Memory.wf (m : Tab Byte) : Bool := Tab.wf (fun _ => (0 : Byte)) m

/-- The canonical form of the register pages. -/
def Pages.wf (r : Tab Word) : Bool := Tab.wf regReset r

/-- The state is well kept: memory and register pages in their canonical form. -/
def State.Inv (s : State) : Prop := Memory.wf s.blk.mem = true ∧ Pages.wf s.blk.regs = true

/-! One instruction of an engine, with nothing else due. -/

/-- The stack, data or return, that engine `l` uses now. -/
def Blk.stackOf (b : Blk) (l : Nat) (ret : Bool) : StkView := b.stk l (b.eng l).cur (b.pl l) ret

/-- The executing task's context. -/
def Blk.curTask (b : Blk) (l : Nat) : TaskCtx := b.task l (b.eng l).cur

/-- The bytes from the PC on spell an instruction, as far as they are judged (R94): those in the fetch buffer and those that follow. -/
def Blk.spells (b : Blk) (l len : Nat) : Bool :=
  let pc := (b.curTask l).pc.toNat
  let old := if (b.eng l).fpc = pc then (b.eng l).fbuf else []
  decide (place pc ≠ .scratch) || (encDecode (old ++ b.fetchN l (b.pl l) (pc + old.length) (len + 32 - old.length))).isSome ||
  (b.fetchExcN l (b.pl l) pc 12).isSome

/-- Engine `e` may issue an instruction of `len` bytes and nothing else is due there: its bytes can be fetched and spell an instruction,
no execute breakpoint, halt, step, pending `ARITH`, stop of the task or recovery of the pair intervenes, and no word stands uncorrected
that a fetch could correct. -/
def Blk.quiet (b : Blk) (e len : Nat) : Bool :=
  let l := b.lead e
  let x := b.eng l
  b.canIssue l && x.waitM.isNone && !x.mid && b.spells l len && b.ecc.all (fun w => decide (w.2 ≠ 1)) && x.arith.isNone && !x.haltReq && !x.stepping && x.bpHit.isNone &&
  (b.curTask l).req.isNone && (x.bpSkip || (b.bpHits l [0] [(b.curTask l).pc.toNat]).isEmpty) && !(b.mustPause (l / 2)) &&
  (b.fetchExcN l (b.pl l) (b.curTask l).pc.toNat len).isNone &&
  decide ((b.pair (l / 2)).phase = .live) && decide ((b.pair (l / 2)).heldIn = []) && !(b.mirrored (l / 2))

/-- The PC after an instruction of `len` bytes at `pc`, with a branch target or none. -/
def pcAfter (pc : Word) (len : Nat) : Option Nat → Word
  | some a => BitVec.ofNat 32 a
  | none => pc + BitVec.ofNat 32 len

/-- A register that performance counting of engine `e` may write. -/
def isPm (e k : Nat) : Bool :=
  (List.range 8).any (fun c => k == Reg.pmCnt e c) || k == Reg.pmOvf e || k == regKey (0x20 + e) Reg.hEvtRaw

/-- A register that performance counting may write as an instruction of engine `l` retires. -/
def Blk.pmKey (b : Blk) (l k : Nat) : Bool := isPm l k || (b.joined (l / 2) && isPm (l + 1) k)

/-- An engine's record without what belongs to fetching, breakpoints and the counting of steps. -/
def Engine.bare (x : Engine) : Engine :=
  { x with fpc := 0, fbuf := [], flines := [], area := none, vecFetch := none, bpSkip := false, now := 0, adF := 0, adR := 0, adU := 0 }

/-- Engine `e` has performed one instruction: its task stands as `c` says and its two stacks hold `ds` and `rs`; beside them only the
fetch buffer, the step counts of the engine and its pair, performance counters and the free values' counter have moved on. -/
structure Blk.Ran (b b' : Blk) (e : Nat) (c : TaskCtx) (ds rs : List Entry128) : Prop where
  rest  : b' = { b with tasks := b'.tasks, engines := b'.engines, pairs := b'.pairs, regs := b'.regs, free := b'.free, stamp := b'.stamp }
  task  : b'.task (b.lead e) (b.eng (b.lead e)).cur = if b.pl (b.lead e) = 3 then c else { c with ds := ds, rs := rs }
  tasks : ∀ n, n ≠ b.lead e * 64 + (b.eng (b.lead e)).cur → Tab.get taskReset b'.tasks n = Tab.get taskReset b.tasks n
  eng   : (b'.eng (b.lead e)).bare = if b.pl (b.lead e) = 3 then { (b.eng (b.lead e)).bare with mds := ds, mrs := rs } else (b.eng (b.lead e)).bare
  engs  : ∀ j, j ≠ b.lead e → b'.eng j = b.eng j
  pairs : ∀ p, { b'.pair p with spc := 0, steps := 0 } = { b.pair p with spc := 0, steps := 0 }
  regs  : ∀ k, b.pmKey (b.lead e) k = false → b'.reg k = b.reg k

/-- Does a stack have `need` operands in its cache, and room there for `made` results? -/
def StkView.fits (v : StkView) (need made : Nat) : Bool := decide (need ≤ v.cache.length) && decide (v.cache.length - need + made ≤ v.depth)

/-- What a calculation does: operands of the data stack and of the return stack (top first), their results, the arithmetic conditions it
raises, a branch target or none, and the vector and predicate registers after it. -/
structure Effect where
  dops  : List Entry128 := []
  rops  : List Entry128 := []
  dres  : List Entry128 := []
  rres  : List Entry128 := []
  conds : BitVec 6 := 0
  tgt   : Option Nat := none
  v     : Tab Entry128
  p     : Tab (BitVec 16)

/-- The executing task after an instruction of `len` bytes with effect `f`. -/
def Effect.task (f : Effect) (len : Nat) (c : TaskCtx) : TaskCtx :=
  { c with astat := setFlags c.astat f.conds, v := f.v, p := f.p, pc := pcAfter c.pc len f.tgt }

/-- On engine `e`, instruction `i` of `len` bytes has the effect `f`: issued with nothing else due, its operands in the caches over
`under` and `runder`, room for its results, no trap enabled for a condition it raises and, for a branch, tracing off and a target
within 32 bits, it completes, and the block is as `Blk.Ran` says. -/
def Does (s : State) (e : Nat) (i : Instr) (len : Nat) (f : Effect) : Prop :=
  let b := s.blk
  let l := b.lead e
  ∀ under runder, b.quiet e len = true →
    (b.stackOf l false).cache = f.dops ++ under → under.length + f.dres.length ≤ (b.stackOf l false).depth →
    (b.stackOf l true).cache = f.rops ++ runder → runder.length + f.rres.length ≤ (b.stackOf l true).depth →
    enabledConds (b.curTask l).astat f.conds = 0 → (∀ a, f.tgt = some a → a < 2 ^ 32 ∧ b.rb Reg.trcCtrl 0 = false) →
    ∃ b', exec i s = .next { s with blk := b' } ∧ b.Ran b' e (f.task len (b.curTask l)) (f.dres ++ under) (f.rres ++ runder)

/-- Instruction `i` of `len` bytes replaces the operands `ops` on top of the data stack (top first) by `res` and raises `conds`. -/
def Calc (s : State) (e : Nat) (i : Instr) (len : Nat) (ops res : List Entry128) (conds : BitVec 6 := 0) : Prop :=
  Does s e i len { dops := ops, dres := res, conds := conds, v := (s.blk.curTask (s.blk.lead e)).v, p := (s.blk.curTask (s.blk.lead e)).p }

/-! Memory accesses of an engine. -/

/-- Does the address name memory that loads read directly: scratchpad, an alias of it, the packet buffer, or the boot ROM? -/
def plainPlace (a : Nat) : Bool :=
  match place a with
  | .scratch | .setAlias | .clrAlias | .packet | .rom => true
  | _ => false

/-- Does the pair keep no log of what engine `l` reads of the words at these addresses (R329)? -/
def Blk.unlogged (b : Blk) (l : Nat) (k : Acs) (ws : List Nat) : Bool :=
  decide (k = .store) || !(b.captured (l / 2)) || ws.all fun a => !(b.loggedWord (l / 2) a)

/-- An access of `n` bytes at `a` by engine `l` passes every check of R113, its words are sound, no data breakpoint matches, and its
pair keeps no log of it. -/
def Blk.memClear (b : Blk) (l : Nat) (k : Acs) (a n : Nat) : Bool :=
  decide (a < 2 ^ 40) && plainPlace a && (b.check l (b.pl l) (some (l / 2)) false k a n).isNone &&
  (halves a n).all (fun h => decide (b.eccAt (unalias h.1) = 0)) && b.unlogged l k ((halves a n).map (·.1)) &&
  (b.bpHits l (if k = .load then [1, 3] else [2, 3]) ((List.range n).map (a + ·))).isEmpty

/-- The table `m` is the block's memory with the bytes `d` written at `a`, through the alias that `a` names. -/
def Blk.Wrote (b : Blk) (m : Tab Byte) (a : Nat) (d : List Byte) : Prop :=
  ∀ j, Tab.get (fun _ => (0 : Byte)) m j =
    if unalias a ≤ j ∧ j < unalias a + d.length then mergeByte a (b.byte j) (d.getD (j - unalias a) 0) else b.byte j

/-- Instruction `i` of `len` bytes on engine `e` takes `ops` from the data stack, leaves `res` there and writes the bytes `d` at `a`,
and does nothing else. -/
def Stores (s : State) (e : Nat) (i : Instr) (len : Nat) (ops res : List Entry128) (a : Nat) (d : List Byte) : Prop :=
  let b := s.blk
  let l := b.lead e
  ∀ under, b.quiet e len = true → (b.stackOf l false).cache = ops ++ under → under.length + res.length ≤ (b.stackOf l false).depth →
    (b.stackOf l true).fits 0 0 = true →
    ∃ m b', exec i s = .next { s with blk := b' } ∧ b.Wrote m a d ∧
      Blk.Ran { b with mem := m } b' e { b.curTask l with pc := (b.curTask l).pc + BitVec.ofNat 32 len } (res ++ under) (b.stackOf l true).cache

/-- Accesses to the elements of `s` bytes at `els` pass every check, each element aligned, its word sound and unwatched, and the pair keeps
no log of them. -/
def Blk.elemsClear (b : Blk) (l : Nat) (k : Acs) (s : Nat) (els : List Nat) : Bool :=
  b.unlogged l k els && els.all fun a =>
    decide (a < 2 ^ 40) && plainPlace a && decide (a % s = 0) && (b.checkOn l (b.pl l) (some (l / 2)) true k [(a, s)] a s).isNone &&
    decide (b.eccAt (unalias a) = 0) && (b.bpHits l (if k = .load then [1, 3] else [2, 3]) ((List.range s).map (a + ·))).isEmpty

/-! Vector instructions. -/

/-- Are vector instructions enabled, the register numbers multiples of the Sheaf size, and the qualifier admitted? -/
def VCfg.admits (c : VCfg) (regs : List Nat) (q : BitVec 4) : Bool := c.ven && regs.all (fun r => decide (r % c.g = 0)) && !(c.qBad q)

/-- Instruction `i` of `len` bytes on engine `e` leaves element `k` of `f` in every active element `k` of the Sheaf at register `d`, zero
or the old value in the others, and the conditions of the active elements. -/
def VecCalc (s : State) (e : Nat) (i : Instr) (len : Nat) (d q : BitVec 4) (f : Nat → Nat × BitVec 6) : Prop :=
  let l := s.blk.lead e
  let c := s.blk.vcfg l
  let x := s.blk.curTask l
  ∃ v : Tab Entry128,
    (∀ r, r < d.toNat ∨ d.toNat + c.g ≤ r → Tab.get (fun _ => (0 : Entry128)) v r = x.vreg r) ∧
    (∀ k, k < c.elems → c.el { x with v := v } d k = if c.active x q k then (f k).1 % 2 ^ c.bits else if c.zm then 0 else c.el x d k) ∧
    Does s e i len { conds := (List.range c.elems).foldl (fun a k => if c.active x q k then a ||| (f k).2 else a) 0, v := v, p := x.p }

/-- Instruction `i` leaves the predicate Sheaf at `pd` with the bytes of the active elements of which `f` holds set and all others clear,
and the conditions of the active elements. -/
def PredCalc (s : State) (e : Nat) (i : Instr) (len : Nat) (pd : BitVec 3) (q : BitVec 4) (f : Nat → Bool × BitVec 6) : Prop :=
  let l := s.blk.lead e
  let c := s.blk.vcfg l
  let x := s.blk.curTask l
  ∃ p : Tab (BitVec 16),
    (∀ r, r < pd.toNat ∨ pd.toNat + c.g ≤ r → Tab.get (fun _ => (0 : BitVec 16)) p r = x.preg r) ∧
    (∀ j, j < 16 * c.g → (Tab.get (fun _ => (0 : BitVec 16)) p (pd.toNat + j / 16)).getLsbD (j % 16) =
      (c.active x q (j / c.size) && (f (j / c.size)).1)) ∧
    Does s e i len { conds := (List.range c.elems).foldl (fun a k => if c.active x q k then a ||| (f k).2 else a) 0, v := x.v, p := p }

/-! Commands that write or read a register. -/

/-- A write of master `m` reaches the register at key `k` now: its page admits the master (R529), and the host of a follower is not
refused (R436). -/
def Blk.reaches (b : Blk) (m k : Nat) : Bool :=
  match b.pageLevel m (k / 0x4000) with
  | none => false
  | some pl => b.pageAdmits (k / 0x4000) (k % 0x4000) pl true &&
      !(decide (m = 18) && decide (b.sys.base = 7) && !(followerWrites (k / 0x4000) (k % 0x4000)))

/-- The write reaches the register and its page is not locked (R532). -/
def Blk.grants (b : Blk) (m k : Nat) : Bool := b.reaches m k && !(b.locked (k / 0x4000))

/-- The page of the register at key `k` answers a read of master `m` now. -/
def Blk.shows (b : Blk) (m k : Nat) : Bool :=
  match b.pageLevel m (k / 0x4000) with
  | none => false
  | some pl => b.pageAdmits (k / 0x4000) (k % 0x4000) pl false

/-- Command `i` completes and leaves the block `b'`, the queue as it stands. -/
def Leaves (s : State) (i : Instr) (b' : Blk) : Prop := exec i s = .next { s with blk := b' }

/-- Command `i` completes and what it leaves, the queue apart, meets `P`. -/
def Ends (s : State) (i : Instr) (P : Blk → Prop) : Prop := ∃ b', exec i s = .next { s with blk := b' } ∧ P b'

/-- Only registers have changed, and of these only the listed ones. -/
def Blk.OnlyRegs (b b' : Blk) (ks : List Nat) : Prop := b' = { b with regs := b'.regs } ∧ ∀ k, k ∉ ks → b'.reg k = b.reg k

/-- Only registers of the listed pages have changed, of all registers. -/
def Blk.OnlyPages (b b' : Blk) (ps : List Nat) : Prop := ∀ r, r / 0x4000 ∉ ps → b'.reg r = b.reg r

/-- Engines, their tasks, their pairs and memory stand as before. -/
def Blk.CoresKept (b b' : Blk) : Prop :=
  b'.engines = b.engines ∧ b'.tasks = b.tasks ∧ b'.pairs = b.pairs ∧ b'.mem = b.mem

/-- Nothing is due at engine `l` besides what runs there: no halt, step or breakpoint hit, no stop of the task, and its pair neither
recovers nor follows nor is mirrored. -/
def Blk.calm (b : Blk) (l : Nat) : Bool :=
  !(b.eng l).haltReq && !(b.eng l).stepping && (b.eng l).bpHit.isNone && (b.curTask l).req.isNone &&
  decide ((b.pair (l / 2)).phase = .live) && decide ((b.pair (l / 2)).heldIn = []) && !(b.mirrored (l / 2))

end Sys2Proof.Machine
end

