-- ==== Sys2Proof/Certificates/Slice0/Obligations.lean ====
section
/-! DEFINITION. The statements for the provers. A statement over several families is the conjunction of its `Rules`.
How commands stand for events, accesses and instructions is said in logs 15 to 20; a docstring names the other choices and readings of
the model (notes/assumptions) that its statement meets; a statement of basis 'derived' cites no rule for them. -/

open Sys2Proof Sys2Proof.Machine

/-! The queue, the state and reset. -/

/-- A step takes the command at the front of the queue and runs it with the queue's rest; with no command waiting the block idles
(DESIGN CHOICE, log 1). -/
def Obligations.StepTakesFront : Prop :=
  (∀ (c : Instr) (rest : List Instr) (b : Blk),
    step { pending := c :: rest, blk := b } = exec c { pending := rest, blk := b }) ∧
  ∀ b : Blk, step { pending := [], blk := b } = .next { pending := [], blk := b }

/-- Every command completes from every state, as each row of the command table has an effect the spec gives, and no command touches the
queue of those that wait behind it.
Model's choices and readings met here: DEDUCED, log 15. -/
def Obligations.EveryCommandAnswers : Prop :=
  ∀ (c : Instr) (s : State), ∃ b', exec c s = .next { s with blk := b' }

/-- Reset leaves the block in Boot with no command waiting, every register at its page's reset value and no memory written. Task 0 of engine
0 runs in the boot ROM at PL 3, and every other task is Idle, its caches empty, its pointers, bases, limits, vector registers and predicates
zero. That the PC of the other tasks is 0 is the model's choice (DESIGN CHOICE, log 4), as is what unwritten memory reads (log 3).
Model's choices and readings met here: DESIGN CHOICE, log 8. -/
def Obligations.ResetState : Prop :=
  let b := State.reset.blk
  State.reset.pending = [] ∧ b.sys.base = 2 ∧ b.sys.hold = false ∧ b.mode = 2 ∧ b.shownMode = 2 ∧
  (∀ k, b.reg k = regReset k) ∧ (∀ a, b.byte a = 0) ∧ b.pl 0 = 3 ∧
  (∀ e, (b.eng e).run = decide (e = 0)) ∧
  (∀ e t, e < 16 → t < 64 →
    let c := b.task e t
    (c.st = if e = 0 ∧ t = 0 then .running else .idle) ∧ (c.pc = if e = 0 ∧ t = 0 then 0x30000000 else 0) ∧
    (c.tstat = if t = 0 then 3 else 0) ∧ c.ds = [] ∧ c.rs = [] ∧ c.dsp = 0 ∧ c.dsbase = 0 ∧ c.dslim = 0 ∧ c.rsp = 0 ∧ c.rsbase = 0 ∧
    c.rslim = 0 ∧ (∀ r, c.vreg r = 0) ∧ (∀ r, c.preg r = 0))

/-- The state after reset is well kept. -/
def Obligations.ResetWellKept : Prop := State.reset.Inv

/-- Every step keeps memory and the register pages in their canonical form: addresses rising, nothing listed that an unlisted address
reads as. -/
def Obligations.StepsKeepForm : Prop :=
  ∀ (s t : State), s.Inv → step s = .next t → t.Inv

/-! Scalar instructions of an engine (R97 to R108). Operands are written top first. -/

/-- Stack instructions of R101 and `PICK` of R102 permute, copy and drop entries of the data stack, unchanged. -/
def Rules.StackInstructions : Prop :=
  ∀ (s : State) (e : Nat) (a b c d : Entry128),
    Calc s e (.nop e) 1 [] [] ∧ Calc s e (.dup e) 1 [a] [a, a] ∧ Calc s e (.drop e) 1 [a] [] ∧
    Calc s e (.swap e) 1 [b, a] [a, b] ∧ Calc s e (.over e) 1 [b, a] [a, b, a] ∧ Calc s e (.rot e) 1 [c, b, a] [a, c, b] ∧
    Calc s e (.nip e) 1 [b, a] [b] ∧ Calc s e (.tuck e) 1 [b, a] [b, a, b] ∧ Calc s e (.twoDup e) 1 [b, a] [b, a, b, a] ∧
    Calc s e (.twoDrop e) 1 [b, a] [] ∧ Calc s e (.twoSwap e) 1 [d, c, b, a] [b, a, d, c] ∧
    Calc s e (.twoOver e) 1 [d, c, b, a] [b, a, d, c, b, a] ∧
    ∀ (n : BitVec 8) (xs : List Entry128), n.toNat ≤ 11 → xs.length = n.toNat + 1 →
      Calc s e (.pick e n) 2 xs (xs.getD n.toNat 0 :: xs)

/-- `>R`, `R>`, `R@` and `RDROP` move entries between the data stack and the return stack. -/
def Rules.ReturnStackInstructions : Prop :=
  ∀ (s : State) (e : Nat) (a : Entry128),
    let v := (s.blk.curTask (s.blk.lead e)).v
    let p := (s.blk.curTask (s.blk.lead e)).p
    Does s e (.toR e) 1 { dops := [a], rres := [a], v := v, p := p } ∧
    Does s e (.rFrom e) 1 { rops := [a], dres := [a], v := v, p := p } ∧
    Does s e (.rFetch e) 1 { rops := [a], dres := [a], rres := [a], v := v, p := p } ∧
    Does s e (.rdrop e) 1 { rops := [a], v := v, p := p }

/-- Instructions that only move entries of the data stack and the return stack. -/
def Obligations.Stacks : Prop := Rules.StackInstructions ∧ Rules.ReturnStackInstructions

/-- Modular and high-part arithmetic, minimum and maximum: the low bits of the operands at the width, the result formed at the width and
sign-extended, or zero-extended where the table marks it Z. -/
def Rules.IntegerArithmetic : Prop :=
  ∀ (s : State) (e : Nat) (w : Option Width) (x y : Entry128) (s8 : BitVec 8),
    let n := wq w
    let k := preLen w + 1
    let a := x.setWidth n
    let b := y.setWidth n
    Calc s e (.add e w) k [y, x] [(a + b).signExtend 128] ∧ Calc s e (.sub e w) k [y, x] [(a - b).signExtend 128] ∧
    Calc s e (.mul e w) k [y, x] [(a * b).signExtend 128] ∧
    Calc s e (.mulh e w) k [y, x] [(BitVec.ofInt n (a.toInt * b.toInt / 2 ^ n)).signExtend 128] ∧
    Calc s e (.mulhu e w) k [y, x] [(BitVec.ofNat n (a.toNat * b.toNat / 2 ^ n)).setWidth 128] ∧
    Calc s e (.addi e w s8) (k + 1) [x] [(a + s8.signExtend n).signExtend 128] ∧
    Calc s e (.min e w) k [y, x] [(if a.toInt ≤ b.toInt then a else b).signExtend 128] ∧
    Calc s e (.max e w) k [y, x] [(if a.toInt ≤ b.toInt then b else a).signExtend 128] ∧
    Calc s e (.minu e w) k [y, x] [(if a.toNat ≤ b.toNat then a else b).setWidth 128] ∧
    Calc s e (.maxu e w) k [y, x] [(if a.toNat ≤ b.toNat then b else a).setWidth 128]

/-- Bit operations, shifts and rotates, counts and extensions. A shift by the width or more leaves 0, an arithmetic one copies of the
sign; a rotate takes its amount modulo the width. -/
def Rules.BitInstructions : Prop :=
  ∀ (s : State) (e : Nat) (w : Option Width) (x y : Entry128) (u : BitVec 8),
    let n := wq w
    let k := preLen w + 1
    let a := x.setWidth n
    let b := y.setWidth n
    Calc s e (.and e w) k [y, x] [(a &&& b).signExtend 128] ∧ Calc s e (.or e w) k [y, x] [(a ||| b).signExtend 128] ∧
    Calc s e (.xor e w) k [y, x] [(a ^^^ b).signExtend 128] ∧ Calc s e (.not e w) k [x] [(~~~ a).signExtend 128] ∧
    Calc s e (.shl e w) k [y, x] [(a <<< b.toNat).signExtend 128] ∧ Calc s e (.shr e w) k [y, x] [(a >>> b.toNat).setWidth 128] ∧
    Calc s e (.sar e w) k [y, x] [(a.sshiftRight b.toNat).signExtend 128] ∧
    Calc s e (.rol e w) k [y, x] [(a.rotateLeft b.toNat).setWidth 128] ∧
    Calc s e (.ror e w) k [y, x] [(a.rotateRight b.toNat).setWidth 128] ∧
    Calc s e (.shli e w u) (k + 1) [x] [(a <<< u.toNat).signExtend 128] ∧
    Calc s e (.shri e w u) (k + 1) [x] [(a >>> u.toNat).setWidth 128] ∧
    Calc s e (.sari e w u) (k + 1) [x] [(a.sshiftRight u.toNat).signExtend 128] ∧
    Calc s e (.roli e w u) (k + 1) [x] [(a.rotateLeft u.toNat).setWidth 128] ∧
    Calc s e (.clz e w) k [x] [BitVec.ofNat 128 (((List.range n).takeWhile fun i => !(a.getLsbD (n - 1 - i))).length)] ∧
    Calc s e (.ctz e w) k [x] [BitVec.ofNat 128 (((List.range n).takeWhile fun i => !(a.getLsbD i)).length)] ∧
    Calc s e (.popc e w) k [x] [BitVec.ofNat 128 ((List.range n).countP fun i => a.getLsbD i)] ∧
    Calc s e (.sext e w) k [x] [a.signExtend 128] ∧ Calc s e (.zext e w) k [x] [a.setWidth 128]

/-- Integer arithmetic and bit instructions. -/
def Obligations.IntegersAndBits : Prop := Rules.IntegerArithmetic ∧ Rules.BitInstructions

/-- Arithmetic that can raise OV: `NEG` and `ABS` of the most negative value leave it; `ADDS`, `SUBS`, `MULQ15` and `MULQ31` saturate to
the nearest bound. -/
def Rules.OverflowingArithmetic : Prop :=
  ∀ (s : State) (e : Nat) (w : Option Width) (x y : Entry128),
    let n := wq w
    let k := preLen w + 1
    let a := x.setWidth n
    let b := y.setWidth n
    let ov := fun (p : Prop) [Decidable p] => if p then condOV else (0 : BitVec 6)
    let sat := fun (m : Nat) (v : Int) => max (-(2 ^ (m - 1))) (min (2 ^ (m - 1) - 1) v)
    let p15 := ((x.setWidth 16).toInt * (y.setWidth 16).toInt + 2 ^ 14) / 2 ^ 15
    let p31 := ((x.setWidth 32).toInt * (y.setWidth 32).toInt + 2 ^ 30) / 2 ^ 31
    Calc s e (.neg e w) k [x] [(-a).signExtend 128] (ov (a = BitVec.intMin n)) ∧
    Calc s e (.abs e w) k [x] [(if a.toInt < 0 then -a else a).signExtend 128] (ov (a = BitVec.intMin n)) ∧
    Calc s e (.adds e w) k [y, x] [BitVec.ofInt 128 (sat n (a.toInt + b.toInt))] (ov (sat n (a.toInt + b.toInt) ≠ a.toInt + b.toInt)) ∧
    Calc s e (.subs e w) k [y, x] [BitVec.ofInt 128 (sat n (a.toInt - b.toInt))] (ov (sat n (a.toInt - b.toInt) ≠ a.toInt - b.toInt)) ∧
    Calc s e (.mulq15 e) 1 [y, x] [BitVec.ofInt 128 (sat 16 p15)] (ov (sat 16 p15 ≠ p15)) ∧
    Calc s e (.mulq31 e) 1 [y, x] [BitVec.ofInt 128 (sat 32 p31)] (ov (sat 32 p31 ≠ p31))

/-- Division at a width: truncating toward zero with the remainder's sign that of the dividend; a division by 0 leaves all ones and the
dividend and raises DZ; the most negative value by −1 leaves itself and 0 and raises OV. Unsigned results are zero-extended. -/
def Rules.Division : Prop :=
  ∀ (s : State) (e : Nat) (w : Option Width) (x y : Entry128),
    let n := wq w
    let k := preLen w + 1
    let a := x.setWidth n
    let b := y.setWidth n
    let q : BitVec n := if b = 0 then BitVec.allOnes n else a.sdiv b
    let r : BitVec n := if b = 0 then a else a.srem b
    let qu : BitVec n := if b = 0 then BitVec.allOnes n else a / b
    let ru : BitVec n := if b = 0 then a else a % b
    let dz := if b = 0 then condDZ else (0 : BitVec 6)
    let c := if a = BitVec.intMin n ∧ b = BitVec.allOnes n then condOV else dz
    Calc s e (.div e w) k [y, x] [q.signExtend 128] c ∧ Calc s e (.rem e w) k [y, x] [r.signExtend 128] c ∧
    Calc s e (.divrem e w) k [y, x] [q.signExtend 128, r.signExtend 128] c ∧
    Calc s e (.divu e w) k [y, x] [qu.setWidth 128] dz ∧ Calc s e (.remu e w) k [y, x] [ru.setWidth 128] dz

/-- `CLAMP` bounds a signed value, the upper bound winning. -/
def Rules.Clamping : Prop :=
  ∀ (s : State) (e : Nat) (w : Option Width) (x y f : Entry128),
    let n := wq w
    Calc s e (.clamp e w) (preLen w + 1) [f, y, x]
      [BitVec.ofInt 128 (min (f.setWidth n).toInt (max (y.setWidth n).toInt (x.setWidth n).toInt))]

/-- Saturating and overflowing arithmetic, division and clamping. -/
def Obligations.OverflowAndDivision : Prop := Rules.OverflowingArithmetic ∧ Rules.Division ∧ Rules.Clamping

/-- A comparison pushes all ones for true and 0 for false; `BZ`, `BNZ` and `SEL` take any nonzero flag, in all its 128 bits, as true. -/
def Obligations.TruthValues : Prop :=
  ∀ (s : State) (e : Nat) (w : Option Width) (x y f : Entry128) (sz : OffSize) (off : BitVec 32),
    let n := wq w
    let a := x.setWidth n
    let b := y.setWidth n
    let c := s.blk.curTask (s.blk.lead e)
    let len := 1 + OffSize.bytes sz
    let t := (((c.pc.toNat + len : Nat) + (off.setWidth (8 * OffSize.bytes sz)).toInt) % 2 ^ 40).toNat
    let cmp := fun (i : Instr) (p : Prop) [Decidable p] => Calc s e i (preLen w + 1) [y, x] [if p then BitVec.allOnes 128 else 0]
    let z := s.blk.fmode (s.blk.lead e)
    let g := fmtOf w
    let fcmp := fun (i : Instr) (r : Bool × BitVec 6) => Calc s e i (preLen w + 2) [y, x] [if r.1 then BitVec.allOnes 128 else 0] r.2
    cmp (.eq e w) (a = b) ∧ cmp (.ne e w) (a ≠ b) ∧ cmp (.lt e w) (a.toInt < b.toInt) ∧ cmp (.le e w) (a.toInt ≤ b.toInt) ∧
    cmp (.ltu e w) (a.toNat < b.toNat) ∧ cmp (.leu e w) (a.toNat ≤ b.toNat) ∧
    (w ≠ some .byte → w ≠ some .quad →
      fcmp (.feq e w) (Sys2Proof.Machine.fcmp true FVal.same (g.read z (fpIn g x)) (g.read z (fpIn g y))) ∧
      fcmp (.flt e w) (Sys2Proof.Machine.fcmp false fLess (g.read z (fpIn g x)) (g.read z (fpIn g y))) ∧
      fcmp (.fle e w) (Sys2Proof.Machine.fcmp false fLessEq (g.read z (fpIn g x)) (g.read z (fpIn g y)))) ∧
    Calc s e (.sel e) 1 [f, y, x] [if f ≠ 0 then x else y] ∧
    (sz ≠ .s32 → Does s e (.bz e sz off) len { dops := [f], tgt := if f = 0 then some t else none, v := c.v, p := c.p } ∧
      Does s e (.bnz e sz off) len { dops := [f], tgt := if f = 0 then none else some t, v := c.v, p := c.p })

/-- Literals are sign-extended to 128 bits; under `LXH` the literal, sign-extended to 64 bits, replaces the upper half of the top
entry; `LX` gives `LIT32` eight literal bytes. -/
def Obligations.Literals : Prop :=
  ∀ (s : State) (e : Nat) (s8 : BitVec 8) (s16 : BitVec 16) (v : BitVec 64) (x : Entry128),
    Calc s e (.lit8 e s8 false) 2 [] [s8.signExtend 128] ∧
    Calc s e (.lit16 e s16 false) 3 [] [s16.signExtend 128] ∧
    Calc s e (.lit32 e v false false) 5 [] [(v.setWidth 32).signExtend 128] ∧
    Calc s e (.lit32 e v true false) 10 [] [v.signExtend 128] ∧
    Calc s e (.lit8 e s8 true) 3 [x] [s8.signExtend 64 ++ x.setWidth 64] ∧
    Calc s e (.lit16 e s16 true) 4 [x] [s16.signExtend 64 ++ x.setWidth 64] ∧
    Calc s e (.lit32 e v false true) 6 [x] [(v.setWidth 32).signExtend 64 ++ x.setWidth 64] ∧
    Calc s e (.lit32 e v true true) 11 [x] [v ++ x.setWidth 64]

/-- Floating-point instructions compute with the encodings that their operands hold at the format's width, under the task's rounding mode
and flushing, leave the result zero-extended and raise its conditions.
Model's choices and readings met here: DESIGN CHOICE, log 14; DEDUCED, logs 36, 37. -/
def Obligations.FloatingPoint : Prop :=
  ∀ (s : State) (e : Nat) (w : Option Width) (x y u : Entry128) (k : BitVec 8),
    w ≠ some .byte → w ≠ some .quad →
    let z := s.blk.fmode (s.blk.lead e)
    let f := fmtOf w
    let a := fpIn f x
    let b := fpIn f y
    let c := fpIn f u
    let n := preLen w + 2
    let fp := fun (i : Instr) (ops : List Entry128) (r : Nat × BitVec 6) => Calc s e i n ops [BitVec.ofNat 128 r.1] r.2
    fp (.fadd e w) [y, x] (f.add z (f.read z a) (f.read z b)) ∧ fp (.fsub e w) [y, x] (f.add z (f.read z a) (f.read z b).flip) ∧
    fp (.fmul e w) [y, x] (f.mul z (f.read z a) (f.read z b)) ∧ fp (.fdiv e w) [y, x] (f.div z (f.read z a) (f.read z b)) ∧
    fp (.fsqrt e w) [x] (f.sqrt z (f.read z a)) ∧
    fp (.fma e w) [u, y, x] (f.fma z (f.read z a) (f.read z b) (f.read z c)) ∧
    fp (.fmin e w) [y, x] (f.minmax z false a b) ∧ fp (.fmax e w) [y, x] (f.minmax z true a b) ∧
    fp (.fneg e w) [x] (fNeg f z a) ∧ fp (.fabs e w) [x] (fAbs f z a) ∧
    fp (.fclass e w) [x] (f.classMask a, 0) ∧
    (cvtOk (k.toNat / 16) (k.toNat % 16) = true →
      Calc s e (.fcvt e k) 3 [x] [(cvtRes (k.toNat / 16) (k.toNat % 16) z x).1] (cvtRes (k.toNat / 16) (k.toNat % 16) z x).2)

/-! Memory, control flow, control words and waits of an engine (R93, R99, R103 to R127, R313 to R321). -/

/-- Loads from memory return the bytes at the address little-endian, zero-extended, or sign-extended for `LDS` and `LDOS`; the offset
forms add a signed 16-bit offset.
Model's choices and readings met here: DEDUCED, log 29. -/
def Obligations.Loads : Prop :=
  ∀ (s : State) (e : Nat) (w : Width) (p : Option Width) (x : Entry128) (off : BitVec 16),
    let b := s.blk
    let l := b.lead e
    let y := (x + BitVec.ofInt 128 off.toInt).toNat
    let val := fun (a n : Nat) => leNat (b.viewN l a n)
    (b.memClear l .load x.toNat (Width.bytes w) = true →
      Calc s e (.ld e w) 1 [x] [BitVec.ofNat 128 (val x.toNat (Width.bytes w))] ∧
      (w ≠ .quad → Calc s e (.lds e w) 1 [x] [(BitVec.ofNat (Width.bits w) (val x.toNat (Width.bytes w))).signExtend 128])) ∧
    (x.toNat < 2 ^ 40 → b.memClear l .load y (Width.bytes (p.getD .quad)) = true →
      Calc s e (.ldo e p off) (preLen p + 3) [x] [BitVec.ofNat 128 (val y (Width.bytes (p.getD .quad)))]) ∧
    (p ≠ some .quad → x.toNat < 2 ^ 40 → b.memClear l .load y (Width.bytes (p.getD .dbl)) = true →
      Calc s e (.ldos e p off) (preLen p + 3) [x]
        [(BitVec.ofNat (Width.bits (p.getD .dbl)) (val y (Width.bytes (p.getD .dbl)))).signExtend 128])

/-- A store by an engine in Split writes the low bytes of its operand at the address, little-endian, and no other byte; through the set
and clear aliases it sets and clears bits. -/
def Rules.StoresInSplit : Prop :=
  ∀ (s : State) (e : Nat) (w : Width) (p : Option Width) (v x : Entry128) (off : BitVec 16),
    let b := s.blk
    let l := b.lead e
    let y := (x + BitVec.ofInt 128 off.toInt).toNat
    b.twin (l / 2) = false →
    (b.memClear l .store x.toNat (Width.bytes w) = true →
      Stores s e (.st e w) 1 [x, v] [] x.toNat (toLe (Width.bytes w) v.toNat)) ∧
    (x.toNat < 2 ^ 40 → b.memClear l .store y (Width.bytes (p.getD .quad)) = true →
      Stores s e (.sto e p off) (preLen p + 3) [x, v] [] y (toLe (Width.bytes (p.getD .quad)) v.toNat))

/-- An aligned store by a pair in Twin leaves memory as it is and joins the pair's outputs that wait for their release. -/
def Rules.StoreInTwinWaits : Prop :=
  ∀ (s : State) (e : Nat) (w : Width) (v x : Entry128) (under : List Entry128),
    let b := s.blk
    let l := b.lead e
    let n := Width.bytes w
    b.joined (l / 2) = true → b.quiet e 1 = true → b.memClear l .store x.toNat n = true → x.toNat % n = 0 →
    (b.stackOf l false).cache = x :: v :: under → under.length ≤ (b.stackOf l false).depth → (b.stackOf l true).fits 0 0 = true →
    ∃ b', exec (.st e w) s = .next { s with blk := b' } ∧ (∀ j, b'.byte j = b.byte j) ∧
      (b'.curTask l).pc = (b.curTask l).pc + 1 ∧ (b'.stackOf l false).cache = under ∧
      (b'.pair (l / 2)).q = (b.pair (l / 2)).q ++
        [{ cls := b.storeCls (l / 2) x.toNat, act := .store x.toNat (toLe n v.toNat), tgt := unalias x.toNat / 16 * 16,
           data := maskBytes (unalias x.toNat) n ++ toLe n v.toNat, spc := (b.pair (l / 2)).spc }]

/-- Stores of an engine, in Split at once and in Twin held for release.
Model's choices and readings met here: DEDUCED, logs 22, 29. -/
def Obligations.StoreInstructions : Prop := Rules.StoresInSplit ∧ Rules.StoreInTwinWaits

/-- Atomics of an engine in Split return the old value zero-extended and write, at once, the new value: for `CAS` the new operand where
the old value equals the expected one, for `ADDM` the sum modulo the width. -/
def Obligations.AtomicsInSplit : Prop :=
  ∀ (s : State) (e : Nat) (p : Option Width) (a v x : Entry128),
    let b := s.blk
    let l := b.lead e
    let n := wq p / 8
    let old := leNat (b.bytes a.toNat n)
    p ≠ some .byte → p ≠ some .half → b.twin (l / 2) = false → b.memClear l .atomic a.toNat n = true →
    Stores s e (.swapm e p) (preLen p + 1) [a, v] [BitVec.ofNat 128 old] a.toNat (toLe n v.toNat) ∧
    Stores s e (.addm e p) (preLen p + 1) [a, v] [BitVec.ofNat 128 old] a.toNat (toLe n (old + v.toNat)) ∧
    Stores s e (.cas e p) (preLen p + 1) [a, v, x] [BitVec.ofNat 128 old] a.toNat
      (toLe n (if old = x.toNat % 2 ^ wq p then v.toNat else old))

/-- A block copy of `n` bytes in Split, with enough units, leaves at the target what stood at the source before it, however the two
overlap, and every other byte alone: the bytes are copied as if all were read before any is written.
Model's choices and readings met here: DESIGN CHOICE, log 21; DEDUCED, log 43. -/
def Obligations.BlockCopyMovesBytes : Prop :=
  ∀ (s : State) (e units n src dst : Nat) (under : List Entry128),
    let b := s.blk
    let l := b.lead e
    let area := fun (a k : Nat) => ∀ j, j < k → a + j < 0x1800000 ∧ b.admits l (b.pl l) (some (l / 2)) .load (a + j) = true ∧
      b.admits l (b.pl l) (some (l / 2)) .store (a + j) = true ∧ b.bankOn ((a + j) / 0x40000) = true ∧ b.eccAt (a + j) = 0
    b.twin (l / 2) = false → b.quiet e 1 = true → n ≤ 4096 → n ≤ units → area src n → area dst n →
    (∀ k, k < 8 → b.rb (Reg.bpCtrl (b.cfgEng l) k) 0 = false) → (b.curTask l).vix = 0 →
    (b.stackOf l false).cache = BitVec.ofNat 128 n :: BitVec.ofNat 128 dst :: BitVec.ofNat 128 src :: under →
    under.length ≤ (b.stackOf l false).depth → (b.stackOf l true).fits 0 0 = true →
    ∃ b', exec (.movb e units) s = .next { s with blk := b' } ∧
      (∀ j, b'.byte j = if dst ≤ j ∧ j < dst + n then b.byte (src + (j - dst)) else b.byte j) ∧
      (b'.curTask l).pc = (b.curTask l).pc + 1 ∧ (b'.curTask l).vix = 0 ∧ (b'.stackOf l false).cache = under

/-- Branches, calls and returns go where the spec says; a call leaves the address behind it on the return stack. -/
def Rules.ControlFlow : Prop :=
  ∀ (s : State) (e : Nat) (sz : OffSize) (off : BitVec 32) (f : Entry128),
    let c := s.blk.curTask (s.blk.lead e)
    let n := 8 * OffSize.bytes sz
    let len := 1 + OffSize.bytes sz
    let t := (((c.pc.toNat + len : Nat) + (off.setWidth n).toInt) % 2 ^ 40).toNat
    let ra := fun (k : Nat) => BitVec.ofNat 128 (c.pc.toNat + k)
    Does s e (.br e sz off) len { tgt := some t, v := c.v, p := c.p } ∧
    (sz ≠ .s8 → Does s e (.call e sz off) len { rres := [ra len], tgt := some t, v := c.v, p := c.p }) ∧
    Does s e (.ret e) 1 { rops := [f], tgt := some f.toNat, v := c.v, p := c.p } ∧
    Does s e (.jmps e) 1 { dops := [f], tgt := some f.toNat, v := c.v, p := c.p } ∧
    Does s e (.calls e) 1 { dops := [f], rres := [ra 1], tgt := some f.toNat, v := c.v, p := c.p }

/-- `REP` with `LC` at 0 passes over its instruction; `REP ADDI` in Split, with enough iterations allowed, adds the literal `LC` times and
leaves `LC` at 0, the PC behind both bytes of the addition. -/
def Rules.Repeats : Prop :=
  ∀ (s : State) (e n : Nat) (s8 : BitVec 8) (x : Entry128) (under : List Entry128),
    let b := s.blk
    let l := b.lead e
    let c := b.curTask l
    b.twin (l / 2) = false → b.quiet e 3 = true → c.lc.toNat ≤ n → (b.stackOf l false).cache = x :: under →
    (b.stackOf l false).fits 0 0 = true → (b.stackOf l true).fits 0 0 = true →
    ∃ b', exec (.rep e n (.addi e none s8)) s = .next { s with blk := b' } ∧
      b.Ran b' e { c with lc := 0, pc := c.pc + 3 } ((x + BitVec.ofNat 128 c.lc.toNat * s8.signExtend 128) :: under)
        (b.stackOf l true).cache

/-- Branches, calls and returns, and `REP`.
Model's choices and readings met here: DESIGN CHOICE, log 21; DEDUCED, log 41. -/
def Obligations.FlowAndRepeats : Prop := Rules.ControlFlow ∧ Rules.Repeats

/-- `CRD` pushes the control word that the executing level may read, zero-extended; `STKSTAT` below PL 3 shows the occupancy after the
push itself. `CWR` takes its operand and stores the writable bits of each word listed here.
Model's choices and readings met here: DEDUCED, logs 56, 162. -/
def Obligations.ControlWords : Prop :=
  ∀ (s : State) (e : Nat) (i : BitVec 16) (x : Entry128) (under : List Entry128),
    let b := s.blk
    let l := b.lead e
    let c := b.curTask l
    let v := x.setWidth 32
    (∀ r w, ctlLevels i.toNat = some (r, w) → r ≤ b.pl l → (i ≠ 0x018 ∨ b.pl l = 3) →
      Calc s e (.crd e i) 3 [] [(b.ctlGet l (b.eng l).cur i.toNat).setWidth 128]) ∧
    (b.pl l ≠ 3 → c.ds.length < 12 →
      Calc s e (.crd e 0x018) 3 [] [BitVec.ofNat 128 (c.ds.length + 1 + 256 * c.rs.length)]) ∧
    (∀ k m, (k, m) ∈ [((0x001 : BitVec 16), (0x73F3F : Word)), (0x004, 0xFFFFFFFF), (0x005, 0xFFFF), (0x011, 0x1FFFFF0), (0x012, 0x1FFFFF0),
        (0x015, 0x1FFFFF0), (0x016, 0x1FFFFF0), (0x020, 0xFFFFFFFF), (0x021, 0xFFFFFFFF), (0x022, 0xFFFFFDFF), (0x023, 0xFFFFFFFF),
        (0x028, 0xFFFFFC00), (0x040, 0xFFFFFFFF), (0x041, 0xFFFFFFFF), (0x042, 0xFFFFFFFF), (0x043, 0xFFFFFFFF), (0x048, 0xFFFFFC00),
        (0x049, 0x3BCFE)] →
      i = k → (∀ r w, ctlLevels i.toNat = some (r, some w) → w ≤ b.pl l) → b.quiet e 3 = true →
      (b.stackOf l false).cache = x :: under → under.length ≤ (b.stackOf l false).depth → (b.stackOf l true).fits 0 0 = true →
      ∃ b', exec (.cwr e i) s = .next { s with blk := b' } ∧ b'.ctlGet l (b.eng l).cur i.toNat = v &&& m ∧
        (b'.stackOf l false).cache = under ∧ (b'.curTask l).pc = c.pc + 3 ∧ b'.mem = b.mem)

/-- `FENCE` with no store or atomic outstanding completes; `SYNC`, with no write of a ROUTER page waiting for its release, makes the pending
writes of the engine and its task govern; `SYNC.I` fills the
fetch buffer again with the 32 bytes behind it. -/
def Rules.Synchronising : Prop :=
  ∀ (s : State) (e : Nat),
    let b := s.blk
    let l := b.lead e
    let c := b.curTask l
    (b.fenced l = true → Calc s e (.fence e) 1 [] []) ∧
    (b.quiet e 2 = true → (b.stackOf l false).fits 0 0 = true → (b.stackOf l true).fits 0 0 = true →
      (b.routerWaits (l / 2) = false → ∃ b', exec (.sync e) s = .next { s with blk := b' } ∧ (b'.eng l).svecLive = (b.eng l).svec ∧ (b'.eng l).mvecLive = (b.eng l).mvec ∧
        (b'.eng l).delegLive = (b.eng l).deleg ∧ (b'.eng l).regOld = [] ∧ (b'.curTask l).vcfgLive = c.vcfg ∧
        (b'.curTask l).precLive = tbit c.tstat 3 ∧ (b'.curTask l).pc = c.pc + 2 ∧ b'.mem = b.mem) ∧
      (∃ b', exec (.syncI e) s = .next { s with blk := b' } ∧ (b'.eng l).fpc = c.pc.toNat + 2 ∧
        (b'.eng l).fbuf = b.fetchN l (b.pl l) (c.pc.toNat + 2) 32 ∧ (b'.curTask l).pc = c.pc + 2 ∧ b'.mem = b.mem))

/-- `EVDONE` of the source on top of the priority stack pops it, where no source is enabled; of any other it completes and raises
`ROUTER_ORDER` at machine level, the stack as it was. `SEV` of a task of the own pair that does not wait sets its event flag. -/
def Rules.EventInstructions : Prop :=
  ∀ (s : State) (e t : Nat) (x : Entry128) (under : List Entry128),
    let b := s.blk
    let l := b.lead e
    let c := b.curTask l
    b.quiet e 2 = true → (b.stackOf l false).cache = x :: under → under.length ≤ (b.stackOf l false).depth →
    (b.stackOf l true).fits 0 0 = true →
    (∀ r rest, (b.eng l).stack = r :: rest → r.src = x.toNat % 1024 → b.enabledSrcs = [] →
      ∃ b', exec (.evdone e) s = .next { s with blk := b' } ∧ (b'.eng l).stack = rest ∧ (b'.stackOf l false).cache = under ∧
        (b'.curTask l).pc = c.pc + 2 ∧ b'.mem = b.mem) ∧
    (∀ r rest, (b.eng l).stack = r :: rest → r.src ≠ x.toNat % 1024 →
      ∃ b', exec (.evdone e) s = .next { s with blk := b' } ∧ (b'.eng l).stack = r :: rest ∧ b'.pl l = 3 ∧
        (b'.eng l).minfo = BitVec.ofNat 32 (x.toNat % 1024 + r.src * 2 ^ 16) ∧ (b'.eng l).msavePc = c.pc + 2 ∧
        fld (b'.eng l).mcause 0 8 = 0x13 ∧ b'.rb (regKey 0x010 Reg.hEvtRaw) 1 = true) ∧
    (t < 64 → x.toNat % 2 ^ 13 = t + l * 2 ^ 8 → b.sevRefused l = false → b.redirect l = l → (b.task l t).st ≠ .waiting →
      ∃ b', exec (.sev e) s = .next { s with blk := b' } ∧ (b'.task l t).evf = true ∧ (b'.stackOf l false).cache = under ∧
        (b'.curTask l).pc = c.pc + 2 ∧ b'.mem = b.mem)

/-- A wait whose condition holds at its issue completes with no wait: `WFE` leaves 0 for the event, which wins and is cleared, and 1 for
the time; `WFEX` raises `WAIT_TIMEOUT` for the time. A wait of a task below PL 3 whose condition does not hold leaves Running. -/
def Rules.Waits : Prop :=
  ∀ (s : State) (e : Nat) (x : Entry128) (under : List Entry128),
    let b := s.blk
    let l := b.lead e
    let t := (b.eng l).cur
    let c := b.curTask l
    let due := x.setWidth 64 ≠ 0 ∧ x.setWidth 64 ≤ b.tb.cnt
    let goes := fun (i : Instr) (out : List Entry128) (evf : Bool) =>
      ∃ b', exec i s = .next { s with blk := b' } ∧ (b'.stackOf l false).cache = out ++ under ∧ (b'.curTask l).evf = evf ∧
        (b'.curTask l).pc = c.pc + 2 ∧ b'.mem = b.mem
    let waits := fun (i : Instr) (k : WaitKind) =>
      ∃ b', exec i s = .next { s with blk := b' } ∧ (b'.task l t).st = .waiting ∧ (b'.task l t).wait = some k ∧
        (b'.eng l).run = false ∧ (b'.task l t).pc = c.pc ∧ (b'.task l t).ds = x :: under
    b.quiet e 2 = true → (b.stackOf l false).cache = x :: under →
    under.length < (b.stackOf l false).depth → (b.stackOf l true).fits 0 0 = true → c.chain = [] →
    (c.evf = true → goes (.wfe e) [0] false ∧ goes (.wfex e) [] false) ∧
    (c.evf = false → due → goes (.wfe e) [1] false ∧
      ∃ b', exec (.wfex e) s = .next { s with blk := b' } ∧ fld (if b'.pl l = 3 then (b'.eng l).mcause else (b'.curTask l).scause) 0 8 = 0x11 ∧
        (if b'.pl l = 3 then (b'.eng l).msavePc else (b'.curTask l).ssavePc) = c.pc + 2) ∧
    (due ∨ x.setWidth 64 = 0 → goes (.waitt e) [] c.evf) ∧
    (b.pl l ≠ 3 → c.evf = false → ¬ due → waits (.wfe e) .wfe ∧ waits (.wfex e) .wfex) ∧
    (b.pl l ≠ 3 → ¬ due → x.setWidth 64 ≠ 0 → waits (.waitt e) .waitt)

/-- Instructions that synchronise, post or complete events, or wait. -/
def Obligations.SyncEventsAndWaits : Prop := Rules.Synchronising ∧ Rules.EventInstructions ∧ Rules.Waits

/-! Exceptions (R150 to R170). -/

/-- `SYSCALL` and `BREAK` complete and enter their handler: taken at PL 1 only from PL 0 with the cause delegated, else at PL 3, they
save the address behind them, the status word, the cause word and the info word in the words of that level, set the level, clear IE and
go to the vector's entry of 32 bytes a cause. A form that the table does not have, `SRET` at PL 3 and `CRD` of no control word raise
`ILLEGAL_OP`, the saved PC that of the instruction. -/
def Rules.ExceptionEntry : Prop :=
  ∀ (s : State) (e : Nat) (u : BitVec 8) (i : BitVec 16) (off : BitVec 32),
    let b := s.blk
    let l := b.lead e
    let c := b.curTask l
    let goes := fun (i : Instr) (len cause : Nat) (info : Word) =>
      b.quiet e len = true → (b.stackOf l false).fits 0 0 = true → (b.stackOf l true).fits 0 0 = true →
      ∃ b', exec i s = .next { s with blk := b' } ∧
        let lev := if b.pl l = 0 ∧ tbit (b.eng l).delegLive cause = true then 1 else 3
        let word := BitVec.ofNat 32 (cause + (if b.pl l = 3 then 2 ^ 9 else 0) + b.pl l * 2 ^ 10 + (b.eng l).cur % 64 * 2 ^ 18)
        b'.pl l = lev ∧ tbit (b'.curTask l).tstat 2 = false ∧
        (b'.curTask l).pc = (if lev = 3 then (b.eng l).mvecLive else (b.eng l).svecLive) + BitVec.ofNat 32 (cause * 0x20) ∧
        (if lev = 3 then
          (b'.eng l).msavePc = c.pc + BitVec.ofNat 32 len ∧ (b'.eng l).msaveStat = b.tstatRead l (b.eng l).cur ∧
          (b'.eng l).mcause = word ∧ (b'.eng l).minfo = info ∧ (b'.curTask l).ssavePc = c.ssavePc ∧ (b'.curTask l).scause = c.scause
        else
          (b'.curTask l).ssavePc = c.pc + BitVec.ofNat 32 len ∧ (b'.curTask l).ssaveStat = b.tstatRead l (b.eng l).cur ∧
          (b'.curTask l).scause = word ∧ (b'.curTask l).sinfo = info ∧ (b'.eng l).msavePc = (b.eng l).msavePc ∧
          (b'.eng l).mcause = (b.eng l).mcause) ∧
        (b'.curTask l).ds = c.ds ∧ (b'.curTask l).rs = c.rs ∧ (b'.curTask l).astat = c.astat ∧ (b'.curTask l).lc = c.lc ∧
        (b'.curTask l).vix = c.vix ∧ (b'.curTask l).vcfg = c.vcfg ∧ (b'.curTask l).v = c.v ∧ b'.mem = b.mem
    let refused := fun (i : Instr) (len : Nat) =>
      b.quiet e len = true →
      ∃ b', exec i s = .next { s with blk := b' } ∧
        let lev := if b.pl l = 0 ∧ tbit (b.eng l).delegLive 0x01 = true then 1 else 3
        b'.pl l = lev ∧ (b'.curTask l).pc = (if lev = 3 then (b.eng l).mvecLive else (b.eng l).svecLive) + 0x20 ∧
        (if lev = 3 then (b'.eng l).msavePc else (b'.curTask l).ssavePc) = c.pc ∧
        (b'.curTask l).ds = c.ds ∧ (b'.curTask l).rs = c.rs ∧ b'.mem = b.mem
    goes (.syscall e u) 2 0x0C (u.setWidth 32) ∧ goes (.breakpt e) 1 0x0D 0 ∧
    refused (.bz e .s32 off) 5 ∧ refused (.bnz e .s32 off) 5 ∧ refused (.call e .s8 off) 2 ∧
    (b.pl l = 3 → refused (.sret e) 2) ∧ (ctlLevels i.toNat = none → refused (.crd e i) 3)

/-- `SRET` and `MRET` restore the status word, but for PRIO, and the PC from the save words of their level, where the saved word passes
its check. -/
def Rules.ExceptionReturn : Prop :=
  ∀ (s : State) (e : Nat),
    let b := s.blk
    let l := b.lead e
    let c := b.curTask l
    let goes := fun (i : Instr) (stat pc : Word) =>
      fld stat 0 2 ≤ b.pl l → fld stat 0 2 ≠ 2 → fld stat 4 4 = 0 → fld stat 9 3 = 0 → fld stat 20 12 = 0 → c.held = [] →
      b.quiet e 2 = true → (b.stackOf l false).fits 0 0 = true → (b.stackOf l true).fits 0 0 = true →
      ∃ b', exec i s = .next { s with blk := b' } ∧ (b'.curTask l).pc = pc ∧ (b'.curTask l).tstat = stat &&& 0xF010F ∧
        b'.pl l = fld stat 0 2 ∧ (b'.curTask l).ds = c.ds ∧ (b'.curTask l).rs = c.rs ∧ (b'.curTask l).astat = c.astat ∧
        (b'.curTask l).precLive = tbit stat 3 ∧ b'.mem = b.mem
    (b.pl l = 1 → goes (.sret e) c.ssaveStat c.ssavePc) ∧ (b.pl l = 3 → goes (.mret e) (b.eng l).msaveStat (b.eng l).msavePc)

/-- Taking an exception and returning from one. -/
def Obligations.Exceptions : Prop := Rules.ExceptionEntry ∧ Rules.ExceptionReturn

/-! Vector instructions (R132 to R149). -/

/-- Integer vector instructions: each active element of the destination Sheaf holds the result on the elements of the sources, formed at
the element width; inactive elements keep their value or, under `ZM`, hold 0. -/
def Rules.VectorIntegers : Prop :=
  ∀ (s : State) (e : Nat) (d a b q : BitVec 4) (sh : BitVec 8),
    let l := s.blk.lead e
    let c := s.blk.vcfg l
    let x := s.blk.curTask l
    let n := c.bits
    let A := fun k => BitVec.ofNat n (c.el x a k)
    let B := fun k => BitVec.ofNat n (c.el x b k)
    let D := fun k => BitVec.ofNat n (c.el x d k)
    let vec := fun (i : Instr) (len : Nat) (f : Nat → BitVec n) => VecCalc s e i len d q fun k => ((f k).toNat, 0)
    let ov := fun (p : Prop) [Decidable p] => if p then condOV else (0 : BitVec 6)
    let sat := fun (v : Int) => ((BitVec.ofInt n (max (-(2 ^ (n - 1))) (min (2 ^ (n - 1) - 1) v))).toNat,
      ov (v < -(2 ^ (n - 1)) ∨ 2 ^ (n - 1) ≤ v))
    c.admits [d.toNat, a.toNat, b.toNat] q = true →
    vec (.vadd e d a b q) 4 (fun k => A k + B k) ∧ vec (.vsub e d a b q) 4 (fun k => A k - B k) ∧
    vec (.vand e d a b q) 4 (fun k => A k &&& B k) ∧ vec (.vor e d a b q) 4 (fun k => A k ||| B k) ∧
    vec (.vxor e d a b q) 4 (fun k => A k ^^^ B k) ∧ vec (.vnot e d a q) 4 (fun k => ~~~ A k) ∧
    VecCalc s e (.vneg e d a q) 4 d q (fun k => ((-A k).toNat, ov (A k = BitVec.intMin n))) ∧
    VecCalc s e (.vabs e d a q) 4 d q (fun k => ((if (A k).toInt < 0 then -A k else A k).toNat, ov (A k = BitVec.intMin n))) ∧
    vec (.vmin e d a b q) 4 (fun k => if (A k).toInt ≤ (B k).toInt then A k else B k) ∧
    vec (.vmax e d a b q) 4 (fun k => if (A k).toInt ≤ (B k).toInt then B k else A k) ∧
    vec (.vminu e d a b q) 4 (fun k => if (A k).toNat ≤ (B k).toNat then A k else B k) ∧
    vec (.vmaxu e d a b q) 4 (fun k => if (A k).toNat ≤ (B k).toNat then B k else A k) ∧
    VecCalc s e (.vadds e d a b q) 4 d q (fun k => sat ((A k).toInt + (B k).toInt)) ∧
    VecCalc s e (.vsubs e d a b q) 4 d q (fun k => sat ((A k).toInt - (B k).toInt)) ∧
    vec (.vshl e d a b q) 4 (fun k => A k <<< (B k).toNat) ∧ vec (.vshr e d a b q) 4 (fun k => A k >>> (B k).toNat) ∧
    vec (.vsar e d a b q) 4 (fun k => (A k).sshiftRight (B k).toNat) ∧
    vec (.vshli e d a q sh) 5 (fun k => A k <<< sh.toNat) ∧ vec (.vshri e d a q sh) 5 (fun k => A k >>> sh.toNat) ∧
    vec (.vsari e d a q sh) 5 (fun k => (A k).sshiftRight sh.toNat) ∧
    vec (.vmov e d a q) 4 A ∧ vec (.vmul e d a b q) 4 (fun k => A k * B k) ∧
    vec (.vmulh e d a b q) 4 (fun k => BitVec.ofInt n ((A k).toInt * (B k).toInt / 2 ^ n)) ∧
    vec (.vmac e d a b q) 4 (fun k => D k + A k * B k) ∧
    (c.ew ≠ 2 → VecCalc s e (.vmulq e d a b q) 4 d q (fun k => sat (((A k).toInt * (B k).toInt + 2 ^ (n - 2)) / 2 ^ (n - 1)))) ∧
    (q.getLsbD 3 = true → VecCalc s e (.vsel e d a b q) 4 d 0 (fun k => (c.el x (if c.active x q k then a else b) k, 0))) ∧
    VecCalc s e (.vperm e d a b q) 4 d q (fun k => (if c.elems ≤ c.el x b k then 0 else c.el x a (c.el x b k), 0))

/-- Floating-point vector instructions: each active element holds the scalar operation's result at the element format, and the
conditions of the active elements are raised together; 8-bit elements are refused. -/
def Rules.VectorFloats : Prop :=
  ∀ (s : State) (e : Nat) (d a b q : BitVec 4),
    let l := s.blk.lead e
    let c := s.blk.vcfg l
    let x := s.blk.curTask l
    let z := s.blk.fmode l
    let f := c.fmt
    let A := fun k => f.read z (c.el x a k)
    let B := fun k => f.read z (c.el x b k)
    let D := fun k => f.read z (c.el x d k)
    c.admits [d.toNat, a.toNat, b.toNat] q = true → c.ew ≠ 2 →
    VecCalc s e (.vfadd e d a b q) 4 d q (fun k => f.add z (A k) (B k)) ∧
    VecCalc s e (.vfsub e d a b q) 4 d q (fun k => f.add z (A k) (B k).flip) ∧
    VecCalc s e (.vfmul e d a b q) 4 d q (fun k => f.mul z (A k) (B k)) ∧
    VecCalc s e (.vfdiv e d a b q) 4 d q (fun k => f.div z (A k) (B k)) ∧
    VecCalc s e (.vfma e d a b q) 4 d q (fun k => f.fma z (A k) (B k) (D k)) ∧
    VecCalc s e (.vfnma e d a b q) 4 d q (fun k => f.fma z (A k).flip (B k) (D k)) ∧
    VecCalc s e (.vfsqrt e d a q) 4 d q (fun k => f.sqrt z (A k)) ∧
    VecCalc s e (.vfmin e d a b q) 4 d q (fun k => f.minmax z false (c.el x a k) (c.el x b k)) ∧
    VecCalc s e (.vfmax e d a b q) 4 d q (fun k => f.minmax z true (c.el x a k) (c.el x b k)) ∧
    VecCalc s e (.vfneg e d a q) 4 d q (fun k => fNeg f z (c.el x a k)) ∧
    VecCalc s e (.vfabs e d a q) 4 d q (fun k => fAbs f z (c.el x a k)) ∧
    VecCalc s e (.vfcvti e d a q) 4 d q (fun k =>
      let r := toInt (-(2 ^ (c.bits - 1))) (2 ^ (c.bits - 1) - 1) (A k)
      ((BitVec.ofInt c.bits r.1).toNat, r.2)) ∧
    VecCalc s e (.vfcvtf e d a q) 4 d q (fun k => f.ofInt z (BitVec.ofNat c.bits (c.el x a k)).toInt)

/-- Vector arithmetic, element by element.
Model's choices and readings met here: DESIGN CHOICE, log 14; DEDUCED, logs 36, 37. -/
def Obligations.VectorArithmetic : Prop := Rules.VectorIntegers ∧ Rules.VectorFloats

/-- Vector comparisons leave a predicate Sheaf in which the active elements that compare true are active and all others inactive. -/
def Rules.VectorComparisons : Prop :=
  ∀ (s : State) (e : Nat) (a b q : BitVec 4) (pd : BitVec 3),
    let l := s.blk.lead e
    let c := s.blk.vcfg l
    let x := s.blk.curTask l
    let z := s.blk.fmode l
    let A := fun k => BitVec.ofNat c.bits (c.el x a k)
    let B := fun k => BitVec.ofNat c.bits (c.el x b k)
    let F := fun k => c.fmt.read z (c.el x a k)
    let G := fun k => c.fmt.read z (c.el x b k)
    c.admits [a.toNat, b.toNat, pd.toNat] q = true →
    PredCalc s e (.vcmpeq e a b pd q) 4 pd q (fun k => (decide (A k = B k), 0)) ∧
    PredCalc s e (.vcmplt e a b pd q) 4 pd q (fun k => (decide ((A k).toInt < (B k).toInt), 0)) ∧
    PredCalc s e (.vcmple e a b pd q) 4 pd q (fun k => (decide ((A k).toInt ≤ (B k).toInt), 0)) ∧
    PredCalc s e (.vcmpltu e a b pd q) 4 pd q (fun k => (decide ((A k).toNat < (B k).toNat), 0)) ∧
    (c.ew ≠ 2 → PredCalc s e (.vfcmpeq e a b pd q) 4 pd q (fun k => fcmp true FVal.same (F k) (G k)) ∧
      PredCalc s e (.vfcmplt e a b pd q) 4 pd q (fun k => fcmp false fLess (F k) (G k)) ∧
      PredCalc s e (.vfcmple e a b pd q) 4 pd q (fun k => fcmp false fLessEq (F k) (G k)))

/-- Predicate instructions act on whole predicate Sheaves, bit by bit; `PRD`, `PWR` and `PCNT` move and count them, and `VWHILE` makes the
first n elements active and leaves what remains of n. -/
def Rules.Predicates : Prop :=
  ∀ (s : State) (e : Nat) (pd pa pb : BitVec 3) (y : Entry128),
    let l := s.blk.lead e
    let c := s.blk.vcfg l
    let x := s.blk.curTask l
    let g := 16 * c.g
    let P := fun (r : BitVec 3) (j : Nat) => (x.preg (r.toNat + j / 16)).getLsbD (j % 16)
    let leaves := fun (i : Instr) (len : Nat) (ops res : List Entry128) (f : Nat → Bool) => ∃ p : Tab (BitVec 16),
      (∀ r, r < pd.toNat ∨ pd.toNat + c.g ≤ r → Tab.get (fun _ => (0 : BitVec 16)) p r = x.preg r) ∧
      (∀ j, j < g → (Tab.get (fun _ => (0 : BitVec 16)) p (pd.toNat + j / 16)).getLsbD (j % 16) = f j) ∧
      Does s e i len { dops := ops, dres := res, v := x.v, p := p }
    let n := Nat.min (y.setWidth 64).toNat c.elems
    c.admits [pd.toNat, pa.toNat, pb.toNat] 0 = true →
    leaves (.pand e pd pa pb) 4 [] [] (fun j => P pa j && P pb j) ∧ leaves (.por e pd pa pb) 4 [] [] (fun j => P pa j || P pb j) ∧
    leaves (.pxor e pd pa pb) 4 [] [] (fun j => P pa j != P pb j) ∧ leaves (.pnot e pd pa) 4 [] [] (fun j => !(P pa j)) ∧
    leaves (.pall e pd) 3 [] [] (fun _ => true) ∧ leaves (.pwr e pd) 3 [y] [] (fun j => y.getLsbD j) ∧
    leaves (.vwhile e pd) 3 [y] [BitVec.ofNat 128 ((y.setWidth 64).toNat - n)] (fun j => decide (j / c.size < n)) ∧
    (∃ r : Entry128, (∀ j, r.getLsbD j = (decide (j < g) && P pa j)) ∧ Calc s e (.prd e pa) 3 [] [r]) ∧
    Calc s e (.pcnt e pa) 3 [] [BitVec.ofNat 128 ((List.range c.elems).countP fun k => P pa (k * c.size))]

/-- Vector comparisons and predicate instructions. -/
def Obligations.VectorTests : Prop := Rules.VectorComparisons ∧ Rules.Predicates

/-- Transfers between elements and the data stack, and reductions over the active elements in ascending order.
Model's choices and readings met here: DEDUCED, logs 37, 38. -/
def Obligations.VectorTransfersAndReductions : Prop :=
  ∀ (s : State) (e : Nat) (v q : BitVec 4) (x k : Entry128),
    let l := s.blk.lead e
    let c := s.blk.vcfg l
    let t := s.blk.curTask l
    let n := c.bits
    let A := fun j => BitVec.ofNat n (c.el t v j)
    let act := (List.range c.elems).filter fun j => c.active t q j
    let i := (k.setWidth 16).toNat
    c.admits [v.toNat] q = true →
    (∃ w : Tab Entry128, (∀ r, r < v.toNat ∨ v.toNat + c.g ≤ r → Tab.get (fun _ => (0 : Entry128)) w r = t.vreg r) ∧
      (∀ j, j < c.elems → c.el { t with v := w } v j = if c.active t q j then x.toNat % 2 ^ n else if c.zm then 0 else c.el t v j) ∧
      Does s e (.vsplat e v q) 3 { dops := [x], v := w, p := t.p }) ∧
    Calc s e (.vext e v) 3 [k] [if i < c.elems then (A i).signExtend 128 else 0] ∧
    (∃ w : Tab Entry128, (∀ r, r < v.toNat ∨ v.toNat + c.g ≤ r → Tab.get (fun _ => (0 : Entry128)) w r = t.vreg r) ∧
      (∀ j, j < c.elems → c.el { t with v := w } v j = if j = i then x.toNat % 2 ^ n else c.el t v j) ∧
      Does s e (.vins e v) 3 { dops := [k, x], v := w, p := t.p }) ∧
    Calc s e (.vredadd e v q) 3 [] [(act.foldl (fun a j => a + A j) 0).signExtend 128] ∧
    Calc s e (.vredmin e v q) 3 [] [BitVec.ofInt 128 (act.foldl (fun a j => min a (A j).toInt) (2 ^ (n - 1) - 1))] ∧
    Calc s e (.vredmax e v q) 3 [] [BitVec.ofInt 128 (act.foldl (fun a j => max a (A j).toInt) (-(2 ^ (n - 1))))] ∧
    (c.ew ≠ 2 →
      let r := fsum c.fmt (s.blk.fmode l) (act.map fun j => c.el t v j)
      Calc s e (.vfredadd e v q) 3 [] [BitVec.ofNat 128 r.1] r.2)

/-- Vector loads from memory with every element aligned and granted: `VLD` and `VLDP` take contiguous elements, `VLD2` to `VLD4` records of
fields into Sheaves one behind the other, `VGATHER` elements at offsets; only active elements change, or inactive ones become 0 under
`ZM`. The structured forms complete with `VIX` at 0 when enough elements may be done. -/
def Rules.VectorLoads : Prop :=
  ∀ (s : State) (e units : Nat) (v q i : BitVec 4) (x : Entry128) (under : List Entry128),
    let b := s.blk
    let l := b.lead e
    let c := b.vcfg l
    let t := b.curTask l
    let z := c.size
    let a := x.toNat
    let act := (List.range c.elems).filter fun k => c.active t q k
    let at' := fun (y : Nat) => leNat (b.viewN l y z)
    let goes := fun (ins : Instr) (len f : Nat) (out : List Entry128) (addr : Nat → Nat → Nat) =>
      b.quiet e len = true → b.elemsClear l .load z (act.flatMap fun k => (List.range f).map fun j => addr j k) = true →
      ∃ b', exec ins s = .next { s with blk := b' } ∧ (b'.stackOf l false).cache = out ++ under ∧
        (b'.curTask l).pc = t.pc + BitVec.ofNat 32 len ∧ b'.mem = b.mem ∧
        (∀ r, r < v.toNat ∨ v.toNat + f * c.g ≤ r → (b'.curTask l).vreg r = t.vreg r) ∧
        (∀ j k, j < f → k < c.elems → c.el (b'.curTask l) (v + BitVec.ofNat 4 (j * c.g)) k =
          if c.active t q k then at' (addr j k) else if c.zm then 0 else c.el t (v + BitVec.ofNat 4 (j * c.g)) k)
    let resumed := fun (ins : Instr) (len f : Nat) (addr : Nat → Nat → Nat) =>
      t.vix = 0 → c.elems ≤ units → b.twin (l / 2) = false → goes ins len f [] addr
    c.admits [v.toNat, i.toNat] q = true → (b.stackOf l false).cache = x :: under → under.length < (b.stackOf l false).depth →
    (b.stackOf l true).fits 0 0 = true →
    (a % z = 0 → goes (.vld e v q) 3 1 [] (fun _ k => a + k * z)) ∧
    (a % z = 0 → goes (.vldp e v q) 3 1 [x + BitVec.ofNat 128 (16 * c.g)] (fun _ k => a + k * z)) ∧
    (v.toNat + 2 * c.g ≤ 16 → resumed (.vld2 e v q units) 3 2 (fun j k => a + (k * 2 + j) * z)) ∧
    (v.toNat + 3 * c.g ≤ 16 → resumed (.vld3 e v q units) 3 3 (fun j k => a + (k * 3 + j) * z)) ∧
    (v.toNat + 4 * c.g ≤ 16 → resumed (.vld4 e v q units) 3 4 (fun j k => a + (k * 4 + j) * z)) ∧
    (v ≠ i → (∀ k, k < c.elems → v.toNat + c.g ≤ i.toNat ∨ i.toNat + c.g ≤ v.toNat) →
      resumed (.vgather e v q i units) 4 1 (fun _ k => a + c.el t i k))

/-- Vector stores of an engine in Split with every element aligned and granted: `VST` and `VSTP` write the active elements contiguously,
`VSCATTER` at offsets that do not meet; every other byte of memory keeps its value. -/
def Rules.VectorStores : Prop :=
  ∀ (s : State) (e units : Nat) (v q i : BitVec 4) (x : Entry128) (under : List Entry128),
    let b := s.blk
    let l := b.lead e
    let c := b.vcfg l
    let t := b.curTask l
    let z := c.size
    let a := x.toNat
    let act := (List.range c.elems).filter fun k => c.active t q k
    let goes := fun (ins : Instr) (len : Nat) (out : List Entry128) (addr : Nat → Nat) =>
      b.quiet e len = true → b.elemsClear l .store z (act.map addr) = true → (∀ k, k < c.elems → place (addr k) = .scratch) →
      (∀ j k, j ∈ act → k ∈ act → j ≠ k → addr j + z ≤ addr k ∨ addr k + z ≤ addr j) →
      ∃ b', exec ins s = .next { s with blk := b' } ∧ (b'.stackOf l false).cache = out ++ under ∧
        (b'.curTask l).pc = t.pc + BitVec.ofNat 32 len ∧ (b'.curTask l).v = t.v ∧
        (∀ k, k ∈ act → leNat (b'.bytes (addr k) z) = c.el t v k) ∧
        (∀ j, (∀ k, k ∈ act → j < addr k ∨ addr k + z ≤ j) → b'.byte j = b.byte j)
    c.admits [v.toNat, i.toNat] q = true → (b.stackOf l false).cache = x :: under → under.length < (b.stackOf l false).depth →
    (b.stackOf l true).fits 0 0 = true → b.twin (l / 2) = false →
    (a % z = 0 → goes (.vst e v q) 3 [] (fun k => a + k * z)) ∧
    (a % z = 0 → goes (.vstp e v q) 3 [x + BitVec.ofNat 128 (16 * c.g)] (fun k => a + k * z)) ∧
    (t.vix = 0 → c.elems ≤ units → goes (.vscatter e v q i units) 4 [] (fun k => a + c.el t i k))

/-- Vector loads and stores.
Model's choices and readings met here: DESIGN CHOICE, log 21. -/
def Obligations.VectorMemory : Prop := Rules.VectorLoads ∧ Rules.VectorStores

/-! Tasks, the event router and the timebase (R48 to R56, R172 to R220, R268). -/

/-- `TASK_CMD` moves a task between its states as the table of R173 says; a command that the table does not list for the task's state sets
the engine page's `FAULT` bit 0 and nothing else. In a pair in Twin that a debug halt has broken it acts on both engines. -/
def Rules.TaskCommands : Prop :=
  ∀ (s : State) (m e : Nat), e < 16 → s.blk.grants m (Reg.taskCmd e) = true →
    let b := s.blk
    let l := b.cfgEng e
    let t := b.rf (Reg.taskSel l) 0 6
    let c := b.task l t
    let ready := fun (x : TaskCtx) => b.setTask l t { x with st := .ready, readyAt := b.moment l }
    let refused := b.flt (0x020 + l) 0
    (b.apart l = true → c.st = .idle → (b.task (l + 1) t).st = .idle → Leaves s (.taskHalt m e)
      ((b.setTask l t { c with st := .halted }).setTask (l + 1) t { b.task (l + 1) t with st := .halted })) ∧
    (b.captured (l / 2) = false → (b.joined (l / 2) = true → (b.pair (l / 2)).phase = .live) → b.apart l = false →
    (c.st = .idle → Leaves s (.taskStart m e) (ready c) ∧ Leaves s (.taskHalt m e) (b.setTask l t { c with st := .halted }) ∧
      Leaves s (.taskStop m e) refused) ∧
    (c.st = .ready → Leaves s (.taskStop m e) (b.setTask l t { c with st := .idle, byp := false, woke := none }) ∧
      Leaves s (.taskHalt m e) (b.setTask l t { c with st := .halted, woke := none })) ∧
    (c.st = .waiting → Leaves s (.taskStop m e) (b.setTask l t { c with st := .idle, byp := false }) ∧
      Leaves s (.taskHalt m e) (b.setTask l t { c with st := .halted })) ∧
    (c.st = .halted → Leaves s (.taskStop m e) (b.setTask l t { c with st := .idle, byp := false, dbgHalt := false }) ∧
      Leaves s (.taskResume m e) (ready { c with dbgHalt := false }) ∧ Leaves s (.taskHalt m e) refused) ∧
    (c.st = .running → (b.eng l).run = true → (b.eng l).cur = t → (b.eng l).arith = none → b.pl l ≠ 3 → b.midInstr l = false →
      Leaves s (.taskStop m e)
        ((b.setTask l t { c with st := .idle, req := none, byp := false }).setEng l { b.eng l with run := false }) ∧
      Leaves s (.taskHalt m e) ((b.setTask l t { c with st := .halted, req := none }).setEng l { b.eng l with run := false })) ∧
    (c.st ≠ .idle → Leaves s (.taskStart m e) refused) ∧ (c.st ≠ .halted → Leaves s (.taskResume m e) refused))

/-- `CTX_CMD` copies the selected item of an Idle or Halted task to or from the four data registers; for a task in another state READ
leaves zero there, WRITE changes nothing, and either sets `FAULT` bit 1. WRITE acts on both engines of a broken pair in Twin. -/
def Rules.ContextCommands : Prop :=
  ∀ (s : State) (m e : Nat), e < 16 → s.blk.grants m (Reg.ctxCmd e) = true →
    let b := s.blk
    let l := b.cfgEng e
    let t := b.rf (Reg.taskSel l) 0 6
    let i := b.rf (Reg.ctxIdx l) 0 12
    let c := b.task l t
    let win := b.reg (Reg.ctxD l 3) ++ b.reg (Reg.ctxD l 2) ++ b.reg (Reg.ctxD l 1) ++ b.reg (Reg.ctxD l 0)
    let reads := fun (v : Entry128) => Ends s (.ctxRead m e) fun b' =>
      b.OnlyRegs b' ((List.range 4).map (Reg.ctxD l)) ∧ ∀ j, j < 4 → b'.reg (Reg.ctxD l j) = (v >>> (32 * j)).setWidth 32
    let writes := fun (f : TaskCtx → TaskCtx) => Leaves s (.ctxWrite m e)
      (if b.apart l then (b.setTask l t (f c)).setTask (l + 1) t (f (b.task (l + 1) t)) else b.setTask l t (f c))
    (c.st = .idle ∨ c.st = .halted →
      (i < 12 → i < c.ds.length → reads (c.ds.getD i 0) ∧ writes (fun x => { x with ds := x.ds.set i win })) ∧
      (0x10 ≤ i → i < 0x1C → i - 0x10 < c.rs.length → reads (c.rs.getD (i - 0x10) 0) ∧ writes (fun x => { x with rs := x.rs.set (i - 0x10) win })) ∧
      (0x20 ≤ i → i < 0x30 → reads (c.vreg (i - 0x20)) ∧ writes (fun x => { x with v := Tab.set (fun _ => 0) x.v (i - 0x20) win })) ∧
      (i = 0x40 → reads (c.pc.setWidth 128) ∧ writes (fun x => { x with pc := win.setWidth 32 })) ∧
      (i = 0x801 → reads (c.astat.setWidth 128) ∧ writes (fun x => { x with astat := win.setWidth 32 &&& 0x73F3F }))) ∧
    (c.st ≠ .idle → c.st ≠ .halted → Leaves s (.ctxWrite m e) (b.flt (0x020 + l) 1) ∧
      Ends s (.ctxRead m e) fun b' => b.OnlyRegs b' (regKey (0x020 + l) Reg.hFault :: (List.range 4).map (Reg.ctxD l)) ∧
        b'.rb (regKey (0x020 + l) Reg.hFault) 1 = true ∧ ∀ j, j < 4 → b'.reg (Reg.ctxD l j) = 0)

/-- Commands of the task control registers and of the context window.
Model's choices and readings met here: DEDUCED, logs 17, 50. -/
def Obligations.TaskControl : Prop := Rules.TaskCommands ∧ Rules.ContextCommands

/-- Writes of the router's and the binding registers: `PEND_SET` and `PEND_CLR` set and clear the software pending bit they number,
`LVLMAP` and `BYPMAP` take every writable bit (each of the 64 tasks exists), a 1 written to `QUAR` releases its source and zeroes its
count, and the level of an external source is what its input shows. -/
def Rules.RouterRegisters : Prop :=
  ∀ (s : State) (m e j k : Nat) (v : Word) (level : Bool),
    let b := s.blk
    let n := fld v 0 10
    let bound := fun (r : Nat) => b.setReg r ((b.reg r &&& 0x40404040) ||| (v &&& 0xBFBFBFBF))
    (b.grants m Reg.pendSet = true → Leaves s (.pendSet m v) (b.setBit (Reg.swpend (n / 32)) (n % 32))) ∧
    (b.grants m Reg.pendClr = true → Leaves s (.pendClr m v) (b.clrBit (Reg.swpend (n / 32)) (n % 32))) ∧
    (e < 16 → j < 4 → b.grants m (Reg.lvlmap e j) = true → Leaves s (.lvlmap m e j v) (bound (Reg.lvlmap (b.cfgEng e) j))) ∧
    (e < 16 → j < 8 → b.grants m (Reg.bypmap e j) = true → Leaves s (.bypmap m e j v) (bound (Reg.bypmap (b.cfgEng e) j))) ∧
    (j < 32 → b.reaches m (Reg.quar j) = true → Ends s (.quarRelease m j v) fun b' =>
      b' = { b with regs := b'.regs, router := { b.router with storm := b'.router.storm } } ∧
      b'.reg (Reg.quar j) = b.reg (Reg.quar j) &&& ~~~ v ∧ (∀ r, r ≠ Reg.quar j → b'.reg r = b.reg r) ∧
      ∀ i, i < 32 → tbit v i = true → b.rb (Reg.quar j) i = true → Tab.get (fun _ => 0) b'.router.storm (32 * j + i) = 0) ∧
    (k < 768 → Ends s (.evtSrc k level) fun b' => b' = { b with router := { b.router with ext := b'.router.ext } } ∧
      b'.level (256 + k) = level ∧ ∀ i, i ≠ 256 + k → b'.level i = b.level i)

/-- At a latch step an engine without a selection takes, of its candidates, the one of highest priority, of equal ones the lowest number:
provisionally where it preempts, at once otherwise, onto the priority stack. A source beyond its storm limit is quarantined instead.
The engine notes, for the rotation, the sources it is open for; with no candidate nothing else changes. A storm window's end zeroes the counts of the sources that use it. -/
def Rules.RouterSelects : Prop :=
  ∀ (s : State) (e n w : Nat),
    let b := s.blk
    let l := b.lead e
    let i : Instr := .routerSelection e
    (b.mayRun l = true → (b.eng l).sel = none →
      ((∀ k, k < 1024 → b.candidate l k none = false) → Leaves s i (b.noteOpen l)) ∧
      (∀ t, n < 1024 → b.candidate l n none = true → b.boundAt l (b.srcPrio n) = some t →
        (∀ k, k < 1024 → b.candidate l k none = true → b.srcPrio k < b.srcPrio n ∨ (b.srcPrio k = b.srcPrio n ∧ n ≤ k)) →
        (b.stormy n = true → Ends s i fun b' => b'.rb (Reg.quar (n / 32)) (n % 32) = true ∧ b'.isPending n = false ∧
          b'.rb (regKey 0x010 Reg.hFault) 0 = true ∧ b'.reg (regKey 0x010 Reg.hFaultInfo) = BitVec.ofNat 32 n ∧ b'.engines = (b.noteOpen l).engines) ∧
        (b.stormy n = false → b.preempts l t (b.srcPrio n) = true →
          Leaves s i ((b.noteOpen l).setEng l { (b.noteOpen l).eng l with sel := some ⟨n, t, b.srcPrio n⟩, selEv := false })) ∧
        (b.stormy n = false → b.preempts l t (b.srcPrio n) = false → Ends s i fun b' =>
          (b'.eng l).stack = ⟨n, t, b.srcPrio n⟩ :: (b.eng l).stack ∧ (b'.eng l).sel = none ∧ b'.isActive n = true ∧
          (b'.task l t).st = .ready ∧ (b'.task l t).held = (b.task l t).held ++
            [⟨BitVec.ofNat 128 (n + b.srcPrio n * 2 ^ 16), if (b.task l t).st = .waiting then (b.task l t).wait else none⟩]))) ∧
    (b.noteOpen l = b ∨ b.noteOpen l = b.setEng l { b.eng l with seen := ((b.noteOpen l).eng l).seen }) ∧
    Ends s (.stormWindow w) fun b' => b' = { b with router := { b.router with storm := b'.router.storm } } ∧
      ∀ k, b.rf (Reg.srcStorm k) 8 4 = w → Tab.get (fun _ => 0) b'.router.storm k = 0

/-- The router's registers and its selections.
Model's choices and readings met here: DEDUCED, logs 16, 17, 45. -/
def Obligations.Routing : Prop := Rules.RouterRegisters ∧ Rules.RouterSelects

/-- A dispatch puts the Ready task of highest rank on its engine: it becomes Running there, its pending writes govern, the fetch buffer
holds the bytes at its PC, and the task that ran before becomes Ready. -/
def Rules.DispatchRunsHighestRank : Prop :=
  ∀ (s : State) (e t : Nat),
    let b := s.blk
    let l := b.lead e
    let x := b.eng l
    let c := b.task l t
    b.mayRun l = true → x.halted = false → x.sel = none →
    (x.run = true → b.pl l ≠ 3 ∧ x.waitM = none ∧ b.midInstr l = false ∧ x.arith = none ∧ b.rank l x.cur < b.rank l t) →
    t < 64 → x.cur < 64 → c.st = .ready → c.held = [] → (∀ u, u < 64 → u ≠ t → (b.task l u).st = .ready → b.rank l u < b.rank l t) →
    c.wait = none →
    Ends s (.dispatch e) fun b' =>
      (b'.eng l).cur = t ∧ (b'.eng l).run = true ∧ (b'.task l t).st = .running ∧ (b'.task l t).pc = c.pc ∧ (b'.task l t).ds = c.ds ∧
      (b'.task l t).rs = c.rs ∧ (b'.task l t).precLive = tbit c.tstat 3 ∧ (b'.task l t).vcfgLive = c.vcfg ∧
      (b'.eng l).svecLive = x.svec ∧ (b'.eng l).mvecLive = x.mvec ∧ (b'.eng l).fpc = c.pc.toNat ∧ (b'.eng l).stack = x.stack ∧
      (x.run = true → (b'.task l x.cur).st = .ready ∧ (b'.task l x.cur).readyAt = x.now) ∧
      (∀ u, u < 64 → u ≠ t → (x.run = true → u ≠ x.cur) → b'.task l u = b.task l u) ∧ b'.mem = b.mem

/-- Wakes, samples and reports: a waiting task whose time has come becomes Ready; a task accepts the sample held for it, with its entry,
its deposit into V15 and bypass rank, and the holding register empties; a pending imprecise `ARITH` is reported as an entry that saves
the PC. -/
def Rules.WakesAndReports : Prop :=
  ∀ (s : State) (e t n : Nat),
    let b := s.blk
    let l := b.lead e
    let x := b.eng l
    let c := b.task l t
    (c.st = .waiting → (∃ k, c.wait = some k ∧ (k = .waitt ∨ (c.ds.headD 0).setWidth 64 ≠ 0)) → (c.ds.headD 0).setWidth 64 ≤ b.tb.cnt →
      (b.joined (l / 2) = true → (b.pair (l / 2)).phase = .live) → b.captured (l / 2) = false →
      Leaves s (.timedWake e t)
        (b.setTask l t { c with woke := some .time, st := .ready, readyAt := b.moment l })) ∧
    (b.offer n = some (l, t) → b.closed l = false → b.accepts l t = true → (∀ k, k < n → b.offer k ≠ some (l, t)) →
      b.captured (l / 2) = false → b.drive.wait = none →
      Ends s (.bypassAccept n) fun b' =>
        (b'.task l t).st = .ready ∧ (b'.task l t).byp = true ∧ (b'.task l t).bypPort = n ∧ b'.rank l t = 16 ∧
        (b'.task l t).held = c.held ++ [⟨BitVec.ofNat 128 (b.rf (Reg.last n) 0 20 + n * 2 ^ 24 + 2 ^ 31), if c.st = .waiting then c.wait else none⟩] ∧
        (b'.task l t).vreg 15 = (if b.rb (Reg.spCfg n) 3 then b.deposit n else c.vreg 15) ∧
        b'.rb (Reg.last n) 31 = false ∧ b'.rf (Reg.last n) 0 20 = b.rf (Reg.last n) 0 20 ∧ b'.mem = b.mem ∧ b'.engines = b.engines) ∧
    (∀ a, b.mayRun l = true → x.run = true → x.arith = some a → x.waitM = none → b.midInstr l = false → b.calm l = true →
      Ends s (.arith e) fun b' =>
        let lev := if b.pl l = 0 ∧ tbit x.delegLive 0x0A = true then 1 else 3
        b'.pl l = lev ∧ (b'.eng l).arith = none ∧
        (b'.curTask l).pc = (if lev = 3 then x.mvecLive else x.svecLive) + 0x140 ∧
        (if lev = 3 then (b'.eng l).msavePc else (b'.curTask l).ssavePc) = (b.curTask l).pc ∧
        (if lev = 3 then (b'.eng l).minfo else (b'.curTask l).sinfo) = BitVec.ofNat 32 a.addr ∧
        fld (if lev = 3 then (b'.eng l).mcause else (b'.curTask l).scause) 0 9 = 0x10A ∧ b'.mem = b.mem)

/-- Dispatch, wakes of waiting tasks and reports of imprecise `ARITH`.
Model's choices and readings met here: DEDUCED, logs 33, 47, 163, 164; DESIGN CHOICE, log 140. -/
def Obligations.DispatchAndWakes : Prop := Rules.DispatchRunsHighestRank ∧ Rules.WakesAndReports

/-- A rising edge of `tb_refclk` adds to counter and fraction the effective increment, the increment times 1 + `RATE_ADJ` / 2^32 rounded
down, and takes from the remaining slew a step of at most a sixteenth of the increment; the clock is present again. As the counter passes
a multiple of 1000 ns the step meter's window ends, as it passes one of the Milestone interval every pair that runs as one is to take a
point, as it passes one of a second its pulse is due. -/
def Rules.TimebaseEdge : Prop :=
  ∀ (s : State), let b := s.blk
    let inc : Nat := b.rf Reg.incNs 0 8 * 2 ^ 32 + (b.reg Reg.incFrac).toNat
    let adj := (inc : Int) + (inc : Int) * (b.reg Reg.rateAdj).toInt / 2 ^ 32
    let step : Int := if b.tb.slew < 0 then max b.tb.slew (-(inc / 16 : Nat)) else min b.tb.slew (inc / 16 : Nat)
    let sum := ((b.tb.cnt.toNat * 2 ^ 32 + b.tb.frac.toNat : Nat) : Int) + adj + step
    b.tbRuns = true → 0 ≤ adj → 0 ≤ sum → sum < 2 ^ 96 →
    Ends s .tbRefclkEdge fun b' =>
      ((b'.tb.cnt.toNat * 2 ^ 32 + b'.tb.frac.toNat : Nat) : Int) = sum ∧ b'.tb.slew = b.tb.slew - step ∧ b'.tb.lost = false ∧
      b'.tb.hi = b.tb.hi ∧ b'.mem = b.mem ∧ b'.engines = b.engines ∧ b'.tasks = b.tasks ∧ (∀ r, r / 0x4000 ≠ 0x0B0 → b'.reg r = b.reg r) ∧
      (if b'.tb.cnt.toNat / 1000 = b.tb.cnt.toNat / 1000 then b'.out = b.out ∧ b'.regs = b.regs ∧ b'.tb.due = b.tb.due
       else b'.out = .pulse "tb_us_o" 0 :: b.out ∧ b'.tb.due = some b.pow.peak ∧ b'.pow.peak = b.paceLevel) ∧
      b'.tb.pps = (b.tb.pps || decide (b'.tb.cnt.toNat / 1000000000 ≠ b.tb.cnt.toNat / 1000000000)) ∧
      (∀ p, p < 8 → (b'.pair p).take = ((b.pair p).take ||
        (b.pointsOn && b.joined p && decide (b'.tb.cnt.toNat / (1000 * b.rf Reg.msCfg 0 10) ≠ b.tb.cnt.toNat / (1000 * b.rf Reg.msCfg 0 10)))) ∧
        { b'.pair p with take := false } = { b.pair p with take := false })

/-- Writes and reads of the timebase: `LOAD` in Configure sets the counter and zeroes fraction and slew, elsewhere it is refused;
`OFFSET_ADJ` adds to the slew within ±1 ms, `RATE_ADJ` is clamped, an increment is taken in Boot and Configure from 4 to 40 ns; reading
`TIME_LO` latches the high half for that master. -/
def Rules.TimebaseRegisters : Prop :=
  ∀ (s : State) (m : Nat) (v : Word),
    let b := s.blk
    let want := b.tb.slew + v.toInt * 2 ^ 32
    let set := fun (ns frac : Word) => { b with tb := { b.tb with cnt := ns ++ frac, frac := 0, slew := 0, last := ns ++ frac } }
    let ns := v &&& 0xFF ||| b.reg Reg.incNs &&& 0xFFFFFF00
    let fits := fun (n : Nat) => (b.sys.base = 2 ∨ b.sys.base = 3) ∧ b.sys.hold = false ∧ 4 * 2 ^ 32 ≤ n ∧ n ≤ 40 * 2 ^ 32
    (b.grants m Reg.tbCtrl = true →
      Leaves s (.tbCtrlLoad m) (if b.inConfig = true then set (b.reg Reg.timeSetHi) (b.reg Reg.timeSetLo) else b.flt 0x005 1)) ∧
    (b.grants m Reg.offsetAdj = true → Leaves s (.offsetAdj m v)
      (if want.natAbs ≤ 1000000 * 2 ^ 32 then { b with tb := { b.tb with slew := want } } else b.flt 0x005 0)) ∧
    (b.grants m Reg.rateAdj = true → Leaves s (.rateAdj m v)
      (b.setReg Reg.rateAdj (BitVec.ofInt 32 (max (-2147483) (min 2147483 v.toInt))))) ∧
    (b.grants m Reg.incNs = true → Leaves s (.incWrite m false v)
      (if fits (fld v 0 8 * 2 ^ 32 + (b.reg Reg.incFrac).toNat) then b.setReg Reg.incNs ns else b.flt 0x005 2)) ∧
    (b.grants m Reg.incFrac = true → Leaves s (.incWrite m true v)
      (if fits (b.rf Reg.incNs 0 8 * 2 ^ 32 + v.toNat) then b.setReg Reg.incFrac v else b.flt 0x005 2)) ∧
    (b.shows m Reg.timeLo = true → Ends s (.timeLo m) fun b' => b' = { b with tb := { b.tb with hi := b'.tb.hi } } ∧
      ∀ k, Tab.get (fun _ => 0) b'.tb.hi k = if k = m then (b.tb.cnt >>> 32).setWidth 32 else Tab.get (fun _ => 0) b.tb.hi k)

/-- A window of the step meter that has ended loads RATE and, as PACE, the highest pacing level that was in force in it, with VALID, and keeps
the smallest rate, with an event below 1500; the pulse of a second that was passed leaves at `tb_pps_o`; the loss of the reference clock is noted. -/
def Rules.TimebaseEvents : Prop :=
  ∀ (s : State) (rate : BitVec 12) (pace : BitVec 3),
    let b := s.blk
    let old := b.rf Reg.stepmeterMin 0 12
    (b.tb.due = none → Leaves s (.stepmeterWindow rate pace) b) ∧
    (∀ p, b.tb.due = some p → p < 8 → Ends s (.stepmeterWindow rate pace) fun b' =>
      Blk.OnlyRegs { b with tb := { b.tb with due := none } } b' [Reg.stepmeter, Reg.stepmeterMin, regKey 0x005 Reg.hEvtRaw] ∧
      b'.rf Reg.stepmeter 0 12 = rate.toNat ∧ b'.rf Reg.stepmeter 12 3 = p ∧ b'.rb Reg.stepmeter 15 = true ∧
      b'.rf Reg.stepmeterMin 0 12 = (if old = 0 then rate.toNat else min old rate.toNat) ∧
      b'.rb (regKey 0x005 Reg.hEvtRaw) 0 = (b.rb (regKey 0x005 Reg.hEvtRaw) 0 || decide (rate.toNat < 1500))) ∧
    Leaves s .tbPps (if b.tb.pps then { b with out := .pulse "tb_pps_o" 0 :: b.out, tb := { b.tb with pps := false } } else b) ∧
    Leaves s .tbClkLoss { b with tb := { b.tb with lost := true } }

/-- The timebase, edge by edge, its registers and its events.
Model's choices and readings met here: DEDUCED, logs 17, 57; DESIGN CHOICE, logs 58, 59. -/
def Obligations.TimebaseRules : Prop := Rules.TimebaseEdge ∧ Rules.TimebaseRegisters ∧ Rules.TimebaseEvents

/-! Modes, reset, boot and security (R18 to R30, R451 to R473). -/

/-- `MODE_REQ` completes wherever its page admits the master. Safe Hold, asked for from any mode in which the block is up and not yet held,
holds the outputs, keeps the cause and makes every drive group safe. Configure, asked for from a Safe Hold with no safety fault left, ends
the hold and clears every group's enable. Run, asked for in Configure with no bar of R468, enters Run, or, where the mirror is enabled
and its peer agrees, the role that `MCFG` gives; at the first Run every pair that runs as one is to take a point. -/
def Rules.ModesEntered : Prop :=
  ∀ (s : State) (m : Nat), s.blk.grants m Reg.modeReq = true →
    let b := s.blk
    let mode := if b.rb Reg.mcfgReg 0 = true then (if b.rb Reg.mcfgReg 1 = true then 7 else 6) else 4
    (2 ≤ b.sys.base → b.sys.base ≠ 0xA → b.sys.hold = false →
      ∃ b', exec (.modeReqSafeHold m) s = .next { s with blk := b' } ∧
        b'.sys = { b.sys with hold := true } ∧ b'.mode = 9 ∧ b'.rb Reg.mode 8 = false ∧ b'.rf Reg.holdCause 0 4 = 1 ∧
        (∀ g, g < 8 → b'.gState g = 2) ∧ b'.mem = b.mem ∧ b'.tasks = b.tasks) ∧
    (b.mode = 9 → b.sys.base ≠ 0xA → b.reg (regKey pgSafety Reg.hFault) = 0 →
      ∃ b', exec (.modeReqConfigure m) s = .next { s with blk := b' } ∧
        b'.sys = { b.sys with base := 3, hold := false } ∧ b'.mode = (if b.anyHalted = true then 0xB else 3) ∧ b'.rb Reg.mode 8 = false ∧
        (∀ g, g < 8 → b'.gEn g = false ∧ b'.gState g = 0) ∧ b'.mem = b.mem ∧ b'.tasks = b.tasks) ∧
    (b.mode = 3 → b.runBarred = false → (b.rb Reg.mcfgReg 0 = true → b.peered = true) →
      ∃ b', exec (.modeReqRun m) s = .next { s with blk := b' } ∧
        b'.sys = { b.sys with base := mode, ran := true } ∧ b'.rf Reg.mode 4 4 = 3 ∧ b'.rb Reg.mode 8 = false ∧
        b'.mode = (if b.sys.hold = true then 9 else if b.anyHalted = true then 0xB else if b.anyRecovering = true ∧ mode ≠ 7 then 8
          else if mode = 4 ∧ b.degraded = true then 5 else mode) ∧
        (∀ p, p < 8 → b.joined p = true → b.sys.ran = false → (b'.pair p).take = true) ∧ b'.mem = b.mem ∧ b'.tasks = b.tasks)

/-- Any other request completes too, setting `REQ_REFUSED` alone. -/
def Rules.ModesRefused : Prop :=
  ∀ (s : State) (m : Nat), s.blk.grants m Reg.modeReq = true →
    let b := s.blk
    let refused := { s with blk := b.setBit Reg.mode 8 }
    (b.sys.base < 2 ∨ b.sys.base = 0xA ∨ b.sys.hold = true → exec (.modeReqSafeHold m) s = .next refused) ∧
    (b.mode ≠ 9 ∨ b.reg (regKey pgSafety Reg.hFault) ≠ 0 → exec (.modeReqConfigure m) s = .next refused) ∧
    (b.mode ≠ 3 ∨ b.runBarred = true ∨ (b.rb Reg.mcfgReg 0 = true ∧ b.peered = false) → exec (.modeReqRun m) s = .next refused)

/-- `MODE_REQ` completes: the modes that it enters, and what it refuses.
Model's choices and readings met here: DEDUCED, logs 90, 160, 161, 167. -/
def Obligations.ModeRequests : Prop := Rules.ModesEntered ∧ Rules.ModesRefused

/-- `NODE_ID` and `SEGi` accept a write only in Configure; in every other mode it sets the page's `FAULT` bit 0 and does nothing else. The
block counts as in Configure while Debug is displayed over Configure (DEDUCED, log 90). -/
def Obligations.ConfigureOnly : Prop :=
  ∀ (s : State) (m i : Nat) (v : Word), i < 64 →
    let b := s.blk
    (b.grants m Reg.nodeId = true →
      (b.inConfig = true → Ends s (.nodeId m v) fun b' => b.OnlyRegs b' [Reg.nodeId] ∧ b'.rf Reg.nodeId 0 9 = fld v 0 9) ∧
      (b.inConfig = false → Leaves s (.nodeId m v) (b.flt 0x000 0))) ∧
    (b.grants m (Reg.seg i) = true →
      (b.inConfig = true → Ends s (.registerWrite m 0x080 (0x100 + 4 * i) v) fun b' => b.OnlyRegs b' [Reg.seg i] ∧
        b'.rf (Reg.seg i) 0 7 = fld v 0 7 ∧ b'.rf (Reg.seg i) 8 2 = fld v 8 2 ∧ b'.rb (Reg.seg i) 10 = tbit v 10) ∧
      (b.inConfig = false → Leaves s (.registerWrite m 0x080 (0x100 + 4 * i) v) (b.flt 0x080 0)))

/-- Every reset source takes the block to Reset (the loss of the core supply to Off): memory, tasks, pairs, keys and every register but
those that R452 to R454 keep stand at their reset values, `RST_CAUSE` names the source, and nothing runs.
Model's choices and readings met here: DEDUCED, log 135. -/
def Obligations.ResetSources : Prop :=
  ∀ (s : State) (m : Nat) (core memOk : Bool) (v : Word),
    let b := s.blk
    let kept := [Reg.rstCause, Reg.rstCnt, Reg.dbgCtrl, Reg.pwrStat] ++ (List.range 16).map Reg.estat ++ (List.range 6).map Reg.lstat
    let into := fun (i : Instr) (src base : Nat) => Ends s i fun b' =>
      b'.sys.base = base ∧ b'.sys.hold = false ∧ b'.sys.ran = false ∧ b'.sec.phase = 0 ∧ b'.sec.dbg = false ∧ b'.mem = [] ∧ b'.ecc = [] ∧
      b'.engines = [] ∧ b'.tasks = [] ∧ b'.pairs = [] ∧ b'.keys = [] ∧ b'.jobs = [] ∧ b'.banks = [] ∧
      (∀ k, k ∉ kept → b'.reg k = regReset k) ∧ b'.rb Reg.rstCause src = true ∧
      (src ≠ 0 → b'.rf Reg.rstCnt 0 16 = min (2 ^ 16 - 1) (b.rf Reg.rstCnt 0 16 + if b.sys.base = 1 ∧ b.sec.phase = 0 then 0 else 1)) ∧
      (src = 0 → b'.rf Reg.rstCnt 0 16 = 0)
    into .supplyRemoved 0 0 ∧
    (b.sys.base ≠ 0 → b.sec.rstLow = false → into (.pin ⟨.rst, true⟩) 1 1) ∧
    (b.sys.base ≠ 0 → b.sec.porLow = false → into (.pin ⟨.por, true⟩) 0 1) ∧
    (2 ≤ b.sys.base → b.sys.base ≠ 0xA → ¬ (core = true ∧ memOk = true) → into (.supply core memOk) 2 1) ∧
    (b.grants 18 Reg.hcmd = true → b.hst.cmd = none → b.rb Reg.hres 0 = false → b.rb Reg.hcfg 4 = true → into (.hcmdReset 0x5A5A) 3 1) ∧
    (m < 16 → b.grants m Reg.rstReqReg = true → b.pageLevel m 0x0A0 = some 3 → fld v 0 16 = 0x5A5A → into (.rstReq m v) 4 1) ∧
    (b.sys.base ≠ 0 → into .zeroize 7 1) ∧
    (b.tstAllowed = true → b.sec.test = false → b.sys.base ≠ 0 → into .testMode 0 1) ∧
    (b.sec.test = true → into .testModeExit 0 1)

/-- From Off to Boot: the supply's return enters Reset with `por_n` low, the release, both reset pins high, starts the fuse load, each fuse word enters the shadow in turn or, on
an error, ends the load with the lifecycle that PRODUCTION gives, and the boot starts task 0 of P0 at PL 3 in the boot ROM, which opens
the staging area to the host and posts READY.
Model's choices and readings met here: DESIGN CHOICE, logs 6, 8. -/
def Obligations.ReleaseAndBoot : Prop :=
  ∀ (s : State) (i : Nat) (v : Word),
    let b := s.blk
    (b.sys.base = 0 → Ends s .supplyValid fun b' => b'.sys = { b.sys with base := 1 } ∧ b'.mem = b.mem ∧
      b'.sec.porLow = true ∧ b'.rb Reg.rstCause 1 = b.sec.rstLow ∧ ∀ k, k ≠ Reg.rstCause → b'.reg k = b.reg k) ∧
    (b.sys.base = 1 → b.sec.phase = 0 → b.sec.rstLow = false → b.sec.porLow = false → Leaves s .resetRelease
      { b with sec := { b.sec with phase := 1, next := 0, shadow := [], fuseErr := false } }) ∧
    (b.sys.base = 1 → b.sec.phase = 1 → b.sec.next = i → i < 64 →
      (Ends s (.fuseRead i v false) fun b' => b' = { b with sec := { b.sec with next := i + 1, shadow := b'.sec.shadow } } ∧
        ∀ k, b'.fuse k = if k = i then v else b.fuse k) ∧
      (Ends s (.fuseRead i v true) fun b' => b'.sec = { b.sec with next := 64, fuseErr := true } ∧ b'.lifecycle = 2 ∧
        b'.rb (regKey 0x0A0 Reg.hEvtRaw) 1 = true ∧ b'.mem = b.mem)) ∧
    (b.sys.base = 1 → b.sec.phase = 1 → b.sec.next = 64 →
      (b.sec.test = true → Leaves s .bootBegin { b with sec := { b.sec with phase := 2, tstOk := true } }) ∧
      (b.sec.test = false → b.rb Reg.dbgCtrl 1 = false → b.rb (Reg.mbOutstat 0) 31 = false → Ends s .bootBegin fun b' =>
        b'.sys.base = 2 ∧ b'.sec.phase = 2 ∧ (b'.eng 0).run = true ∧ (b'.eng 0).cur = 0 ∧ (b'.task 0 0).pc = 0x30000000 ∧
        (b'.task 0 0).st = .running ∧ fld (b'.task 0 0).tstat 0 2 = 3 ∧ b'.reg (Reg.regLo 18 0) = 0x10000000 ∧
        b'.reg (Reg.regHi 18 0) = 0x300002BF ∧ b'.reg (Reg.outBuf 0 0) = 0x10 ∧ b'.reg (Reg.mbOutstat 0) = 0x80000001 ∧
        (∀ n, n ≠ 0 → b'.task 0 n = b.task 0 n) ∧ b'.mem = b.mem)) ∧
    Leaves s (.pin ⟨.rst, false⟩) { b with sec := { b.sec with rstLow := false } } ∧
    Leaves s (.pin ⟨.por, false⟩) { b with sec := { b.sec with porLow := false } } ∧
    ∀ low, Leaves s (.pin ⟨.fuseProg, low⟩) { b with sec := { b.sec with progLow := low } }

/-- The boot ROM's commands: LOAD closes the staging area and starts a verification, another message is answered BAD_MSG; a refused
candidate posts its code and opens the staging area again, or holds the block where the tries are used up; an accepted one is handed over
in Configure, at its entry at PL 3 with its own region. The boot timeout holds the block.
Model's choices and readings met here: DESIGN CHOICE, log 9. -/
def Obligations.BootCommands : Prop :=
  ∀ (s : State),
    let b := s.blk
    let r := b.imgResult
    let answer := fun (b' : Blk) (code n : Nat) => b'.reg (Reg.outBuf 0 0) = BitVec.ofNat 32 (code + 256 * (n % 256)) ∧
      b'.reg (Reg.mbOutstat 0) = 0x80000002 ∧ b'.reg (Reg.mbInstat 0) = 0
    let closed := fun (b' : Blk) => b'.reg (Reg.regLo 18 0) = 0 ∧ b'.reg (Reg.regHi 18 0) = 0
    b.romRuns = true → b.sec.ready = true → b.sys.hold = false → b.rb (Reg.mbOutstat 0) 31 = false →
    (b.sec.busy = false → b.rb (Reg.mbInstat 0) 31 = true →
      (b.isLoad = true → Ends s .load fun b' => b'.sec = { b.sec with busy := true, count := b.sec.count + 1 } ∧ closed b' ∧ b'.mem = b.mem) ∧
      (b.isLoad = false → Ends s .badMsg fun b' => answer b' 8 b.sec.count ∧ b'.sec = b.sec ∧ b'.mem = b.mem)) ∧
    (b.sec.busy = true →
      (b.imgFormat = false → r = 1) ∧ (b.imgFormat = true → b.lifecycle = 0 → r = 0) ∧
      (r ≠ 0 → b.sec.fails + 1 < b.bootTries → b.sec.tmo = false → Ends s .candidateResult fun b' =>
        answer b' r b.sec.count ∧ b'.rf Reg.bootStat 0 8 = r ∧ b'.sec.fails = b.sec.fails + 1 ∧ b'.sec.busy = false ∧
        b'.reg (Reg.regLo 18 0) = 0x10000000 ∧ b'.sys = b.sys ∧ b'.mem = b.mem) ∧
      (r ≠ 0 → b.bootTries ≤ b.sec.fails + 1 → Ends s .candidateResult fun b' =>
        b'.sys.hold = true ∧ b'.rf Reg.holdCause 0 4 = 5 ∧ b'.mode = 9 ∧ answer b' r b.sec.count) ∧
      (r = 0 → b.anyHalted = false → Ends s .candidateResult fun b' =>
        b'.sys.base = 3 ∧ b'.mode = 3 ∧ b'.rb Reg.bootStat 12 = true ∧ answer b' 0 b.sec.count ∧
        (b'.task (b.lead 0) 0).pc = BitVec.ofNat 32 (b.img 12 4) ∧ fld (b'.task (b.lead 0) 0).tstat 0 2 = 3 ∧
        b'.reg (Reg.regLo 0 0) = 0x70000000 ∧ b'.reg (Reg.regHi 0 0) = BitVec.ofNat 32 (0x70000000 + (0x1FF + b.img 8 4) / 4096) ∧
        b'.sec.dbg = (b.img 7 1).testBit 0 ∧ b'.reg Reg.secVer = BitVec.ofNat 32 (b.img 16 4) ∧
        (∀ i, i < 12 → b'.reg (Reg.imgHash i) = (Config.sha384 b.imgBytes).getD i 0) ∧
        ∀ j, b'.byte j = if j / 0x40000 = 11 then 0 else b.byte j)) ∧
    (b.rb Reg.bootStat 12 = false → fld (b.fuse 10) 8 8 ≠ 0 → b.sec.tmo = false → b.sec.busy = false → Ends s .bootTmo fun b' =>
      b'.sys.hold = true ∧ b'.rf Reg.holdCause 0 4 = 5 ∧ b'.sec.tmo = true ∧ b'.mem = b.mem)

/-- Fuse commands from an engine at PL 3 with `fuse_prog_ok` high and no cycle in progress: `FUSE_PROG` in BLANK, `LC_ADV` upward with its key, `ARB_SET` in Configure not below the fused
count nor above the image's version each start one program cycle with the thermometer's word; otherwise, and from any other master,
they set `FAULT` bit 0 alone. The cycle's end frees the fuses, with `FAULT` bit 1 where it failed. -/
def Rules.FuseCommands : Prop :=
  ∀ (s : State) (m : Nat) (v : Word),
    let b := s.blk
    let starts := fun (i : Nat) (w : Word) => { b with sec := { b.sec with prog := some (i, w) }, out := .fuse i w :: b.out }
    let mach := m < 16 ∧ b.pageLevel m 0x0A0 = some 3 ∧ b.sec.prog = none ∧ b.sec.progLow = false
    let t := fld v 0 3
    let n := fld v 0 6
    (b.grants m Reg.fuseProgReg = true →
      (mach → b.lifecycle = 0 → Leaves s (.fuseProg m v) (starts (b.rf Reg.fuseIdx 0 6) v)) ∧
      (¬ mach ∨ b.lifecycle ≠ 0 → Leaves s (.fuseProg m v) (b.flt 0x0A0 0))) ∧
    (b.grants m Reg.lcAdvReg = true →
      (mach → b.lifecycle < t → t ≤ 3 → fld v 16 16 = 0xC3C3 → Leaves s (.lcAdv m v) (starts 8 (BitVec.ofNat 32 (2 ^ t - 1)))) ∧
      (¬ mach ∨ t ≤ b.lifecycle ∨ 3 < t ∨ fld v 16 16 ≠ 0xC3C3 → Leaves s (.lcAdv m v) (b.flt 0x0A0 0))) ∧
    (b.grants m Reg.arbSetReg = true →
      (mach → b.mode = 3 → b.arbFused ≤ n → n ≤ 32 → n ≤ b.rf Reg.secVer 0 6 →
        Leaves s (.arbSet m v) (starts 9 (BitVec.ofNat 32 (2 ^ n - 1)))) ∧
      (¬ mach ∨ b.mode ≠ 3 ∨ n < b.arbFused ∨ 32 < n ∨ b.rf Reg.secVer 0 6 < n → Leaves s (.arbSet m v) (b.flt 0x0A0 0))) ∧
    (b.sec.prog ≠ none →
      Leaves s (.fuseProgramDone false) { b with sec := { b.sec with prog := none } } ∧
      Leaves s (.fuseProgramDone true) ({ b with sec := { b.sec with prog := none } }.flt 0x0A0 1))

/-- Key commands act on the slot that `KSEL` selects: WRITE takes the key and salt written, DERIVE the derivation from the root key, ERASE
leaves an empty slot, LOCK locks it; a locked slot refuses them, and one in use refuses WRITE and ERASE; `ERASE_ALL` empties every
slot. Their completion zeroes the data registers. No other slot changes. -/
def Rules.KeyCommands : Prop :=
  ∀ (s : State) (m : Nat),
    let b := s.blk
    let k := b.rf Reg.ksel 0 5
    let slot := fun (c : Blk) (j : Nat) => Tab.get (fun _ => ({} : KeySlot)) c.keys j
    let salt := (List.range 3).map fun i => b.reg (Reg.ksalt i)
    let goes := fun (i : Instr) (key : KeySlot) (full : Bool) => Ends s i fun b' =>
      slot b' k = key ∧ (∀ j, j ≠ k → slot b' j = slot b j) ∧ b'.rb (Reg.kstat k) 0 = full ∧
      b'.rb (Reg.kstat k) 1 = false ∧ (∀ r, r ≠ Reg.kstat k → b'.reg r = b.reg r) ∧ b'.sec = { b.sec with keyCmd := true } ∧ b'.mem = b.mem
    let refused := b.flt 0x0A1 1
    (b.grants m Reg.kcmd = true →
      (b.rb (Reg.kstat k) 1 = true → Leaves s (.keyWrite m) refused ∧ Leaves s (.keyErase m) refused ∧ Leaves s (.keyLock m) refused ∧
        Leaves s (.derive m) refused) ∧
      (b.rb (Reg.kstat k) 1 = false → b.rb (Reg.kstat k) 2 = false →
        (b.mirKeysOk = true → goes (.keyWrite m) ⟨(List.range 8).map (fun i => b.reg (Reg.kdata i)), salt⟩ true) ∧
        goes (.keyErase m) {} false) ∧
      (b.rb (Reg.kstat k) 1 = false → (b.lifecycle = 1 ∨ b.lifecycle = 2) → goes (.derive m)
        ⟨Config.derive ((List.range 8).map b.fuse) (toLe 4 (b.reg (Reg.kdata 0)).toNat ++ toLe 4 (b.reg (Reg.kdata 1)).toNat ++ toLe 1 k), salt⟩ true) ∧
      (b.rb (Reg.kstat k) 1 = false → Leaves s (.keyLock m)
        { b.setBit (Reg.kstat k) 1 with sec := { b.sec with keyCmd := true } }) ∧
      (Ends s (.eraseAll m) fun b' => (∀ j, j < 32 → slot b' j = {} ∧ b'.rb (Reg.kstat j) 0 = false) ∧
        b'.sec = { b.sec with keyCmd := true } ∧ b'.mem = b.mem)) ∧
    (b.sec.keyCmd = true → Ends s .keyCmdDone fun b' =>
      (∀ i, i < 8 → b'.reg (Reg.kdata i) = 0) ∧ (∀ i, i < 3 → b'.reg (Reg.ksalt i) = 0) ∧ b'.sec = { b.sec with keyCmd := false } ∧
      b'.rb (regKey 0x0A1 Reg.hEvtRaw) 0 = true ∧ b'.keys = b.keys ∧ b'.mem = b.mem)

/-- In test mode a memory test of an array starts, and its end shows whether it failed. -/
def Rules.MemoryTest : Prop :=
  ∀ (s : State) (sel : BitVec 8) (fail : Bool),
    let b := s.blk
    (b.sec.tstOk = true → sel.toNat ≤ 132 ∨ sel = 255 →
      Leaves s (.mbistGo sel) { b with sec := { b.sec with mbist := some sel.toNat, mbDone := none } }) ∧
    (b.sec.mbist ≠ none → Leaves s (.mbistDone fail) { b with sec := { b.sec with mbist := none, mbDone := some fail } })

/-- Fuses, key slots and the memory test.
Model's choices and readings met here: DESIGN CHOICE, logs 9, 98, 137; DEDUCED, logs 16, 17, 99. -/
def Obligations.FusesKeysAndMemoryTest : Prop := Rules.FuseCommands ∧ Rules.KeyCommands ∧ Rules.MemoryTest

/-! The host port, power and memory upkeep (R221 to R241, R426 to R451). -/

/-- Requests of the host port to the scratchpad, the port accepting and no earlier request unanswered: one whose CRCs hold is performed, a
write that every check admits storing the enabled bytes of each beat, a read of sound words returning them little-endian, beat by beat;
one whose CRC fails answers 5, is counted and changes no memory. While a request waits for the memory port those behind it stand in the
queue, and with 16 unanswered none is accepted. -/
def Rules.HostRequests : Prop :=
  ∀ (s : State) (addr : BitVec 40) (n : Nat) (tag : BitVec 6) (d : BitVec 128) (be dcrc crc : BitVec 16),
    let b := s.blk
    let a := addr.toNat / 4 * 4
    let rd : HostReq := { write := false, addr := addr, beats := n, data := [], tag := tag, crc := crc }
    let wr : HostReq := { write := true, addr := addr, beats := 1, data := [(d, be, dcrc)], tag := tag, crc := crc }
    let rsound := crc16 (toLe 5 a ++ [BitVec.ofNat 8 (16 * (n - 1)), BitVec.ofNat 8 tag.toNat]) = crc
    let wsound := crc16 (toLe 5 a ++ [0x80, BitVec.ofNat 8 tag.toNat]) = crc ∧ crc16 (toLe 16 d.toNat ++ toLe 2 be.toNat) = dcrc
    let failed := fun (b' : Blk) => b'.rb (regKey 0x090 Reg.hEvtRaw) 18 = true ∧
      b'.rf Reg.hperr 0 16 = min (2 ^ 16 - 1) (b.rf Reg.hperr 0 16 + 1) ∧ b'.mem = b.mem
    (b.hostOn = true → b.hostBusy = false → b.hst.q = [] →
      (wsound → a + 16 ≤ 0x1800000 → b.sys.base ≠ 7 →
        (∀ r, r ∈ beatRuns a d be 16 0 none → b.mCheck 18 none .store r.1 r.2.length b.hpl = none) →
        Ends s (.hostWrite addr [(d, be, dcrc)] tag crc) fun b' =>
          b'.out.head? = some (.host tag.toNat 0 []) ∧ b'.tasks = b.tasks ∧ b'.engines = b.engines ∧
          ∀ j, b'.byte j = if a ≤ j ∧ j < a + 16 ∧ be.getLsbD (j - a) = true then (d >>> (8 * (j - a))).setWidth 8 else b.byte j) ∧
      (rsound → a + 16 * n ≤ 0x1800000 → (∀ i, i < n → b.mCheck 18 none .load (a + 16 * i) 16 b.hpl = none) →
        (∀ j, a ≤ j → j < a + 16 * n → b.eccAt j = 0) →
        let got := (List.range n).map fun i => BitVec.ofNat 128 (leNat (b.bytes (a + 16 * i) 16))
        Leaves s (.hostRead addr n tag crc)
          { b with out := .host tag.toNat 0 (got.map fun v => (0, v, crc16 (toLe 16 v.toNat ++ [BitVec.ofNat 8 tag.toNat, 0]))) :: b.out }) ∧
      (¬ rsound → Ends s (.hostRead addr n tag crc) fun b' => failed b' ∧
        ∃ l, b'.out = .host tag.toNat 5 l :: .pulse "hp_err" 0 :: b.out ∧ l.length = n ∧ ∀ x ∈ l, x.1 = 5) ∧
      (¬ wsound → Ends s (.hostWrite addr [(d, be, dcrc)] tag crc) fun b' => failed b' ∧
        b'.out = .host tag.toNat 5 [] :: .pulse "hp_err" 0 :: b.out)) ∧
    (∀ x, x = (Instr.hostRead addr n tag crc, rd) ∨ x = (.hostWrite addr [(d, be, dcrc)] tag crc, wr) →
      (b.hostOn = true → b.hostBusy = true → b.hostOwed < 16 → Leaves s x.1 { b with hst := { b.hst with q := b.hst.q ++ [x.2] } }) ∧
      (b.hostOn = false ∨ 16 ≤ b.hostOwed → Leaves s x.1 b))

/-- The host port's pins: its reset accepts nothing, discards the responses that are owed and every accepted read, while accepted writes
are still performed; its release lifts that, and `hp_hold_n` enters Safe Hold with cause 2. -/
def Rules.HostPins : Prop :=
  ∀ (s : State), let b := s.blk
    (Ends s .hpPortRst fun b' => b'.hostOn = false ∧
      b' = { b with hst := { b.hst with low := true, q := (b.hst.q.filter fun r => r.write).map fun r => { r with muted := true } }
                    jobs := b'.jobs } ∧
      b'.jobs.map (fun j => { j with who := .debug }) = b.jobs.map (fun j => { j with who := .debug }) ∧
      (∀ j ∈ b'.jobs, ∀ tag, j.who ≠ .host (some tag)) ∧
      ∀ (k : Nat) (j : Job), b.jobs[k]? = some j → (∀ tag, j.who ≠ .host tag) → b'.jobs[k]? = some j) ∧
    Leaves s .hpPortRstRelease { b with hst := { b.hst with low := false } } ∧
    (2 ≤ b.sys.base → b.sys.hold = false → Ends s .hpHold fun b' =>
      b'.sys.hold = true ∧ b'.rf Reg.holdCause 0 4 = 2 ∧ b'.mode = 9 ∧ (∀ g, g < 8 → b'.gState g = 2) ∧ b'.mem = b.mem)

/-- Requests of the host port and its pins.
Model's choices and readings met here: DEDUCED, logs 66, 73, 131; DESIGN CHOICE, log 132. -/
def Obligations.HostPort : Prop := Rules.HostRequests ∧ Rules.HostPins

/-- Host commands, accepted while none is in progress and no result stands: the effect at once, the status kept for the completion, which
shows it with the service enables and frees the command; while one stands a command is refused and counted. -/
def Rules.HostCommands : Prop :=
  ∀ (s : State) (svc : BitVec 4) (arg : BitVec 16) (a28 : BitVec 28),
    let b := s.blk
    let takes := fun (i : Instr) (st : Nat) (P : Blk → Prop) => Ends s i fun b' => b'.hst.cmd = some (st, decide (st = 0)) ∧ P b' ∧ b'.mem = b.mem
    let same := fun (b' : Blk) => b' = { b with hst := b'.hst }
    let on := fun (b' : Blk) (v : Bool) =>
      (svc = 1 → b'.rb Reg.swCtrl 0 = v) ∧ (svc = 2 → b'.rb Reg.asCfg 0 = v) ∧ (svc = 3 → b'.rb Reg.doipCtrl 0 = v) ∧
      (svc = 4 → b'.rb Reg.fabCfg 16 = v)
    let named := 1 ≤ svc.toNat ∧ svc.toNat ≤ 4
    (b.grants 18 Reg.hcmd = true → b.hst.cmd = none → b.rb Reg.hres 0 = false →
      takes (.hcmdNop a28) 0 same ∧ takes (.query svc arg) 0 same ∧
      (named → b.rb Reg.hcfg 2 = true → b.svcMode = true →
        takes (.hcmdStart svc arg) 0 (fun b' => on b' true) ∧ takes (.hcmdStop svc arg) 0 (fun b' => on b' false)) ∧
      (named → b.rb Reg.hcfg 2 = false → takes (.hcmdStart svc arg) 2 same ∧ takes (.hcmdStop svc arg) 2 same) ∧
      (¬ named → takes (.hcmdStart svc arg) 3 same ∧ takes (.hcmdStop svc arg) 3 same) ∧
      (b.sys.hold = false → takes (.hcmdSafeHold arg) 0 fun b' => b'.sys.hold = true ∧ b'.rf Reg.holdCause 0 4 = 2) ∧
      (b.rb Reg.hcfg 3 = false → takes (.hcmdSleep arg) 2 same) ∧
      (b.rb Reg.hcfg 3 = true → b.denyWhy = 0 → takes (.hcmdSleep arg) 0 fun b' => b'.rb Reg.pwrStat 8 = true) ∧
      (b.rb Reg.hcfg 3 = true → b.denyWhy ≠ 0 → takes (.hcmdSleep arg) 4 fun b' => b'.rb Reg.pwrStat 3 = true ∧ b'.rf Reg.pwrStat 4 4 = b.denyWhy) ∧
      (b.sys.base = 7 → b.mode = 7 → b.sys.hold = false → b.rb Reg.mstat 1 = true → b.mir.taking = false →
        takes (.hcmdTakeover arg) 0 fun b' => b'.mir.taking = true ∧ b'.rb Reg.mstat 6 = true) ∧
      (b.sys.base ≠ 7 → takes (.hcmdTakeover arg) 1 same) ∧ (arg ≠ 0x5A5A → takes (.hcmdReset arg) 3 same)) ∧
    (b.grants 18 Reg.hcmd = true → b.rb Reg.hres 0 = true → Leaves s (.hcmdNop a28) (b.count Reg.hperr 16 16)) ∧
    (∀ st, b.hst.cmd = some (st, true) → st < 8 → Ends s .hcmdDone fun b' => b'.hst.cmd = none ∧ b'.rb Reg.hres 0 = true ∧
      b'.rf Reg.hres 1 3 = st ∧ b'.rb Reg.hres 16 = b.rb Reg.swCtrl 0 ∧ b'.rb Reg.hres 17 = b.rb Reg.asCfg 0 ∧
      b'.rb Reg.hres 18 = b.rb Reg.doipCtrl 0 ∧ b'.rb Reg.hres 19 = b.rb Reg.fabCfg 16 ∧ b'.rb (regKey 0x090 Reg.hEvtRaw) 17 = true) ∧
    (b.reaches 18 Reg.hres = true → Leaves s .hresDoneClear (b.clrBit Reg.hres 0))

/-- Mailboxes: a post of 1 to 64 bytes fills an empty buffer and says so by its event or its attention, a free or a take empties it; a
post to a full OUT buffer raises `FAULT` bit 1, and in Safe Hold it is discarded and counted. -/
def Rules.Mailboxes : Prop :=
  ∀ (s : State) (m k : Nat) (len : BitVec 7),
    let b := s.blk
    let full := BitVec.ofNat 32 (2 ^ 31 + len.toNat)
    k < 16 → 1 ≤ len.toNat → len.toNat ≤ 64 →
    (b.grants 18 (Reg.mbInpostReg k) = true → b.rb (Reg.mbInstat k) 31 = false → b.rb (Reg.mbCtrl k) 1 = true →
      Leaves s (.mbInpost k len) ((b.setReg (Reg.mbInstat k) full).setBit (regKey 0x090 Reg.hEvtRaw) k)) ∧
    (b.grants 18 (Reg.mbInpostReg k) = true → b.rb (Reg.mbInstat k) 31 = true ∨ b.rb (Reg.mbCtrl k) 1 = false →
      Leaves s (.mbInpost k len) (b.count Reg.hperr 16 16)) ∧
    (m ≠ 18 → b.reaches m (Reg.mbInstat k) = true → Leaves s (.mbInFree m k) (b.setReg (Reg.mbInstat k) 0)) ∧
    (m ≠ 18 → b.grants m (Reg.mbOutpostReg k) = true →
      (b.sys.hold = false → b.sys.base ≠ 7 → b.rb (Reg.mbOutstat k) 31 = false →
        Leaves s (.mbOutpost m k len) (b.setReg (Reg.mbOutstat k) full)) ∧
      (b.sys.hold = false → b.sys.base ≠ 7 → b.rb (Reg.mbOutstat k) 31 = true →
        Leaves s (.mbOutpost m k len) ((b.setBit (regKey 0x090 Reg.hFault) 1).setBit Reg.hattn 2)) ∧
      (b.sys.hold = true → Leaves s (.mbOutpost m k len) (b.count Reg.blockedCnt 0 16))) ∧
    (b.reaches 18 (Reg.mbOutstat k) = true → b.rb (Reg.mbOutstat k) 31 = true →
      Leaves s (.mbOutTake k) ((b.setReg (Reg.mbOutstat k) 0).setBit (regKey 0x090 Reg.hEvtRaw) 16))

/-- Host commands and mailboxes.
Model's choices and readings met here: DEDUCED, logs 17, 24, 111, 112, 161. -/
def Obligations.HostCommandsAndMailboxes : Prop := Rules.HostCommands ∧ Rules.Mailboxes

/-- Sleep: a granted request begins the entry and asks every Twin pair for a point, a denied one keeps its reason; the commit puts every
bank that is on into retention and the block into Sleep; a wake event, the banks' return and the wake point bring the mode back. -/
def Rules.SleepAndWake : Prop :=
  ∀ (s : State) (m ns kind : Nat) (v : Word) (level : Bool),
    let b := s.blk
    (b.grants m Reg.sleepCmd = true → tbit v 0 = true → b.rb Reg.pwrStat 8 = false →
      (b.denyWhy = 0 → Ends s (.sleepCmd m v) fun b' => b'.rb Reg.pwrStat 8 = true ∧ b'.sys = b.sys ∧ b'.mem = b.mem ∧
        ∀ p, p < 8 → b.joined p = true → b.retired p = false → b.idleSpare p = false → (b'.pair p).take = true) ∧
      (b.denyWhy ≠ 0 → Ends s (.sleepCmd m v) fun b' => b'.rb Reg.pwrStat 8 = false ∧ b'.rb Reg.pwrStat 3 = true ∧
        b'.rf Reg.pwrStat 4 4 = b.denyWhy ∧ b'.rb (regKey 0x001 Reg.hEvtRaw) 1 = true ∧ b'.pairs = b.pairs ∧ b'.mem = b.mem)) ∧
    (b.rb Reg.pwrStat 8 = true → (b.mode = 4 ∨ b.mode = 5) → b.sys.hold = false → b.drained = true → Ends s .sleepCommit fun b' =>
      b'.sys.base = 0xA ∧ b'.mode = 0xA ∧ b'.pow.phase = 1 ∧ b'.pow.prior = b.sys.base ∧ b'.rb Reg.pwrStat 8 = false ∧ b'.mem = b.mem ∧
      ∀ k, k < 96 → (b.bank k).going = none → (b'.bank k).cur = if (b.bank k).cur = 0 then 1 else (b.bank k).cur) ∧
    (b.rb Reg.pwrStat 8 = true → Ends s .entryTmo fun b' => b.OnlyRegs b' [Reg.pwrStat] ∧ b'.rb Reg.pwrStat 8 = false ∧
      b'.rb Reg.pwrStat 3 = true ∧ b'.rf Reg.pwrStat 4 4 = 4) ∧
    (b.sys.base = 0xA → b.rb Reg.pwrStat 8 = false →
      (b.wakeHolds kind = true → b.pow.phase = 1 → Ends s (.wakeEvent kind) fun b' => b'.pow = { b.pow with phase := 2 } ∧
        b'.reg Reg.wakeLast = BitVec.ofNat 32 (2 ^ 31 + (if b.wakeSource ≠ none then 1 else if kind = 2 ∨ kind = 3 then kind
          else if b.wakeTime = true then 4 else kind)) ∧
        b'.reg Reg.wakeSrc = BitVec.ofNat 32 ((b.wakeSource.map fun n => 2 ^ 31 + n).getD 0) ∧ b'.sys = b.sys) ∧
      (b.pow.phase = 2 → b.pow.vack = true → Ends s .wakeBanksOn fun b' => b'.pow.phase = 3 ∧ b'.mem = b.mem ∧
        ∀ k, k < 96 → (b'.bank k).cur = if b.pow.slept.contains k = true then 0 else (b.bank k).cur) ∧
      (b.pow.phase = 2 → b.pow.vack = false → Leaves s .wakeBanksOn { b with pow := { b.pow with late := true } }) ∧
      (b.pow.phase = 3 → (∀ e, (b.eng e).haltReq = false) →
        Ends s (.wakePoint ns) fun b' => b'.sys = { b.sys with base := b.pow.prior } ∧ b'.pow.phase = 0 ∧ b'.rb (regKey 0x001 Reg.hEvtRaw) 0 = true ∧
          b'.reg Reg.wakeNs = BitVec.ofNat 32 (if b.pow.late then ns else 6000) ∧ b'.mem = b.mem ∧ b'.tasks = b.tasks)) ∧
    (b.pow.late = false → Leaves s (.pwrVack level) { b with pow := { b.pow with vack := level } }) ∧
    (b.pow.late = true → b.pow.phase = 2 → Ends s (.pwrVack true) fun b' => b'.pow.phase = 3 ∧ b'.rb (regKey 0x001 Reg.hFault) 1 = true ∧
      b'.rb (regKey pgSafety Reg.hFault) 4 = true ∧ b'.mem = b.mem)

/-- Pacing and temperature: the level in force is the largest of the droop inputs' (held until each bit's 50 ns are over), the cap's and
the configured one; entering level 3 or 4, from above or below, is recorded as an event and a supply fault, and the highest level is kept
for the step meter. A temperature alert shows in `STAT` and its
rise raises its event. -/
def Rules.Pacing : Prop :=
  ∀ (s : State) (code : BitVec 4) (cap : BitVec 2) (k : Nat) (level : Bool),
    let b := s.blk
    let lvl := fun (h : BitVec 4) (c : Nat) => max (if h.getLsbD 3 then 4 else if h.getLsbD 2 then 3 else if h.getLsbD 1 then 2 else
      if h.getLsbD 0 then 1 else 0) (max c (b.rf Reg.pcfg 0 2))
    let sets := fun (i : Instr) (p : Pow) => Ends s i fun b' => b'.pow = { p with peak := b'.pow.peak } ∧
      b'.rf Reg.pwrStat 0 3 = lvl p.held p.cap ∧ b'.mem = b.mem ∧ b'.engines = b.engines ∧
      (2 ≤ b.sys.base → b.rf Reg.pwrStat 0 3 ≠ lvl p.held p.cap → b'.pow.peak = max b.pow.peak (lvl p.held p.cap) ∧
        (3 ≤ lvl p.held p.cap → b'.rb (regKey 0x001 Reg.hEvtRaw) 2 = true ∧ b'.rb (regKey pgSafety Reg.hFault) 4 = true))
    let tj := fun (i : Instr) (n : Nat) => Ends s i fun b' => b.OnlyRegs b' [Reg.pwrStat, regKey 0x001 Reg.hEvtRaw] ∧
      b'.rb Reg.pwrStat (9 + n) = level ∧
      (2 ≤ b.sys.base → level = true → b.rb Reg.pwrStat (9 + n) = false → b'.rb (regKey 0x001 Reg.hEvtRaw) (3 + n) = true)
    b.pow.cap ≤ 2 → b.rf Reg.pcfg 0 2 ≤ 2 →
    sets (.pwrDroop code) { b.pow with code := code, held := b.pow.held ||| code } ∧
    (k < 4 → b.pow.code.getLsbD k = false → sets (.droopHold k) { b.pow with held := b.pow.held &&& ~~~ (BitVec.ofNat 4 (2 ^ k)) }) ∧
    (k < 4 → b.pow.code.getLsbD k = true → Leaves s (.droopHold k) b) ∧
    sets (.pwrCap cap) { b.pow with cap := min 2 cap.toNat } ∧
    tj (.tjWarn level) 0 ∧ tj (.tjCrit level) 1

/-- Sleep, wake and droop pacing.
Model's choices and readings met here: DEDUCED, logs 65, 102, 168; DESIGN CHOICE, log 101. -/
def Obligations.Power : Prop := Rules.SleepAndWake ∧ Rules.Pacing

/-- Bank power: a request for one bank that its state admits starts a transition, at once, or deferred while a burst is in flight there
and it powers down; one that is not admitted sets `FAULT` bit 0 alone. The transition's end gives the bank its new state, a bank that
was off reading zero from then on. -/
def Rules.BankPower : Prop :=
  ∀ (s : State) (m j i : Nat) (v : Word),
    let b := s.blk
    let k := 16 * j + i
    let x := b.bank k
    let w := fld v (2 * i) 2
    j < 6 → i < 16 →
    (b.grants m (Reg.bankPwr j) = true → (∀ n, n < 16 → n ≠ i → fld v (2 * n) 2 = b.rf (Reg.bankPwr j) (2 * n) 2) →
      w ≠ 3 → w ≠ b.rf (Reg.bankPwr j) (2 * i) 2 → x.going = none → x.next = none → x.cur ≠ w →
      (¬ (x.cur = 2 ∧ w = 1) → (x.cur ≠ 0 ∨ b.bankPinned k = false) → Ends s (.bankPwr m j v) fun b' =>
        (b'.bank k).going = some w ∧ (b'.bank k).begun = (decide (w = 0) || !(b.burstOn k)) ∧ (b'.bank k).cur = x.cur ∧
        (∀ n, n ≠ k → b'.bank n = b.bank n) ∧ b'.rf (Reg.bankPwr j) (2 * i) 2 = w ∧ b'.rf (Reg.bankStat j) (2 * i) 2 = 3 ∧
        b'.mem = b.mem ∧ ∀ r, r ≠ Reg.bankPwr j → r ≠ Reg.bankStat j → b'.reg r = b.reg r) ∧
      ((x.cur = 2 ∧ w = 1) ∨ (x.cur = 0 ∧ b.bankPinned k = true) → Leaves s (.bankPwr m j v) (b.flt pgScratch 0))) ∧
    (x.going ≠ none → x.begun = false → b.burstOn k = false → Leaves s (.bankTransitionStart k) (b.setBank k { x with begun := true })) ∧
    (∀ t, x.going = some t → t < 3 → x.begun = true → x.next = none → Ends s (.pwrDone k) fun b' =>
      b'.bank k = { x with cur := t, going := none, begun := false } ∧ (∀ n, n ≠ k → b'.bank n = b.bank n) ∧
      b'.rf (Reg.bankStat j) (2 * i) 2 = t ∧ b'.rb (regKey pgScratch Reg.hEvtRaw) 4 = true ∧
      ∀ a, b'.byte a = if x.cur = 2 ∧ t = 0 ∧ a / 0x40000 = k then 0 else b.byte a)

/-- A corrected word's write-back makes it sound; a spare whose copy is complete serves its bank, which counts as retired; the collision
record clears by a 1 written to VALID. -/
def Rules.MemoryUpkeep : Prop :=
  ∀ (s : State) (m a k n : Nat) (v : Word),
    let b := s.blk
    (b.eccAt a = 2 → Ends s (.eccWriteBack a) fun b' => b'.mem = b.mem ∧ b'.regs = b.regs ∧
      ∀ j, b'.eccAt j = if j / 16 = a / 16 then 0 else b.eccAt j) ∧
    (k < 4 → n < 96 → (b.copying.find? fun x => x.1 == k) = some (k, n) → Ends s (.spareCopyDone k) fun b' =>
      b'.reg (Reg.spare k) = BitVec.ofNat 32 (128 + n) ∧ b'.rb (Reg.faulty (n / 32)) (n % 32) = true ∧
      b'.rb (regKey pgScratch Reg.hEvtRaw) 2 = true ∧ b'.rb (regKey pgSafety Reg.hFault) 1 = true ∧ b'.mem = b.mem ∧
      (∀ x, x ∈ b'.copying → x.1 ≠ k)) ∧
    (b.reaches m Reg.collideMst = true → tbit v 31 = true →
      Leaves s (.collideValidClear m v) ((b.setReg Reg.collideMst 0).setReg Reg.collideAddr 0))

/-- Power of the banks, error correction and spare banks.
Model's choices and readings met here: DEDUCED, logs 16, 17, 96; DESIGN CHOICE, logs 55, 106. -/
def Obligations.MemoryBanks : Prop := Rules.BankPower ∧ Rules.MemoryUpkeep

/-! Drive unit, sample ports and the block mover (R242 to R312). -/

/-- `DUTY` on a leg granted to the engine in Split stages the value; without HOLD it commits every staged leg of the group, to pending or,
under IMMEDIATE, to active; on a leg that is not granted it raises `STORE_ACCESS`, SUB 3, and nothing is staged.
Model's choices and readings met here: DEDUCED, log 22. -/
def Obligations.DutyInstruction : Prop :=
  ∀ (s : State) (e : Nat) (leg v : Entry128) (under : List Entry128),
    let b := s.blk
    let l := b.lead e
    let c := b.curTask l
    let n := leg.toNat % 32
    let g := n / 3
    let j := n % 3
    let word : Word := BitVec.ofNat 32 (fld (v.setWidth 32) 0 25)
    b.twin (l / 2) = false → b.quiet e 1 = true → (b.stackOf l false).cache = leg :: v :: under →
    under.length ≤ (b.stackOf l false).depth → (b.stackOf l true).fits 0 0 = true →
    (n < 24 → b.legGranted n l = true → Ends s (.duty e) fun b' =>
      (b'.stackOf l false).cache = under ∧ (b'.curTask l).pc = c.pc + 1 ∧ b'.mem = b.mem ∧
      (v.getLsbD 25 = true → b'.reg (Reg.cmpStg g j) = orBit word 31 ∧ b'.reg (Reg.cmpPend g j) = b.reg (Reg.cmpPend g j) ∧
        b'.reg (Reg.cmpAct g j) = b.reg (Reg.cmpAct g j)) ∧
      (v.getLsbD 25 = false → b'.reg (Reg.cmpStg g j) = 0 ∧ b'.rb (Reg.gstat g) (8 + j) = true ∧ OutEvent.pulse "drv_commit" g ∈ b'.out ∧
        (if b.rf (Reg.gctrlReg g) 2 2 = 2 then b'.reg (Reg.cmpAct g j) = word ∧ b'.reg (Reg.cmpPend g j) = 0
         else b'.reg (Reg.cmpPend g j) = orBit word 31 ∧ b'.reg (Reg.cmpAct g j) = b.reg (Reg.cmpAct g j)))) ∧
    (24 ≤ n ∨ b.legGranted n l = false → Ends s (.duty e) fun b' =>
      let lev := if b.pl l = 0 ∧ tbit (b.eng l).delegLive 0x07 = true then 1 else 3
      b'.pl l = lev ∧ (if lev = 3 then (b'.eng l).msavePc else (b'.curTask l).ssavePc) = c.pc ∧
      fld (if lev = 3 then (b'.eng l).mcause else (b'.curTask l).scause) 0 8 = 0x07 ∧
      fld (if lev = 3 then (b'.eng l).mcause else (b'.curTask l).scause) 12 6 = 3 ∧
      (∀ g j, g < 8 → j < 3 → b'.reg (Reg.cmpStg g j) = b.reg (Reg.cmpStg g j)) ∧ b'.mem = b.mem)

/-- A period starts where its grid point is reached: index and stamp show it, every pending value that was not committed too late becomes
active, a group in ARMING whose three legs have commits is in RUN, and the edges of each leg's signal are placed: from low, a rise and a
fall around the centre or from the start, none for 0, the rise alone for the whole period. The first period's stamp is the grid point or
1 ns past it. In centre mode the top updates under UPD 1.
Model's choices and readings met here: DESIGN CHOICE, logs 59, 145; DEDUCED, log 138. -/
def Obligations.DrivePeriods : Prop :=
  ∀ (s : State) (g : Nat) (late : BitVec 3),
    let b := s.blk
    let k := (b.nextPeriod g).1
    let st := b.startStamp g
    let due := fun (j : Nat) => b.rb (Reg.cmpPend g j) 31 = true ∧ late.getLsbD j = false
    let moved := fun (b' : Blk) => ∀ j, j < 3 →
      (due j → b'.reg (Reg.cmpAct g j) = BitVec.ofNat 32 (b.rf (Reg.cmpPend g j) 0 25) ∧ b'.reg (Reg.cmpPend g j) = 0) ∧
      (¬ due j → b'.reg (Reg.cmpAct g j) = b.reg (Reg.cmpAct g j) ∧ b'.reg (Reg.cmpPend g j) = b.reg (Reg.cmpPend g j))
    g < 8 →
    (b.mayStart g = true → Ends s (.periodStart g late) fun b' =>
      (b'.grp g).going = true ∧ (b'.grp g).k = k ∧ (b'.grp g).next = none ∧ b'.reg (Reg.pcount g) = BitVec.ofNat 32 k ∧
      b'.reg (Reg.pstampLo g) = BitVec.ofNat 32 st ∧ b'.reg (Reg.pstampHi g) = BitVec.ofNat 32 (st / 2 ^ 32) ∧ moved b' ∧
      OutEvent.pulse "drv_pstart" g ∈ b'.out ∧ b'.rb (regKey (0x060 + g / 4) Reg.hEvtRaw) (g % 4) = true ∧
      b'.gState g = (if b.gState g = 3 ∧ b.rf (Reg.gstat g) 8 3 = 7 then 1 else b.gState g) ∧
      (∀ j, j < 3 → let x := b.leg (3 * g + j); let c := b'.legC (3 * g + j); let p := b.gP g
        x.plan = [] → x.s = false → x.lo = false → (b'.grp g).adj = 0 → 0 < p →
        (b'.leg (3 * g + j)).plan = ((if c = 0 then [] else if p ≤ c then [(true, 0)]
          else if b.rb (Reg.gctrlReg g) 1 = true then [(true, ((p - c) / 2 : Nat)), (false, ((p - c) / 2 + c : Nat))]
          else [(true, 0), (false, (c : Nat))]) : List (Bool × Int))) ∧
      (∀ h, h ≠ g → b'.grp h = b.grp h) ∧ b'.mem = b.mem) ∧
    (∀ a, (b.nextPeriod g).2 = some a → b.tb.cnt.toNat ≤ a → a ≤ st ∧ (b.tb.last.toNat ≤ a → st ≤ a + 1)) ∧
    (b.gEn g = true → b.rb (Reg.gctrlReg g) 1 = true → (b.grp g).going = true → (b.grp g).top = false → b.drive.lost = false →
      Ends s (.periodTop g late) fun b' => b'.grp g = { b.grp g with top := true, now := (b'.grp g).now } ∧ OutEvent.pulse "drv_top" g ∈ b'.out ∧
        (if b.rf (Reg.gctrlReg g) 2 2 = 1 then moved b' else b'.regs = b.regs) ∧ b'.mem = b.mem) ∧
    (b.rb (Reg.trigReg g) 31 = true → (b.grp g).going = true → b.gEn g = true → b.drive.lost = false →
      (b.rf (Reg.trigReg g) 0 20 : Int) < (b.rf (Reg.pcnt g) 0 20 : Int) + (b.grp g).adj →
      Leaves s (.trig g) { b with out := .pulse "drv_trig" g :: b.out })

/-- The legs: the edge of the switching signal that is placed next turns the output off that the signal leaves, and the end of the dead time turns the other
one on, in RUN where the pulse is long enough, or in SAFE where the pattern says so. No drive command ever leaves both outputs of a leg
on that did not stand so before. -/
def Rules.DriveLegs : Prop :=
  ∀ (s : State) (n g k m : Nat) (rise high : Bool) (late : BitVec 3) (v : Word),
    let b := s.blk
    let x := b.leg n
    let apart := fun (i : Instr) => Ends s i fun b' => ∀ j, ((b.leg j).hi && (b.leg j).lo) = false → ((b'.leg j).hi && (b'.leg j).lo) = false
    n < 24 →
    (∀ p r, x.plan = (rise, p) :: r → b.gEn (n / 3) = true → (b.grp (n / 3)).going = true → b.drive.lost = false → p ≤ b.gLen (n / 3) →
      Ends s (.switchingEdge n rise) fun b' =>
        (b'.leg n).s = rise ∧ (b'.leg n).since = p ∧ (b'.leg n).plan = r ∧
        (b.follows n = true → (if rise then (b'.leg n).lo else (b'.leg n).hi) = false) ∧
        (if rise then (b'.leg n).hi = x.hi else (b'.leg n).lo = x.lo) ∧ (∀ j, j ≠ n → b'.leg j = b.leg j) ∧ b'.regs = b.regs ∧ b'.mem = b.mem) ∧
    (b.gEn (n / 3) = true → x.hi = false → x.lo = false →
      (b.follows n = true → x.s = high → b.tooShort n = false → Ends s (.deadTime n high) fun b' =>
        (b'.leg n).hi = high ∧ (b'.leg n).lo = !high ∧ (b'.leg n).on = x.since + (b.rf (Reg.dead (n / 3)) 0 16 : Nat) ∧
        (∀ j, j ≠ n → b'.leg j = b.leg j) ∧ b'.regs = b.regs) ∧
      (b.gState (n / 3) = 2 → b.safePat n = (if high then 1 else 2) → Ends s (.deadTime n high) fun b' =>
        (b'.leg n).hi = high ∧ (b'.leg n).lo = !high ∧ (∀ j, j ≠ n → b'.leg j = b.leg j) ∧ b'.regs = b.regs)) ∧
    apart (.periodStart g late) ∧ apart (.periodTop g late) ∧ apart (.switchingEdge n rise) ∧ apart (.deadTime n high) ∧ apart (.trig g) ∧
    apart (.wdog g) ∧ apart .clk ∧ apart .drvRefclkReturn ∧ apart (.gctrl m g v) ∧ apart (.gstatClear m g v) ∧ apart (.trip k) ∧
    apart (.tripDeassert k) ∧ apart (.tlatchClear m v)

/-- What makes a drive group safe, and what lets it go on: a trip that names it, the watchdog, the loss of the clock or `GCTRL.SAFE` takes an
enabled group to SAFE with its values discarded; disabling it turns every output off; enabling it without a cause starts ARMING. -/
def Rules.DriveSafety : Prop :=
  ∀ (s : State) (m g k : Nat) (v : Word),
    let b := s.blk
    let safe := fun (b' : Blk) (h : Nat) => b'.gState h = 2 ∧ (∀ j, j < 3 → b.gState h ≠ 2 → b'.reg (Reg.cmpStg h j) = 0 ∧ b'.reg (Reg.cmpPend h j) = 0) ∧
      ∀ j, j < 3 → ((b'.leg (3 * h + j)).hi = true → b'.safePat (3 * h + j) = 1) ∧ ((b'.leg (3 * h + j)).lo = true → b'.safePat (3 * h + j) = 2)
    let upd := fld v 2 2 = 3
    g < 8 → k < 32 →
    (b.rb (Reg.tcfg k) 8 = true → 2 ≤ b.sys.base → Ends s (.trip k) fun b' =>
      b'.rb Reg.tlatch k = true ∧ b'.rb Reg.tlevel k = true ∧ b'.rb (regKey 0x063 Reg.hEvtRaw) 0 = true ∧
      (b.reg Reg.tlatch = 0 → b'.reg Reg.tfirst = BitVec.ofNat 32 (k + 2 ^ 31) ∧ b'.reg Reg.tstampLo = b.interp.setWidth 32) ∧
      (∀ h, h < 8 → b.rb (Reg.tcfg k) h = true → b.gEn h = true → safe b' h) ∧ b'.mem = b.mem) ∧
    Leaves s (.tripDeassert k) (b.clrBit Reg.tlevel k) ∧
    (b.reaches m Reg.tlatch = true → Ends s (.tlatchClear m v) fun b' =>
      b'.reg Reg.tlatch = b.reg Reg.tlatch &&& ~~~ (v &&& ~~~ (b.reg Reg.tlevel)) ∧ b'.mem = b.mem) ∧
    (b.gEn g = true → b.rf (Reg.gctrlReg g) 16 8 ≠ 0 → b.rf (Reg.gctrlReg g) 16 8 ≤ (b.grp g).idle → Ends s (.wdog g) fun b' =>
      b'.rb (Reg.gstat g) 5 = true ∧ safe b' g ∧ b'.mem = b.mem) ∧
    (b.clkReq = true → Ends s .clk fun b' => b'.drive.lost = true ∧
      (∀ h, h < 8 → b.gEn h = true → b'.rb (Reg.gstat h) 6 = true ∧ safe b' h) ∧ b'.mem = b.mem) ∧
    (b.drive.lost = true → Ends s .drvRefclkReturn fun b' => b'.drive.lost = false ∧ b'.regs = b.regs ∧ b'.mem = b.mem ∧
      ∀ h, h < 8 → b'.grp h = if (b.grp h).going then { b.grp h with next := some (b.regrid h) } else b.grp h) ∧
    (b.grants m (Reg.gctrlReg g) = true → ¬ upd → (b.gEn g = false ∨ tbit v 1 = b.rb (Reg.gctrlReg g) 1) → Ends s (.gctrl m g v) fun b' =>
      b'.reg (Reg.gctrlReg g) = (b.reg (Reg.gctrlReg g) &&& 0xFF00E0C0) ||| (v &&& 0xFF1F3F) ∧
      (b.sys.hold = true → safe b' g) ∧
      (tbit v 0 = false → b.sys.hold = false → b'.gState g = 0 ∧ (b.gState g ≠ 0 → ∀ j, j < 3 → (b'.leg (3 * g + j)).hi = false ∧ (b'.leg (3 * g + j)).lo = false)) ∧
      (tbit v 0 = true → tbit v 5 = true → safe b' g) ∧
      (tbit v 0 = true → tbit v 5 = false → b.tripNames g = false → b.sys.hold = false → b.rf (Reg.gstat g) 5 2 = 0 →
        (b.gState g = 0 ∨ b.gState g = 2) → b'.gState g = 3 ∧ b'.rf (Reg.gstat g) 8 3 = 0) ∧ b'.mem = b.mem) ∧
    (b.grants m (Reg.gctrlReg g) = true → b.gEn g = true → tbit v 1 ≠ b.rb (Reg.gctrlReg g) 1 → Leaves s (.gctrl m g v) (b.flt (0x060 + g / 4) 0)) ∧
    (b.reaches m (Reg.gstat g) = true → Ends s (.gstatClear m g v) fun b' =>
      b'.rb (Reg.gstat g) 5 = (b.rb (Reg.gstat g) 5 && !(tbit v 5)) ∧
      b'.rb (Reg.gstat g) 6 = (b.rb (Reg.gstat g) 6 && !(tbit v 6 && !b.drive.lost)) ∧ b'.mem = b.mem)

/-- Switching of the drive legs, trips and the bypass.
Model's choices and readings met here: DESIGN CHOICE, logs 59, 145; DEDUCED, logs 60, 146. -/
def Obligations.DriveOutputs : Prop := Rules.DriveLegs ∧ Rules.DriveSafety

/-- A sample port's transfer, no other request or acknowledge being high: without BYPASS it replaces the last sample and raises the port's event;
with it, it is held until accepted, and a second one replaces it with an overrun noted, or waits. A request that rises beside another is
discarded, with one that still waits, and counted. A port whose request stays high after its acknowledge is retired. -/
def Rules.SamplePorts : Prop :=
  ∀ (s : State) (n : Nat) (d : BitVec 16) (tag : BitVec 4),
    let b := s.blk
    let w : Word := BitVec.ofNat 32 (d.toNat + tag.toNat * 2 ^ 16)
    let i : Instr := .sampleTransfer n d tag true
    let up := { b with drive := { b.drive with req := b.drive.req ++ [n] } }
    n < 32 → 2 ≤ b.sys.base →
    (b.drive.req = [] → b.drive.wait = none →
      (b.spOn n = true → b.rb (Reg.spCfg n) 1 = false → Leaves s i ((up.setReg (Reg.last n) w).setBit (regKey 0x062 Reg.hEvtRaw) n)) ∧
      (b.spOn n = true → b.rb (Reg.spCfg n) 1 = true →
        (b.rb (Reg.last n) 31 = false → Leaves s i (up.setReg (Reg.last n) (orBit w 31))) ∧
        (b.rb (Reg.last n) 31 = true → b.rb (Reg.spCfg n) 2 = false → Ends s i fun b' =>
          up.OnlyRegs b' [Reg.last n, Reg.ovrFlags, Reg.ovrCnt, regKey 0x062 Reg.hFault] ∧ b'.reg (Reg.last n) = orBit w 31 ∧
          b'.rb Reg.ovrFlags n = true ∧ b'.rf Reg.ovrCnt 0 16 = min (2 ^ 16 - 1) (b.rf Reg.ovrCnt 0 16 + 1)) ∧
        (b.rb (Reg.last n) 31 = true → b.rb (Reg.spCfg n) 2 = true →
          Leaves s i { up with drive := { up.drive with wait := some (n, d, tag) } })) ∧
      (b.spOn n = false → Leaves s i up)) ∧
    (n ∉ b.drive.req → b.drive.req ≠ [] ∨ b.drive.wait ≠ none → Ends s i fun b' =>
      Blk.OnlyRegs { up with drive := { up.drive with wait := none } } b' [Reg.transCnt] ∧ b.rf Reg.transCnt 0 16 ≤ b'.rf Reg.transCnt 0 16 ∧
      (b.rf Reg.transCnt 0 16 < 2 ^ 16 - 1 → b.rf Reg.transCnt 0 16 < b'.rf Reg.transCnt 0 16)) ∧
    Leaves s (.sampleTransfer n d tag false) { b with drive := { b.drive with req := b.drive.req.filter fun k => k ≠ n } } ∧
    (b.spAck n = true → b.rb Reg.retSp n = false → Ends s (.samplePortStuck n) fun b' => b'.rb Reg.retSp n = true ∧ b'.degraded = true ∧
      b'.rb (regKey pgSafety Reg.hFault) 1 = true ∧ b'.mem = b.mem)

/-- Encoders and captures: a change of one input moves the position by one, wrapping at `CPR` with the revolutions counted, a change of
both is an error and moves nothing; the index copies the position; a capture joins its FIFO of four with its stamp, one beyond sets
OVF; POP takes the oldest, `CLR_OVF` clears OVF. -/
def Rules.EncodersAndCaptures : Prop :=
  ∀ (s : State) (m k : Nat) (x y rise : Bool),
    let b := s.blk
    let old := Tab.get (fun _ => (false, false)) b.drive.enc k
    let d := if b.rb (Reg.encCfg k) 1 then -(quadStep old (x, y)) else quadStep old (x, y)
    let cpr := b.rf (Reg.encCpr k) 0 24
    let pos := b.reg (Reg.encPos k)
    let q := b.cap k
    k < 8 →
    (b.rb (Reg.encCfg k) 0 = true →
      (old.1 ≠ x → old.2 ≠ y → Ends s (.encEdge k x y) fun b' => b'.reg (Reg.encPos k) = pos ∧
        b'.rf (Reg.encErr k) 0 16 = min (2 ^ 16 - 1) (b.rf (Reg.encErr k) 0 16 + 1) ∧ b'.mem = b.mem) ∧
      (¬ (old.1 ≠ x ↔ old.2 ≠ y) → Ends s (.encEdge k x y) fun b' => (d = 1 ∨ d = -1) ∧
        b'.reg (Reg.encEdgeReg k) = b.interp.setWidth 32 ∧ b'.reg (Reg.encErr k) = b.reg (Reg.encErr k) ∧
        (cpr = 0 → b'.reg (Reg.encPos k) = pos + BitVec.ofInt 32 d ∧ b'.reg (Reg.encRev k) = b.reg (Reg.encRev k)) ∧
        (pos.toNat < cpr → b'.reg (Reg.encPos k) = BitVec.ofInt 32 ((pos.toNat + d) % cpr) ∧
          b'.reg (Reg.encRev k) = b.reg (Reg.encRev k) + BitVec.ofInt 32 ((pos.toNat + d) / cpr)) ∧ b'.mem = b.mem) ∧
      (Ends s (.encIndex k) fun b' => b'.reg (Reg.encZ k) = pos ∧ b'.rb (regKey 0x064 Reg.hEvtRaw) (8 + k) = true ∧
        b'.reg (Reg.encPos k) = (if b.rb (Reg.encCfg k) 2 then 0 else pos) ∧ b'.mem = b.mem)) ∧
    (b.rb (Reg.capCfg k) 8 = true → b.rb (Reg.capCfg k) (if rise then 0 else 1) = true →
      (q.length < 4 → Ends s (.captureEdge k rise) fun b' =>
        b'.cap k = q ++ [(b.interp - BitVec.ofNat 64 (2 * b.rf (Reg.capCfg k) 2 4), rise)] ∧ b'.rf (Reg.capStat k) 0 3 = q.length + 1 ∧
        b'.rb (regKey 0x064 Reg.hEvtRaw) k = true ∧ b'.mem = b.mem) ∧
      (4 ≤ q.length → Leaves s (.captureEdge k rise) (b.setBit (Reg.capStat k) 4))) ∧
    (b.grants m (Reg.capPop k) = true →
      (q.length ≤ 4 → Ends s (.pop m k) fun b' => b'.cap k = q.drop 1 ∧ (∀ j, j ≠ k → b'.cap j = b.cap j) ∧
        b'.rf (Reg.capStat k) 0 3 = q.length - 1 ∧ b'.mem = b.mem) ∧
      Leaves s (.clrOvf m k) (b.clrBit (Reg.capStat k) 4))

/-- Sample ports, encoders and captures.
Model's choices and readings met here: DESIGN CHOICE, logs 11, 59, 147; DEDUCED, log 104. -/
def Obligations.SamplesAndCaptures : Prop := Rules.SamplePorts ∧ Rules.EncodersAndCaptures

/-- `CCMD` and `APPEND`: START loads the descriptor of an idle or ended channel, STOP leaves it idle with nothing staged and no path, RESUME lets a
halted one run on, `APPEND` marks a busy one; a command that its state does not admit sets `CFG_REFUSED`, and on channels 0 to 3 one from
below PL 3 `PRIV_REFUSED`. -/
def Rules.MoverCommands : Prop :=
  ∀ (s : State) (m ch : Nat) (v : Word),
    let b := s.blk
    let st := b.chState ch
    let priv := 4 ≤ ch ∨ m = 20 ∨ (m < 16 ∧ b.pageLevel m (chPage ch) = some 3)
    ch < 64 → b.grants m (Reg.ccmd ch) = true →
    (priv →
      (st = chIdle ∨ st = chEnded → Ends s (.channelStart m ch) fun b' => b'.chState ch = chRunning ∧ b'.ch ch = { b.ch ch with phase := .load } ∧
        b'.rb (Reg.chRun (ch / 16)) (ch % 16) = true ∧ (∀ n, n ≠ ch → b'.ch n = b.ch n) ∧ b'.mem = b.mem) ∧
      (st ≠ chIdle → st ≠ chEnded → Leaves s (.channelStart m ch) (b.chFault ch 0)) ∧
      (st = chRunning ∨ st = chPaused ∨ st = chEnded ∨ st = chHalted → Ends s (.channelStop m ch) fun b' => b'.chState ch = chIdle ∧
        (b'.ch ch).buf = [] ∧ (b'.ch ch).burst = false ∧ (b'.ch ch).outR = false ∧ (b'.ch ch).outW = false ∧ b'.rf (Reg.chStat ch) 6 2 = 0 ∧
        ch ∉ b'.paths.held ∧ (∀ n, n ≠ ch → b'.ch n = b.ch n) ∧ b'.mem = b.mem) ∧
      (st = chHalted → Ends s (.channelResume m ch) fun b' => b'.chState ch = chRunning ∧ b'.chans = b.chans ∧ b'.mem = b.mem) ∧
      (st ≠ chHalted → Leaves s (.channelResume m ch) (b.chFault ch 0)) ∧
      (st = chRunning ∨ st = chPaused ∨ st = chHalted → tbit v 0 = true → Leaves s (.append m ch v) (b.setBit (Reg.chStat ch) 3))) ∧
    (¬ priv → Leaves s (.channelStart m ch) (b.chFault ch 1) ∧ Leaves s (.channelStop m ch) (b.chFault ch 1) ∧
      Leaves s (.channelResume m ch) (b.chFault ch 1) ∧ Leaves s (.append m ch v) (b.chFault ch 1))

/-- A running channel that holds a path loads its descriptor's eight words little-endian from the address in `DESC`, and at the chain's LINK
word goes on to the next descriptor or, with END set and nothing appended, ends; either gives up the path. -/
def Rules.MoverDescriptors : Prop :=
  ∀ (s : State) (ch : Nat),
    let b := s.blk
    let a := b.descAt ch
    let w := fun (o k : Nat) => leNat (b.bytes (a + o) k)
    let link := leNat (b.bytes (a + 0x20) 4)
    ch < 64 → b.chState ch = chRunning → (b.chTurn ch).2 = true →
    ((b.ch ch).phase = .load → b.mCheck 16 (b.chOwner ch) .load a 32 = none → a + 32 ≤ 0x1800000 → (∀ j, a ≤ j → j < a + 32 → b.eccAt j = 0) →
      w 16 2 ≠ 0 → w 18 2 ≠ 0 → w 28 4 < 16 → Ends s (.descriptorLoad ch) fun b' =>
        b'.ch ch = { b.ch ch with phase := .data, src := w 0 8, dst := w 8 8, xcnt := w 16 2, ycnt := w 18 2,
                                  sstr := (BitVec.ofNat 32 (w 20 4)).toInt, dstr := (BitVec.ofNat 32 (w 24 4)).toInt, flags := BitVec.ofNat 32 (w 28 4) } ∧
        b'.reg (Reg.posReg ch) = 0 ∧ b'.reg (Reg.doneReg ch) = 0 ∧ b'.chState ch = chRunning ∧ ch ∉ b'.paths.held ∧ b'.mem = b.mem) ∧
    ((b.ch ch).phase = .link → b.mCheck 16 (b.chOwner ch) .load (a + 0x20) 4 = none → a + 0x24 ≤ 0x1800000 → b.eccAt (a + 0x20) = 0 →
      (link % 2 = 0 → link / 2 ^ 25 = 0 → Ends s (.linkRead ch) fun b' => b'.descAt ch = link / 16 * 16 ∧ (b'.ch ch).phase = .load ∧
        b'.chState ch = chRunning ∧ ch ∉ b'.paths.held ∧ b'.mem = b.mem) ∧
      (link % 2 = 1 → b.rb (Reg.chStat ch) 3 = false → Ends s (.linkRead ch) fun b' => b'.chState ch = chEnded ∧ b'.ch ch = b.ch ch ∧
        ch ∉ b'.paths.held ∧ b'.mem = b.mem))

/-- Commands and descriptors of the block mover.
Model's choices and readings met here: DEDUCED, logs 94, 97. -/
def Obligations.MoverControl : Prop := Rules.MoverCommands ∧ Rules.MoverDescriptors

/-- A burst between two places of the scratchpad, both admitted and sound, copies its bytes as they stood before it, whatever the overlap,
changes no other byte, and moves the position and the count on by its length. Its channel holds a path and the eight beats at most that a
burst takes are carried at once.
Model's choices and readings met here: DEDUCED, logs 107, 149. -/
def Obligations.MoverBurstCopies : Prop :=
  ∀ (s : State) (ch k : Nat),
    let b := s.blk
    let c := b.ch ch
    let x := b.chX ch
    let y := b.chY ch
    let n := b.burstLen ch
    let a := (srcSide c).at x y
    let d := (dstSide c).at x y
    let good := fun (sd : Side) => b.sideNode sd = none ∧ sd.ok x y = true ∧ sd.ok (x + n - 1) y = true
    ch < 64 → 8 ≤ k → (b.chTurn ch).2 = true → c.phase = .data → c.burst = false → c.buf = [] → x < c.xcnt → c.xcnt < 2 ^ 16 → b.chOwner ch = none → good (srcSide c) → good (dstSide c) →
    b.mCheck 16 none .load a n = none → b.mCheck 16 none .store d n = none → a + n ≤ 0x1800000 → d + n ≤ 0x1800000 →
    (∀ j, j < n → b.eccAt (a + j) = 0 ∧ b.eccAt (d + j) = 0) →
    Ends s (.moverBurst ⟨ch, k⟩) fun b' =>
      (∀ j, b'.byte j = if d ≤ j ∧ j < d + n then b.byte (a + (j - d)) else b.byte j) ∧
      (b'.reg (Reg.doneReg ch)).toNat = ((b.reg (Reg.doneReg ch)).toNat + n) % 2 ^ 32 ∧
      (x + n < c.xcnt → b'.chX ch = x + n ∧ b'.chY ch = y) ∧ (b'.ch ch).buf = [] ∧ (b'.ch ch).burst = false

/-! External memory, twins and Milestones (R313 to R345, R412 to R425). -/

/-- Requests of the memory port: an enabled channel is loaded with its credits; of the requests that nothing holds back the first of the
highest priority is sent, with a tag of its own and its write unit, and takes the credits; a credit returned counts. -/
def Rules.MemoryPortRequests : Prop :=
  ∀ (s : State) (m c i : Nat) (v : Word) (w : Bool) (r : MpReq),
    let b := s.blk
    let x := b.chan c
    let may := fun (k : Nat) (o : MpReq) => b.mpBlocked o = false ∧ (∀ y, y ∈ x.q.take k → ¬ (y.mst = o.mst ∧ y.addr = o.addr)) ∧
      (o.write = true → 0 < x.wdCrd)
    c < 2 →
    (b.grants m Reg.mpCtrlReg = true → Ends s (.mpCtrl m v) fun b' => b'.reg Reg.mpCtrlReg = (b.reg Reg.mpCtrlReg &&& 0xFFFFFFFC) ||| (v &&& 3) ∧
      (tbit v c = true → x.en = false → b.chanRet c = false → b'.chan c =
        { x with en := true, rdy := true, reqCrd := Config.reqCrdMax c % 64, wdCrd := Config.wdCrdMax c % 256 }) ∧
      (tbit v c = false → (b'.chan c).en = false) ∧ (tbit v c = x.en → b'.chan c = x) ∧ b'.mem = b.mem) ∧
    (x.en = true → x.rdy = true → 0 < x.reqCrd → x.outst.length < 256 → b.sys.base ≠ 0xA → x.q[i]? = some r → may i r →
      (∀ k o, x.q[k]? = some o → may k o → mpPrio o ≤ mpPrio r ∧ (mpPrio o = mpPrio r → i ≤ k)) →
      Ends s (.mpRequest c) fun b' => ∃ t, t < 256 ∧ (∀ o, o ∈ x.outst → o.tag ≠ t) ∧
        b'.chan c = { x with q := x.q.eraseIdx i, outst := x.outst ++ [{ r with tag := t, tries := r.tries + 1 }], tag := (t + 1) % 256,
                             reqCrd := x.reqCrd - 1, wdCrd := if r.write then x.wdCrd - 1 else x.wdCrd } ∧
        b'.chan (1 - c) = b.chan (1 - c) ∧ b'.regs = b.regs ∧ b'.mem = b.mem) ∧
    ((∀ k o, x.q[k]? = some o → ¬ may k o) → Leaves s (.mpRequest c) b) ∧
    (x.en = true → Leaves s (.creditReturn c w) (b.setChan c (if w then { x with wdCrd := x.wdCrd + 1 } else { x with reqCrd := x.reqCrd + 1 })))

/-- Responses of the memory port: a unit that an engine asked for reaches it, an acknowledged write is over, a late response is counted; a
transfer with an error is counted and queued again until its third attempt; a channel that is lost is retired and its transfers move
to the other one. -/
def Rules.MemoryPortResponses : Prop :=
  ∀ (s : State) (c t l : Nat) (sts : BitVec 2) (crc : BitVec 16) (d : List Byte) (r : MpReq),
    let b := s.blk
    let x := b.chan c
    let crcOk := crc = crc16 (toLe 4 (b.mpDev r.addr / 64) ++ d)
    let calm := b.hst.q = []
    let gone := fun (w : Bool) => x.outst.filter fun o => !(o.tag == t && o.write == w)
    let again := fun (i : Instr) => Ends s i fun b' => b'.chan c = { x with q := r :: x.q, outst := gone r.write } ∧
      b'.rf (Reg.errCnt c) 0 16 = min (2 ^ 16 - 1) (b.rf (Reg.errCnt c) 0 16 + 1) ∧ b'.rb (regKey 0x080 Reg.hEvtRaw) 0 = true ∧
      b'.reg Reg.mpErrAddrLo = BitVec.ofNat 32 r.addr ∧ b'.engines = b.engines ∧ b'.mem = b.mem
    let moves := fun (i : Instr) => Ends s i fun b' => b'.chanRet c = true ∧ (b'.chan c).en = false ∧ (b'.chan c).q = [] ∧ (b'.chan c).outst = [] ∧
      (b'.chan (1 - c)).q = (b.chan (1 - c)).q ++ x.outst ++ x.q ∧ b'.degraded = true ∧ b'.mem = b.mem
    c < 2 → calm →
    (r.write = false → (x.outst.find? fun o => o.tag == t && o.write == false) = some r →
      (sts = 0 → crcOk → r.who = .engine l → (b.eng l).extReq.contains r.addr = true → Ends s (.readResponse c t sts crc d) fun b' =>
        (b'.eng l).extGot = (b.eng l).extGot ++ [(r.addr, d)] ∧ (b'.eng l).extReq = (b.eng l).extReq.filter (fun u => u != r.addr) ∧
        (b'.chan c).outst = gone false ∧ b'.regs = b.regs ∧ b'.mem = b.mem) ∧
      (¬ crcOk ∨ sts = 1 → r.who = .engine l → r.tries < 3 → again (.readResponse c t sts crc d))) ∧
    ((∀ o, o ∈ x.outst → ¬ (o.tag = t ∧ o.write = false)) → Leaves s (.readResponse c t sts crc d) (b.count (Reg.errCnt c) 16 16)) ∧
    (r.write = true → (x.outst.find? fun o => o.tag == t && o.write == true) = some r → r.who = .engine l →
      (sts = 0 → Leaves s (.writeAck c t sts) (b.setChan c { x with outst := gone true })) ∧
      (sts = 1 → r.tries < 3 → again (.writeAck c t sts))) ∧
    ((x.outst.find? fun o => o.tag == t) = some r → r.who = .engine l → r.tries < 3 → again (.mpTmo c t)) ∧
    (x.en = true → b.chanRet c = false → b.chanRet (1 - c) = false → moves (.ctlErr c) ∧ moves (.ctlRdyLoss c))

/-- Requests and responses of the memory port.
Model's choices and readings met here: DESIGN CHOICE, log 12; DEDUCED, logs 68, 73, 133, 157. -/
def Obligations.MemoryPort : Prop := Rules.MemoryPortRequests ∧ Rules.MemoryPortResponses

/-- The release of an output both engines agree on: a Private store is performed, a numbered one takes the next number of its class, enters
the release log of a captured pair and is then performed; the queue moves on.
Model's choices and readings met here: DEDUCED, logs 16, 22; DESIGN CHOICE, log 18. -/
def Obligations.TwinReleases : Prop :=
  ∀ (s : State) (p a c : Nat) (d : List Byte) (o : Out) (rest : List Out),
    let b := s.blk
    let x := b.pair p
    let n := (Tab.get (fun _ => 0) x.seq c + 1) % 2 ^ 32
    2 ≤ b.sys.base → p < 8 → x.q = o :: rest → b.twin p = true → b.retired p = false → x.phase = .live → b.mir.taking = false → o.act = .store a d →
    d.length ≤ 16 → a + d.length ≤ 0x1800000 → b.eccAt a ≠ 1 → b.eccAt (a + 15) ≠ 1 → b.mirrored p = false →
    let stored := fun (b' : Blk) => (b'.pair p).q = rest ∧ b'.tasks = b.tasks ∧ b'.engines = b.engines ∧
      ∀ j, b'.byte j = if a ≤ j ∧ j < a + d.length then d.getD (j - a) 0 else b.byte j
    (o.cls = .priv → Ends s (.outputRelease p .agree) fun b' => stored b' ∧ (b'.pair p).seq = x.seq ∧ (b'.pair p).rels = x.rels) ∧
    (o.cls.code = some c → atOrBelow n (b.reg (Reg.seqLast p c)).toNat = false → Ends s (.outputRelease p .agree) fun b' =>
      stored b' ∧ Tab.get (fun _ => 0) (b'.pair p).seq c = n ∧ b'.reg (Reg.seqLast p c) = BitVec.ofNat 32 n ∧
      (b'.pair p).rels = if b.captured p then
        x.rels ++ [⟨BitVec.ofNat 32 n, BitVec.ofNat 3 c, outDigest c o.tgt o.data, BitVec.ofNat 32 o.spc⟩] else x.rels)

/-- A mismatch of a live pair that has a committed Milestone discards its outputs and pending point and begins a rollback, noted as the last
mismatch; where no Milestone serves it the block resets with cause 5; a second one within ten Milestones, or a compare that does not
complete, is a permanent fault: the pair is retired. -/
def Rules.TwinMismatch : Prop :=
  ∀ (s : State) (p : Nat) (k : Compare),
    let b := s.blk
    let x := b.pair p
    let kind := match k with
      | .agree => 6
      | .output => 0
      | .exception => 1
      | .digest => 2
      | .doubleFault => 3
    2 ≤ b.sys.base → p < 8 → k ≠ .agree → (k = .output → x.q ≠ []) → b.twin p = true → b.broken p = false → b.retired p = false → x.phase = .live →
    (b.noTarget p = false → x.img ≠ none → x.since = none → Ends s (.outputRelease p k) fun b' =>
      (b'.pair p).phase = .rollback ∧ (b'.pair p).q = [] ∧ (b'.pair p).pend = none ∧ (b'.pair p).img = x.img ∧ (b'.pair p).undo = x.undo ∧
      b'.recovering p = true ∧ b'.rf Reg.lastMm 0 3 = p ∧ b'.rf Reg.lastMm 4 4 = kind ∧ b'.rb Reg.lastMm 31 = true ∧
      b'.rb (regKey pgSafety Reg.hEvtRaw) 0 = true ∧ b'.mem = b.mem ∧ b'.tasks = b.tasks) ∧
    (b.noTarget p = true → Ends s (.outputRelease p k) fun b' => b'.sys.base = 1 ∧ b'.rb Reg.rstCause 5 = true ∧ b'.mem = []) ∧
    (b.noTarget p = false → x.img ≠ none → x.since ≠ none → Ends s (.outputRelease p k) fun b' => b'.retired p = true ∧ b'.degraded = true ∧ b'.mem = b.mem) ∧
    Ends s (.compareWatchdog p) fun b' => b'.retired p = true ∧ b'.rb (regKey pgSafety Reg.hFault) 3 = true ∧ b'.rf Reg.lastMm 4 4 = 5 ∧
      (b.spareFor p = none → 2 ≤ b.sys.base → b'.sys.hold = true) ∧ b'.mem = b.mem

/-- Rollback, for an image in which no mover channel waits for a write, puts back the oldest contents of every line that the undo log holds
and no other byte, and the image's tasks, and replay begins with the logged inputs; at the point of detection with all inputs taken the pair resumes live. -/
def Rules.RollbackAndReplay : Prop :=
  ∀ (s : State) (p ns : Nat) (im : Snap Chan) (f : Nat → TaskCtx),
    let b := s.blk
    let x := b.pair p
    2 ≤ b.sys.base → p < 8 →
    (x.phase = .rollback → x.img = some im → im.tasks = (List.range 64).map (fun t => (t, f t)) → b.rb Reg.twin 27 = false →
      (∀ y, y ∈ im.chans → y.2.outW = false) → (∀ u, u ∈ x.undo → u.data.length = 64 ∧ u.line < 0x60000) → Ends s (.rollbackDone p) fun b' =>
        (b'.pair p).phase = .replay ∧ (b'.pair p).spc = 0 ∧ (b'.pair p).seq = im.seq ∧ (b'.pair p).cursor = x.ins ∧ (b'.pair p).q = [] ∧
        (∀ t, t < 64 → b'.task (2 * p) t = f t) ∧ (b'.eng (2 * p)).cur = im.engine.cur ∧ (b'.eng (2 * p)).stack = im.engine.stack ∧
        (∀ (i : Nat) (u : UndoEnt), x.undo[i]? = some u → (∀ (k : Nat) (w : UndoEnt), x.undo[k]? = some w → i < k → w.line ≠ u.line) →
          ∀ j, j < 64 → b'.byte (u.line * 64 + j) = u.data.getD j 0) ∧
        ∀ j, (∀ u, u ∈ x.undo → j / 64 ≠ u.line) → b'.byte j = b.byte j) ∧
    (x.phase = .replay → x.detSpc ≤ x.spc → x.cursor = [] → Ends s (.resumed p ns) fun b' =>
      (b'.pair p).phase = .live ∧ (b'.pair p).take = true ∧ b'.recovering p = false ∧ b'.rb Reg.msStat p = true ∧
      b'.reg (Reg.recNs p) = BitVec.ofNat 32 ns ∧ b'.rb (regKey 0x003 Reg.hEvtRaw) (8 + p) = true ∧ b'.mem = b.mem ∧ b'.tasks = b.tasks)

/-- A twin mismatch, rollback and replay.
Model's choices and readings met here: DEDUCED, logs 28, 31, 48. -/
def Obligations.MismatchAndRecovery : Prop := Rules.TwinMismatch ∧ Rules.RollbackAndReplay

/-- At a switch point with a trigger pending a Milestone point captures the pair's tasks and counters and starts the count of switch points
anew; its commit, once the outputs before it have left and the engines' digests agree, makes it the rollback target, drops what the logs
held before it, counts it, and leaves its image in the free one of the segment's two, with no byte outside the segment changed. `TAKE`
asks for a point.
Model's choices and readings met here: DESIGN CHOICE, logs 10, 151; DEDUCED, logs 23, 26, 115, 116, 117. -/
def Obligations.Milestones : Prop :=
  ∀ (s : State) (m p : Nat) (im : Snap Chan),
    let b := s.blk
    let x := b.pair p
    let bytes := Config.imageBytes im
    let seg := b.segAt p
    let off := if x.imgB then 0xC000 else 0
    p < 8 →
    (b.pointOk p = true → x.phase = .live → b.mirrored p = false → Ends s (.milestonePoint p) fun b' =>
      (∃ y, (b'.pair p).pend = some y ∧ y.spcAt = x.spc ∧ y.tb = b.tb.cnt ∧ y.undoN = x.undo.length ∧ y.insN = x.ins.length ∧
        y.relN = x.rels.length ∧ ∀ t, t < 64 → (t, b.task (2 * p) t) ∈ y.tasks) ∧ (b'.pair p).spc = 0 ∧ (b'.pair p).take = false ∧
      (b'.pair p).img = x.img ∧ b'.rb Reg.msStat (8 + p) = true ∧ b'.mem = b.mem ∧ b'.tasks = b.tasks ∧ b'.engines = b.engines) ∧
    (2 ≤ b.sys.base → b.sys.base ≠ 6 → x.phase = .live → x.pend = some im → x.older = 0 → Ends s (.milestoneCommit p true) fun b' =>
      (b'.pair p).img = some im ∧ (b'.pair p).pend = none ∧ (b'.pair p).undo = x.undo.take (x.undo.length - im.undoN) ∧
      (b'.pair p).rels = x.rels.drop im.relN ∧ (b'.pair p).ins = x.ins.drop im.insN ∧ (b'.pair p).spc = x.spc ∧
      b'.reg (Reg.msCount p) = b.reg (Reg.msCount p) + 1 ∧ b'.reg (Reg.msTbLo p) = im.tb.setWidth 32 ∧ b'.rb Reg.msStat (8 + p) = false ∧
      b'.rb (regKey 0x003 Reg.hEvtRaw) p = true ∧ b'.tasks = b.tasks ∧ (b'.pair p).imgB = !x.imgB ∧
      (∀ j v, bytes[j]? = some v → j < 0xC000 → b'.byte (seg + off + j) = v) ∧
      ∀ j, j < seg ∨ seg + max b.segSize (off + bytes.length) ≤ j → b'.byte j = b.byte j) ∧
    (b.grants m Reg.msCmd = true → b.twin p = true → b.broken p = false → b.recovering p = false → b.retired p = false →
      Leaves s (.take m p) (b.setPair p { x with take := true }))

/-! Mirroring (R346 to R377). -/

/-- `MCFG` is written in Configure, with Twin pairs alone mirrored, and sends this block's HELLO; a peer's HELLO is kept with its digest,
one that differs from this block's sets `FAULT` bit 1. A takeover takes none. -/
def Rules.MirrorConfiguration : Prop :=
  ∀ (s : State) (m : Nat) (v ver dig : Word) (role : Bool),
    let b := s.blk
    let ok := b.inConfig = true ∧ ∀ p, p < 8 → tbit v (8 + p) = true → b.twin p = true
    (b.grants m Reg.mcfgReg = true →
      (ok → Ends s (.mcfg m v) fun b' =>
        b'.reg Reg.mcfgReg = (b.reg Reg.mcfgReg &&& 0xFFFF00F0) ||| (v &&& 0xFF0F) ∧ (∀ k, k ≠ Reg.mcfgReg → b'.reg k = b.reg k) ∧ b'.mem = b.mem ∧
        (tbit v 0 = true → ∃ d, b'.cwq = b.cwq ++ [.hello (tbit v 1) 0x00020300 d]) ∧ (tbit v 0 = false → b'.cwq = b.cwq)) ∧
      (¬ ok → Leaves s (.mcfg m v) (b.flt 0x004 0))) ∧
    (b.mir.taking = true → Leaves s (.hello role ver dig) b) ∧
    (2 ≤ b.sys.base → b.sys.base ≠ 6 → b.rb Reg.mcfgReg 0 = true → b.mir.taking = false → Ends s (.hello role ver dig) fun b' =>
      b'.mir = { b.mir with hello := some (role, ver, dig) } ∧ b'.reg Reg.peerDigest = dig ∧ b'.reg Reg.mstat = b.reg Reg.mstat ∧
      (dig ≠ b.cfgDigest → b'.rb (regKey 0x004 Reg.hFault) 1 = true) ∧ b'.cwq = b.cwq ∧ b'.mem = b.mem)

/-- Takeovers: on a ready follower the fail input, a heartbeat lost without frames and `MCMD.TAKEOVER` start one, and with the last pair caught
up the block becomes primary; one that is not ready holds with cause 7. With frames still arriving the loss is a fault alone. A primary
that is deposed holds; a follower without frames retires the lanes. -/
def Rules.Takeovers : Prop :=
  ∀ (s : State) (m p ns : Nat),
    let b := s.blk
    let takes := fun (i : Instr) => Ends s i fun b' => b'.mir = { b.mir with taking := true } ∧ b'.rb Reg.mstat 6 = true ∧ b'.sys = b.sys ∧ b'.mem = b.mem
    let cannot := fun (i : Instr) => Ends s i fun b' => b'.sys.hold = true ∧ b'.rf Reg.holdCause 0 4 = 7 ∧ b'.rb (regKey 0x004 Reg.hFault) 4 = true
    (b.sys.base = 7 → b.mir.taking = false → b.sys.hold = false →
      (b.rb Reg.mstat 1 = true → takes .mirFail ∧ takes (.heartbeatLoss false) ∧ (b.grants m Reg.mcmd = true → takes (.takeover m))) ∧
      (b.rb Reg.mstat 1 = false → cannot .mirFail ∧ cannot (.heartbeatLoss false) ∧ (b.grants m Reg.mcmd = true → cannot (.takeover m)))) ∧
    (b.sys.base = 7 → Ends s (.heartbeatLoss true) fun b' => b'.rb Reg.mstat 2 = false ∧ b'.rb (regKey 0x004 Reg.hFault) 3 = true ∧
      b'.mir = b.mir ∧ b'.sys = b.sys) ∧
    (p < 8 → b.rb Reg.twin 27 = false → b.caughtUp p = true → (∀ q, q < 8 → q ≠ p → b.mirPair q = true → (b.pair q).phase ≠ .follow) → Ends s (.pairLive p ns) fun b' =>
      (b'.pair p).phase = .live ∧ b'.sys.base = 6 ∧ b'.mir.taking = false ∧ b'.rb Reg.mstat 6 = false ∧ b'.reg Reg.tkoNs = BitVec.ofNat 32 ns ∧
      b'.rb (regKey 0x004 Reg.hEvtRaw) 1 = true ∧ b'.mem = b.mem ∧ b'.tasks = b.tasks) ∧
    (b.sys.base = 6 → b.mir.deposed = false → b.sys.hold = false → Ends s .deposed fun b' => b'.mir.deposed = true ∧ b'.sys.hold = true ∧
      b'.rf Reg.holdCause 0 4 = 1 ∧ b'.mem = b.mem) ∧
    (b.sys.base = 7 → b.rb Reg.mcfgReg 2 = true → b.rb Reg.mcfgReg 3 = true → Ends s .noMirrorFrame fun b' =>
      (b'.lane 4).step = 9 ∧ (b'.lane 5).step = 9)

/-- Configuration of the mirror and takeovers.
Model's choices and readings met here: DEDUCED, logs 62, 90, 109, 124, 169. -/
def Obligations.MirrorConfigurationAndTakeovers : Prop := Rules.MirrorConfiguration ∧ Rules.Takeovers

/-- The records a follower takes of a mirrored pair: before its join LINE and IMAGE load memory and image, and MSMARK without a whole image
asks for a RESYNC; in step INPUT joins the replay's inputs, RELEASE the entries to be checked, HORIZON moves the latest known switch
point, MSMARK names the next point, behind which lies what came for later switch points. No pair has migrated. -/
def Rules.FollowerRecords : Prop :=
  ∀ (s : State) (p a : Nat) (d : List Byte) (e : InEntry) (r : RelEntry) (count dig : Word) (tb : BitVec 64),
    let b := s.blk
    let x := b.pair p
    let early := fun (n : Nat) => decide (n ≤ a)
    p < 8 → b.takesFrom p = true → b.rb Reg.twin 27 = false →
    (x.join ≠ 3 →
      (d.length = 64 → a < 0x60000 → (∀ j, a * 64 ≤ j → j < a * 64 + 64 → b.eccAt j = 0) → Ends s (.line p a d) fun b' =>
        b'.pairs = b.pairs ∧ b'.regs = b.regs ∧ ∀ j, b'.byte j = if a * 64 ≤ j ∧ j < a * 64 + 64 then d.getD (j - a * 64) 0 else b.byte j) ∧
      (Leaves s (.image p a d) (b.setPair p { x with join := 2, imgBuf := x.imgBuf.filter (fun y => y.1 != a) ++ [(a, d)] })) ∧
      (x.imageGot = none → Ends s (.msmark p a count tb dig) fun b' => b'.cwq = b.cwq ++ [.resync p] ∧ (b'.pair p).join = 1 ∧
        (b'.pair p).imgBuf = [] ∧ b'.rb Reg.mstat (8 + p) = false ∧ b'.mem = b.mem)) ∧
    (x.join = 3 → x.nextOn = false → x.mark = none →
      (x.hor ≤ e.spc → x.spc < e.spc → x.cursor = [] → Leaves s (.input p e) (b.setPair p { x with cursor := [e], hor := e.spc })) ∧
      Leaves s (.release p r) (b.setPair p { x with rels := x.rels ++ [r], hor := max x.hor r.spc.toNat }) ∧
      (x.hor ≤ a → Leaves s (.horizon p a) (b.setPair p { x with hor := a })) ∧
      (x.spc ≤ a → Leaves s (.msmark p a count tb dig) (b.setPair p { x with
        mark := some (a, count, tb, dig), hor := a
        cursor := x.cursor.filter (fun (i : InEntry) => early i.spc), nextIns := x.cursor.filter (fun (i : InEntry) => !early i.spc) ++ x.nextIns
        rels := x.rels.filter (fun (i : RelEntry) => early i.spc.toNat), nextRel := x.rels.filter (fun (i : RelEntry) => !early i.spc.toNat) ++ x.nextRel
        nextOn := decide (a < x.hor), nextHor := if a < x.hor then max x.nextHor x.hor else x.nextHor })))

/-- What a primary and a follower exchange in time: HORIZON, TIME, ACK and the heartbeat are sent as their role has it, and a change of the peer's heartbeat shows in `MSTAT`; an ACK takes the steps
of its switch point off the lag and lets a stopped pair go on; a TIME record brings the timebase towards the primary's within the bounds of
rate and slew; a RESYNC and `MCMD.RESYNC` start the join of a pair anew. No pair has migrated. How much of the record's latency the
slew makes good is the model's free choice (DESIGN CHOICE, log 126). -/
def Rules.MirrorExchange : Prop :=
  ∀ (s : State) (m p k n : Nat) (count : Word) (tb : BitVec 64) (low : Bool),
    let b := s.blk
    let x := b.pair p
    let away := (tb - b.tb.cnt).toInt
    let sent := fun (r : CwRec) => { b with cwq := b.cwq ++ [r] }
    let rejoins := fun (b' : Blk) => (b'.pair p).join = 1 ∧ (b'.pair p).marked = [] ∧ (b'.pair p).lagStop = false ∧ b'.rb Reg.mstat (8 + p) = false ∧
      b'.rb Reg.mstat (16 + p) = false ∧ b'.rb (regKey 0x004 Reg.hEvtRaw) 3 = true ∧ b'.mem = b.mem
    p < 8 → b.rb Reg.twin 27 = false →
    (b.mode = 6 ∨ b.mode = 7 → Leaves s .heartbeat { b with mir := { b.mir with hb := !b.mir.hb } }) ∧
    (b.mode ≠ 6 → b.mode ≠ 7 → Leaves s .heartbeat b) ∧
    (2 ≤ b.sys.base → Leaves s (.pin ⟨.mirHb, low⟩) (b.setBit Reg.mstat 2)) ∧
    (b.mirrored p = true → Leaves s (.horizonSend p) (sent (.horizon p x.spc))) ∧
    (b.sys.base = 6 → Leaves s .timeSend (sent (.time b.tb.cnt)) ∧
      (b.mirPair p = true →
        (Ends s (.resync p) rejoins) ∧ (b.grants m Reg.mcmd = true → Ends s (.mcmdResync m) rejoins) ∧
        (b.rf Reg.lagCap 0 17 ≠ 0 → x.lagStop = true → count = b.reg (Reg.msCount p) → x.hist = [(count.toNat, k, n)] → x.total ≤ n →
          Ends s (.ack p k count) fun b' => (b'.pair p).acked = (count.toNat, k) ∧ (b'.pair p).total = 0 ∧ (b'.pair p).hist = [] ∧
            (b'.pair p).lagStop = false ∧ b'.rb Reg.mstat (16 + p) = false ∧ b'.mem = b.mem))) ∧
    (b.sys.base = 7 →
      (Ends s .ackSend fun b' => b'.cwq = b.cwq ++ ((List.range 8).filter fun i => b.inStep i).map fun i =>
        .ack i (b.pair i).spc (b.reg (Reg.msCount i))) ∧
      (b.mir.taking = false → Ends s (.time tb) fun b' => b'.tb.slew.natAbs ≤ 1000000 * 2 ^ 32 ∧
        (-999980 ≤ away → away ≤ 998960 → (away - 20) * 2 ^ 32 ≤ b'.tb.slew ∧ b'.tb.slew ≤ (away + 1020) * 2 ^ 32) ∧
        -2147483 ≤ (b'.reg Reg.rateAdj).toInt ∧ (b'.reg Reg.rateAdj).toInt ≤ 2147483 ∧ b'.tb.cnt = b.tb.cnt ∧ b'.mem = b.mem))

/-- Records that a follower performs and the exchange between mirrored blocks.
Model's choices and readings met here: DEDUCED, logs 61, 62, 120, 121, 122, 123, 125; DESIGN CHOICE, logs 83, 126. -/
def Obligations.FollowerExchange : Prop := Rules.FollowerRecords ∧ Rules.MirrorExchange

/-- Mirror frames, on lanes without MACsec: a close takes up to 512 waiting bytes under the next number and keeps them until acknowledged; the
next frame in order is taken, with the record that it completes, and one ahead is held; an acknowledgement frees the frames it covers, a bad
frame is answered with a NAK on every lane that is up; an unacknowledged frame is sent again, and an idle lane sends its acknowledgement
alone.
Model's choices and readings met here: DEDUCED, logs 70, 86; DESIGN CHOICE, log 83. -/
def Obligations.MirrorFrames : Prop :=
  ∀ (s : State) (k p a : Nat) (f : List Byte) (n : Word) (pl : List Byte),
    let b := s.blk
    let m := b.mfr
    let bytes := m.tx ++ b.cwq.flatMap cwBytes
    let at' := fun (d : List Byte) (i l : Nat) => beNat ((d.drop i).take l)
    let laid := fun (d : List Byte) (lane q flags : Nat) (l : List Byte) => at' d 0 6 = 2 ^ 48 - 1 ∧
      at' d 6 6 = b.rf (Reg.macAddrHi lane) 0 16 * 2 ^ 32 + (b.reg (Reg.macAddrLo lane)).toNat ∧ at' d 12 2 = b.rf (Reg.mfrCfg 0) 0 16 ∧
      at' d 14 4 = q % 2 ^ 32 ∧ at' d 18 4 = (m.rxNext + 2 ^ 32 - 1) % 2 ^ 32 ∧ at' d 22 1 = flags + (if m.acked then 0 else 4) ∧
      at' d 23 1 = 1 ∧ at' d 24 2 = l.length % 2 ^ 16 ∧ (d.drop 30).take l.length = l ∧ d.length = max 60 (30 + l.length)
    let sends := fun (b' : Blk) (lane q flags : Nat) (l : List Byte) => ∃ d, OutEvent.mirror lane d ∈ b'.out ∧ laid d lane q flags l
    let fseq := at' f 14 4
    let aseq := at' f 18 4
    let body := (f.drop 30).take (at' f 24 2)
    let freed := { m with unack := m.unack.filter (fun x => !(atOrBelow x.1 aseq)), acked := m.acked || decide (aseq ≠ 0) }
    let seen := fun (y : Mfr) => { y with intact := Tab.set (fun _ => 0) m.intact (4 + k) fseq }
    k < 2 → b.mirUp (4 + k) = true → b.rb (Reg.secy (4 + k)) 0 = false →
    (bytes ≠ [] → m.unack.length < 128 → Ends s (.frameClose k) fun b' => b'.cwq = [] ∧ b'.mfr.tx = bytes.drop 512 ∧
      b'.mfr.unack = m.unack ++ [(m.txNext, 4 + k, bytes.take 512)] ∧ b'.mfr.txNext = (m.txNext + 1) % 2 ^ 32 ∧
      sends b' (4 + k) m.txNext 0 (bytes.take 512) ∧ b'.mem = b.mem) ∧
    (Ends s (.ackOnly k) fun b' => sends b' (4 + k) 0 1 [] ∧ b'.mfr = m ∧ b'.mem = b.mem) ∧
    ((m.unack.filter fun x => x.1 == n.toNat) = [(n.toNat, 4 + k, pl)] → Ends s (.mirrorRetransmit n k) fun b' =>
      sends b' (4 + k) n.toNat 0 pl ∧ b'.mfr.txNext = m.txNext ∧ b'.mem = b.mem ∧
      b'.rf (Reg.mfrRetx k) 0 16 = min (2 ^ 16 - 1) (b.rf (Reg.mfrRetx k) 0 16 + 1)) ∧
    (m.rx = [] → Ends s (.mirrorFrame k false f) fun b' => b'.mfr.unack = m.unack ∧ b'.mfr.rxNext = m.rxNext ∧ b'.mfr.held = m.held ∧
      (∀ j, j < 2 → b.mirUp (4 + j) = true → b.rb (Reg.secy (4 + j)) 0 = false → sends b' (4 + j) 0 (3 + (if k = 0 then 0 else 8)) []) ∧ b'.mem = b.mem) ∧
    (60 ≤ f.length → f.length ≤ b.rf (Reg.macCfg (4 + k)) 0 14 - 4 → at' f 12 2 = b.rf (Reg.mfrCfg 0) 0 16 → at' f 12 2 ≠ 0x8808 →
      (f.drop 23).headD 0 = 1 → ((f.drop 22).headD 0).getLsbD 1 = false → ((f.drop 22).headD 0).getLsbD 2 = false → m.rx = [] → b.mir.taking = false →
      (((f.drop 22).headD 0).getLsbD 0 = true →
        Leaves s (.mirrorFrame k true f) { b.add32 (Reg.rxFrames (4 + k)) 1 with mfr := freed }) ∧
      (((f.drop 22).headD 0).getLsbD 0 = false → m.held = [] →
        (fseq = m.rxNext → b.rb Reg.twin 27 = false → p < 8 → a < 2 ^ 48 → body = [4, BitVec.ofNat 8 p, 6, 0] ++ toLe 6 a →
          Leaves s (.mirrorFrame k true f) (Blk.horizonIn { b.add32 (Reg.rxFrames (4 + k)) 1 with
            mfr := seen { freed with rxNext := (m.rxNext + 1) % 2 ^ 32 } } p a)) ∧
        (fseq ≠ m.rxNext → atOrBelow fseq m.rxNext = false → Leaves s (.mirrorFrame k true f) { b.add32 (Reg.rxFrames (4 + k)) 1 with
            mfr := seen { freed with held := [(fseq, body)] } })))

/-! Lanes, the switch, Talloth and edge ports (R378 to R411). -/

/-- An attempt to bring a lane up takes the steps of R381 in order: reset, transmitter ready, training, signal, alignment markers, UP. An
attempt that fails starts again, counted while the signal is present, until the limit of `LOSS_CFG` retires the lane (the other mirror lane,
for one of them, still in use). Markers lock where two match a spacing apart, and two sublanes deskew by markers of equal count. A training
result is that of the exchange outstanding. -/
def Rules.LaneBringUp : Prop :=
  ∀ (s : State) (m k sub pos : Nat) (v : Word) (stat : BitVec 8) (slot : BitVec 257) (lock : Bool), k < 6 →
    let b := s.blk
    let x := b.lane k
    let y := b.twoSub k
    let d := amSpacing y
    let a := x.am sub
    let lim := b.rf (Reg.lossCfg k) 16 4
    let n := if x.sig then x.fails + 1 else 0
    let stands := fun (b' : Blk) (step show' : Nat) => (b'.lane k).step = step ∧ b'.rf (Reg.lstat k) 0 3 = show' ∧
      (∀ j, j ≠ k → b'.lane j = b.lane j) ∧ b.CoresKept b'
    let goes := fun (i : Instr) (step show' : Nat) (P : Blk → Prop) => Ends s i fun b' =>
      stands b' step show' ∧ b' = { b with lanes := b'.lanes, regs := b'.regs, out := b'.out } ∧ b.OnlyPages b' [lanePage k, 0x004] ∧ P b'
    let fails := fun (i : Instr) (P : Blk → Prop) =>
      (lim = 0 ∨ n < lim → goes i 1 1 fun b' => (b'.lane k).fails = n ∧ P b') ∧
      (lim ≠ 0 → lim ≤ n → (4 ≤ k → b.rb Reg.retNet (9 - k) = false) → Ends s i fun b' => stands b' 9 6 ∧ b'.rb Reg.retNet k = true ∧
        b'.rb (regKey (lanePage k) Reg.hEvtRaw) 3 = true ∧ P b')
    (b.grants m (Reg.lctrlReg k) = true → fld v 2 2 ≠ 3 →
      (b.rb (Reg.lctrlReg k) 0 = true ∧ fld v 1 3 ≠ b.rf (Reg.lctrlReg k) 1 3 ∨ 4 ≤ k ∧ tbit v 1 = true →
        Leaves s (.lctrl m k v) (b.flt (lanePage k) 0)) ∧
      (b.rb (Reg.lctrlReg k) 0 = false → tbit v 0 = true → ¬ (4 ≤ k ∧ tbit v 1 = true) → x.step ≠ 9 →
        goes (.lctrl m k v) 1 1 fun b' => b'.rf (Reg.lctrlReg k) 0 4 = fld v 0 4 ∧ (b'.lane k).fails = x.fails) ∧
      (b.rb (Reg.lctrlReg k) 0 = true → tbit v 0 = false → fld v 1 3 = b.rf (Reg.lctrlReg k) 1 3 → ¬ (4 ≤ k ∧ tbit v 1 = true) →
        x.step ≠ 9 → Ends s (.lctrl m k v) fun b' => stands b' 0 0 ∧ b'.rf (Reg.lctrlReg k) 0 4 = fld v 0 4)) ∧
    (x.step = 1 → b.sys.base ≠ 0xA → goes (.phyResetDone k) 2 1 fun b' => b'.out = b.out) ∧
    (x.step = 2 → goes (.txRdy k) 3 2 fun b' => b'.out = if x.tr = 0 then .train k 1 :: b.out else b.out) ∧
    (x.step = 3 →
      (x.tr = 0 → Leaves s (.train k stat) b) ∧
      (x.tr = 2 → goes (.train k stat) 3 2 fun b' => (b'.lane k).tr = 1 ∧ b'.out = .train k 1 :: b.out) ∧
      (x.tr = 1 → stat = 0 → (x.sig && x.rxl) = true → goes (.train k stat) 6 3 fun b' => b'.out = b.out) ∧
      (x.tr = 1 → stat = 0 → (x.sig && x.rxl) = false → goes (.train k stat) 5 (if x.sig then 3 else 5) fun b' => b'.out = b.out) ∧
      (x.tr = 1 → stat ≠ 0 → fails (.train k stat) fun b' => b'.rb (regKey (lanePage k) Reg.hFault) 1 = true)) ∧
    (x.step = 5 →
      ((x.rxl || lock) = true → goes (.signalPresent ⟨k, lock⟩) 6 3 fun b' => b'.rb (Reg.lstat k) 3 = true) ∧
      ((x.rxl || lock) = false → goes (.signalPresent ⟨k, lock⟩) 5 3 fun b' => b'.rb (Reg.lstat k) 3 = true)) ∧
    (x.step = 6 → a.lock = false → sub = 0 ∨ y = true →
      (amMatches slot = false → Leaves s (.amReceived k sub ⟨pos, slot⟩) b) ∧
      (amMatches slot = true → (pos < d ∨ pos - d ∉ a.cand) → goes (.amReceived k sub ⟨pos, slot⟩) 6 3 fun b' =>
        pos ∈ ((b'.lane k).am sub).cand ∧ ((b'.lane k).am sub).lock = false) ∧
      (amMatches slot = true → d ≤ pos → pos - d ∈ a.cand →
        (y = false → goes (.amReceived k sub ⟨pos, slot⟩) 7 3 fun b' => b'.rb (Reg.lstat k) 4 = true ∧ b'.reg (Reg.deskew k) = 0) ∧
        (sub = 1 → y = true → x.am0.lock = true → x.am0.amc = amCount slot →
          let skew := (max x.am0.last pos - min x.am0.last pos) / 80
          (skew ≤ 140 → goes (.amReceived k sub ⟨pos, slot⟩) 7 3 fun b' =>
            b'.rf (Reg.lstat k) 4 2 = 3 ∧ b'.reg (Reg.deskew k) = BitVec.ofNat 32 skew) ∧
          (140 < skew → fails (.amReceived k sub ⟨pos, slot⟩) fun b' => b'.rb (regKey (lanePage k) Reg.hFault) 2 = true)) ∧
        (sub = 1 → y = true → x.am0.lock = true → x.am0.amc ≠ amCount slot → goes (.amReceived k sub ⟨pos, slot⟩) 6 3 fun b' =>
          b'.rf (Reg.lstat k) 4 2 = 3))) ∧
    (x.step = 7 → sub = 0 ∨ y = true → a.lock = true → pos = a.last + d * (a.miss + 1) → amMatches slot = true →
      goes (.amReceived k sub ⟨pos, slot⟩) 8 4 fun b' => (b'.lane k).fails = 0 ∧
        b'.rb (regKey (lanePage k) Reg.hEvtRaw) 0 = true ∧ (4 ≤ k → b'.rb Reg.mstat (k - 1) = true)) ∧
    (1 ≤ x.step → x.step < 8 → (x.step = 5 → x.sig = true) → fails (.attemptTimeout k) fun b' =>
      x.tr = 1 → .train k 2 ∈ b'.out) ∧
    (x.step = 5 → x.sig = false → Leaves s (.attemptTimeout k) b)

/-- An UP lane that loses its signal, its PHY, its alignment or too many codewords goes down with the event and starts a new attempt;
firmware relinks or retires a lane; a codeword is sent and one received, decoded and counted in each codeword's time; `phy_irq` raises its
event. -/
def Rules.LaneFaults : Prop :=
  ∀ (s : State) (m k sub pos : Nat) (rxLock level : Bool) (slot : BitVec 257) (data parity : List (BitVec 10)) (mac : List (BitVec 66)), k < 6 →
    let b := s.blk
    let x := b.lane k
    let a := x.am sub
    let raw := fun (b' : Blk) (i : Nat) => b'.rb (regKey (lanePage k) Reg.hEvtRaw) i
    let others := fun (b' : Blk) => (∀ j, j ≠ k → b'.lane j = b.lane j) ∧ b.CoresKept b'
    let fell := fun (b' : Blk) => (b'.lane k).step = 1 ∧ b'.rf (Reg.lstat k) 0 3 = 1 ∧
      raw b' 1 = true ∧ (4 ≤ k → b'.rb (regKey 0x004 Reg.hEvtRaw) 2 = true ∧ b'.rb Reg.mstat (k - 1) = false) ∧ others b'
    let down := fun (i : Instr) (P : Blk → Prop) => Ends s i fun b' => fell b' ∧ P b'
    let adds := fun (b' : Blk) (r n : Nat) => (b'.reg r).toNat = min (2 ^ 32 - 1) ((b.reg r).toNat + n)
    let slips := fun (b' : Blk) => b'.rf (Reg.amSlip k) 0 16 = min (2 ^ 16 - 1) (b.rf (Reg.amSlip k) 0 16 + 1)
    let sent := pcsSend k (b.twoSub k) x.txN x.scr mac
    let sends := fun (b' : Blk) => (b'.lane k).txN = x.txN + 1 ∧ (b'.lane k).scr = sent.2 ∧
      .line k (cwSublane (b.twoSub k) x.txN) (txdWords (b.twoSub k) (cwSublane (b.twoSub k) x.txN) sent.1) ∈ b'.out
    let taken := rsDecode (if b.rf (Reg.lctrlReg k) 2 2 = 1 then sent.1 else data ++ parity)
    let errs := (taken.elim 0 (·.1))
    let lost := if taken.isNone then 1 else 0
    let most := b.rf (Reg.lossCfg k) 24 8
    (b.grants m (Reg.lcmd k) = true → x.step ≠ 9 →
      ((4 ≤ k → b.rb Reg.retNet (9 - k) = false) → Ends s (.retire m k) fun b' => (b'.lane k).step = 9 ∧ b'.rf (Reg.lstat k) 0 3 = 6 ∧
        b'.rb Reg.retNet k = true ∧ raw b' 3 = true ∧ b'.rb (regKey pgSafety Reg.hFault) 1 = true ∧ b'.rb Reg.hattn 1 = true ∧
        (4 ≤ k → x.step = 8 → b'.rb (regKey 0x004 Reg.hEvtRaw) 2 = true) ∧ others b') ∧
      (b.rb (Reg.lctrlReg k) 0 = true → Ends s (.relink m k) fun b' => (b'.lane k).step = 1 ∧ (b'.lane k).fails = 0 ∧
        (x.step = 8 → raw b' 1 = true ∧ (4 ≤ k → b'.rb (regKey 0x004 Reg.hEvtRaw) 2 = true)) ∧ others b') ∧
      (b.rb (Reg.lctrlReg k) 0 = false → Leaves s (.relink m k) b)) ∧
    (b.grants m (Reg.lcmd k) = true → x.step = 9 → Leaves s (.retire m k) b ∧ Leaves s (.relink m k) b) ∧
    (x.step = 8 → down (.sigDetLoss k) (fun b' => b'.rb (Reg.lstat k) 3 = false ∧ (b'.lane k).sig = false) ∧
      down (.phyStatusLow k rxLock) (fun b' => (b'.lane k).rxl = (x.rxl && !rxLock)) ∧
      (a.lock = true → down (.amLockLost k sub) slips) ∧
      (a.lock = true → sub = 0 ∨ b.twoSub k = true → pos = a.last + amSpacing (b.twoSub k) * (a.miss + 1) → amMatches slot = false →
        (2 ≤ a.miss → down (.amReceived k sub ⟨pos, slot⟩) slips) ∧
        (a.miss < 2 → Ends s (.amReceived k sub ⟨pos, slot⟩) fun b' => (b'.lane k).step = 8 ∧ ((b'.lane k).am sub) = { a with miss := a.miss + 1 } ∧
          others b'))) ∧
    (x.step = 6 ∨ x.step = 7 →
      (Ends s (.sigDetLoss k) fun b' => (b'.lane k).step = 5 ∧ b'.rf (Reg.lstat k) 0 3 = 5 ∧ (b'.lane k).am0 = {} ∧
        b' = { b with lanes := b'.lanes, regs := b'.regs } ∧ others b') ∧
      (Ends s (.phyStatusLow k true) fun b' => (b'.lane k).step = 5 ∧ (b'.lane k).rxl = false ∧ (b'.lane k).am0 = {} ∧
        b' = { b with lanes := b'.lanes, regs := b'.regs } ∧ others b')) ∧
    (x.step < 4 ∨ x.step = 9 → Leaves s (.codewordReceived k data parity mac) b) ∧
    (4 ≤ x.step → x.step < 7 → Ends s (.codewordReceived k data parity mac) fun b' => b'.lane k = { x with txN := x.txN + 1, scr := sent.2 } ∧ sends b' ∧
      b.OnlyPages b' [lanePage k, 0x004] ∧ others b') ∧
    (x.step = 7 ∨ x.step = 8 → Ends s (.codewordReceived k data parity mac) fun b' =>
      sends b' ∧ adds b' (Reg.cwCnt k) 1 ∧ adds b' (Reg.cwCorr k) (min 1 errs) ∧ adds b' (Reg.symCorr k) errs ∧ adds b' (Reg.cwUnc k) lost ∧
      (x.step = 8 → most < x.unc + lost → fell b') ∧
      (x.step = 7 ∨ x.unc + lost ≤ most → (b'.lane k).step = x.step ∧ (b'.lane k).rxN = (x.rxN + 1) % 1024 ∧
        ((x.rxN + 1) % 1024 ≠ 0 → (b'.lane k).unc = x.unc + lost ∧ (b'.lane k).ser = x.ser + errs) ∧
        ((x.rxN + 1) % 1024 = 0 → (b'.lane k).unc = 0 ∧ (b'.lane k).ser = 0 ∧
          (b.rf (Reg.serThr k) 0 24 < x.ser + errs → raw b' 2 = true)) ∧ others b')) ∧
    (Ends s (.phyIrq k level) fun b' => b'.lane k = { x with irq := level } ∧ others b' ∧
      b' = { b with lanes := b'.lanes, regs := b'.regs } ∧ b.OnlyPages b' [lanePage k, 0x004] ∧
      (2 ≤ b.sys.base → raw b' 4 = (level || raw b 4)))

/-- Lanes: bringing one up, and what fails it.
Model's choices and readings met here: DEDUCED, logs 54, 153, 154, 155; DESIGN CHOICE, log 152. -/
def Obligations.Lanes : Prop := Rules.LaneBringUp ∧ Rules.LaneFaults

/-- Frames in: an errored or mis-sized frame is discarded and counted; a good one for this node's CPU address goes to the receive ring of its
priority, stamped with the counter at its start; any other is learned from and copied to the egress queue of every port that the database or the VLAN's members name, with its
tag or without as the VLAN says. -/
def Rules.FramesIn : Prop :=
  ∀ (s : State) (p : Nat) (ts : BitVec 64) (d : List Byte),
    let b := s.blk
    let vid := if frameVid d = 0 then b.rf (Reg.portCfg p) 0 12 else frameVid d
    let open' := p < 20 ∧ b.portUp p = true ∧ 2 ≤ b.sys.base ∧ b.sys.base ≠ 0xA ∧ b.rb Reg.pwrStat 8 = false
    let good := open' ∧ b.sys.base ≠ 7 ∧ 60 ≤ d.length ∧ d.length ≤ b.maxFrame p ∧ b.rb (Reg.secy (secyOf p)) 0 = false ∧
      frameType d ≠ 0x88F7 ∧ frameType d ≠ 0x8808 ∧ b.forFabric d = false ∧ b.forDoip d = false ∧
      (b.rb (Reg.portCfg p) 12 = false ∨ hasTag d = true) ∧ b.strmFind (untag d) vid = none
    let counted := fun (b' : Blk) (r : Nat) => (b'.reg r).toNat = min (2 ^ 32 - 1) ((b.reg r).toNat + 1)
    let cpuMac := (b.reg Reg.cpuMacLo).toNat + (b.reg Reg.cpuMacHi).toNat % 2 ^ 16 * 2 ^ 32
    let c := b.learn (frameSa d) vid p
    let z := c.fwdPorts p vid (frameDa d)
    let q := fun (j : Nat) => Config.pcpQueue j (framePcp d) % 8
    let out := fun (j : Nat) => if (b.vlanOf vid).2.testBit j then untag d else withTag (untag d) (framePcp d) vid
    let r := b.cpuQueue (framePcp d)
    let n := 8 * b.rf (Reg.cpuRing r) 24 8
    let head := b.rf (Reg.cpuRxht r) 0 16
    let a := 0x10000000 + b.rf (Reg.cpuRing r) 4 19 * 16 + 16 * head
    let buf := 0x10000000 + leNat (b.bytes a 4) % 2 ^ 23
    let desc := toLe 2 d.length ++ toLe 1 (p + 128) ++ toLe 1 (framePcp d) ++ toLe 8 (min ts.toNat b.tb.cnt.toNat)
    (¬ open' → Leaves s (.frameReceive p ts false d) b ∧ Leaves s (.frameReceive p ts true d) b) ∧
    (open' → Ends s (.frameReceive p ts true d) fun b' => b' = { b with regs := b'.regs } ∧
      counted b' (if p < 4 then Reg.rxErr p else Reg.erxerr (p - 4)) ∧ b.OnlyPages b' [0x070 + p, 0x07C, 0x0B0, pgSafety] ∧
      (4 ≤ p → b'.rf Reg.transCnt 0 16 = min (2 ^ 16 - 1) (b.rf Reg.transCnt 0 16 + 1))) ∧
    (open' → d.length < 60 ∨ b.maxFrame p < d.length → Ends s (.frameReceive p ts false d) fun b' => b' = { b with regs := b'.regs } ∧
      counted b' (if p < 4 then Reg.rxErr p else Reg.erxerr (p - 4)) ∧ b.OnlyPages b' [0x070 + p, 0x07C, 0x0B0, pgSafety] ∧
      (4 ≤ p → b'.rf Reg.transCnt 0 16 = min (2 ^ 16 - 1) (b.rf Reg.transCnt 0 16 + 1))) ∧
    (good → frameDa d ≠ cpuMac → z.1.testBit 20 = false →
      b.sw.cells + 20 * cellsOf (withTag (untag d) 0 0) ≤ b.cellCap →
      (∀ j, j < 20 → ((b.queue j (q j)).foldl (fun n x => n + cellsOf x.data) 0) + cellsOf (withTag (untag d) 0 0) ≤ b.qlim j) →
      Ends s (.frameReceive p ts false d) fun b' => b.CoresKept b' ∧ b'.sw.fdb = c.sw.fdb ∧ b.OnlyPages b' [0x070 + p, 0x078, 0x0B0] ∧
        ∀ j i, j < 20 → i < 8 → b'.queue j i = b.queue j i ++
          if z.1.testBit j = true ∧ b.portUp j = true ∧ i = q j then [QFrame.mk (out j) none] else []) ∧
    (good → frameDa d = cpuMac → d.length ≤ 2 ^ (b.rf Reg.cpuBufsz 0 4 + 8) → 0 < n → (head + 1) % n ≠ b.rf (Reg.cpuRxht r) 16 16 →
      b.swCheck false a 16 = none → b.swCheck true (a + 4) 12 = none → b.swCheck true buf d.length = none →
      Ends s (.frameReceive p ts false d) fun b' => b'.tasks = b.tasks ∧ b'.engines = b.engines ∧ b'.sw.queues = b.sw.queues ∧
        b'.rf (Reg.cpuRxht r) 0 16 = (head + 1) % n ∧ b'.rf (Reg.cpuRxht r) 16 16 = b.rf (Reg.cpuRxht r) 16 16 ∧
        b'.rb (regKey 0x078 Reg.hEvtRaw) r = true ∧
        ∀ j, b'.byte j = if a + 4 ≤ j ∧ j < a + 16 then desc.getD (j - (a + 4)) 0
          else if buf ≤ j ∧ j < buf + d.length then d.getD (j - buf) 0 else b.byte j)

/-- Frames out: the first frame of an open queue above which no open queue holds one leaves on its port, if it ends before its gate closes, its
descriptor done; a frame that can never end before its gate closes is dropped and counted. A posted descriptor that directs its frame puts it into the queue it names. -/
def Rules.FramesOut : Prop :=
  ∀ (s : State) (m p q : Nat) (ts : BitVec 64) (v : Word) (f : QFrame) (rest : List QFrame),
    let b := s.blk
    let n := max 1 (8 * b.rf (Reg.cpuTxring q) 24 8)
    let kept := Tab.get (fun _ => 0) b.sw.tails q % n
    let a := 0x10000000 + b.rf (Reg.cpuTxring q) 4 19 * 16 + 16 * kept
    let buf := 0x10000000 + leNat (b.bytes a 4) % 2 ^ 23
    let len := leNat (b.bytes (a + 4) 2)
    let port := (b.byte (a + 6)).toNat % 32
    let cls := (b.byte (a + 7)).toNat % 8
    let d := b.bytes buf len
    (p < 20 → q < 8 → b.portUp p = true → 2 ≤ b.sys.base → b.sys.base ≠ 7 → b.sys.base ≠ 0xA → b.gateOpen p q = true →
      (∀ j, q < j → j < 8 → b.gateOpen p j = false ∨ b.queue p j = []) → b.queue p q = f :: rest →
      (b.neverFits p q f.data = false → b.fitsNow p q f.data = false → Leaves s (.frameTransmit p q ts) b) ∧
      (b.neverFits p q f.data = false → b.fitsNow p q f.data = true → b.rb (Reg.secy (secyOf p)) 0 = false → Ends s (.frameTransmit p q ts) fun b' =>
        b'.out = .frame p f.data b.tb.cnt :: b.out ∧ b'.queue p q = rest ∧ (∀ x, x ≠ p * 8 + q → Tab.get (fun _ => []) b'.sw.queues x =
          Tab.get (fun _ => []) b.sw.queues x) ∧ b'.sw.cells = b.sw.cells - cellsOf f.data ∧ b'.tasks = b.tasks ∧ b'.engines = b.engines ∧
        (f.desc = none → b'.mem = b.mem ∧ b.OnlyPages b' [0x070 + p, 0x0B0]) ∧
        (∀ c, f.desc = some c → b.swCheck true (0x10000000 + c / 8 + 8) 8 = none → b.swCheck true (0x10000000 + c / 8 + 6) 1 = none →
          b'.rb (regKey 0x078 Reg.hEvtRaw) (8 + c % 8) = true ∧ ∀ j, b'.byte j = let o := 0x10000000 + c / 8
            if j = o + 6 then b.byte j ||| 0x80
            else if (b.byte (o + 7)).getLsbD 3 = true ∧ o + 8 ≤ j ∧ j < o + 16 then (b.tb.cnt >>> (8 * (j - (o + 8)))).setWidth 8 else b.byte j)) ∧
      (b.neverFits p q f.data = true → f.desc = none → Ends s (.frameTransmit p q ts) fun b' => b'.out = b.out ∧ b'.queue p q = rest ∧
        (b'.reg (Reg.swDrop 2)).toNat = min (2 ^ 32 - 1) ((b.reg (Reg.swDrop 2)).toNat + 1) ∧ b.CoresKept b')) ∧
    (b.gateOpen p q = false ∨ b.queue p q = [] ∨ b.portUp p = false → Leaves s (.frameTransmit p q ts) b) ∧
    (q < 8 → b.grants m (Reg.cpuTxpostReg q) = true →
      (b.seqOpen = true → b.txCount q (fld v 0 16) = 1 → b.swCheck false a 16 = none → b.swCheck false buf len = none →
        (∀ w, w ∈ b.ecc → w.2 ≠ 1) → (b.byte (a + 6)).getLsbD 5 = true → port < 20 →
        b.strmFind (untag d) (if frameVid d = 0 then b.rf (Reg.portCfg 20) 0 12 else frameVid d) = none → b.sw.cells + cellsOf d ≤ b.cellCap →
        ((b.queue port cls).foldl (fun n x => n + cellsOf x.data) 0) + cellsOf d ≤ b.qlim port →
        Ends s (.cpuTxpost m q v) fun b' => b' = { b with sw := b'.sw } ∧ Tab.get (fun _ => 0) b'.sw.tails q = fld v 0 16 % n ∧
          b'.queue port cls = b.queue port cls ++ [QFrame.mk d (some ((a - 0x10000000) * 8 + q))] ∧
          (∀ x, x ≠ port * 8 + cls → Tab.get (fun _ => []) b'.sw.queues x = Tab.get (fun _ => []) b.sw.queues x)) ∧
      (b.seqOpen = false → b.sys.hold = false → Leaves s (.cpuTxpost m q v) b))

/-- Frames into and out of the switch.
Model's choices and readings met here: DESIGN CHOICE, log 13; DEDUCED, logs 75, 76, 77, 136, 144. -/
def Obligations.SwitchFrames : Prop := Rules.FramesIn ∧ Rules.FramesOut

/-- The tables behind windows: a read shows the selected entry in the data registers, a write takes it from there; FLUSH empties the
filtering database of all but its static entries, ageing of one that is not static. No other entry changes. -/
def Rules.SwitchTables : Prop :=
  ∀ (s : State) (m k : Nat) (i : BitVec 13) (w : BitVec 12),
    let b := s.blk
    let ent := fun (t : Tab (BitVec 128)) (j : Nat) => Tab.get (fun _ => (0 : BitVec 128)) t j
    let win := fun (r : Nat → Nat) => b.reg (r 3) ++ b.reg (r 2) ++ b.reg (r 1) ++ b.reg (r 0)
    let shows' := fun (c : Instr) (r : Nat → Nat) (e : BitVec 128) => Ends s c fun b' =>
      b.OnlyRegs b' ((List.range 4).map r) ∧ ∀ j, j < 4 → b'.reg (r j) = (e >>> (32 * j)).setWidth 32
    let n := b.rf Reg.strmIdx 0 8
    let x := b.rf Reg.saIdx 0 9
    let aging := ent b.sw.fdb k
    (b.grants m Reg.fdbCmd = true →
      shows' (.fdbRead m i) Reg.fdbD (ent b.sw.fdb i.toNat) ∧
      (Ends s (.fdbWrite m i) fun b' => b' = { b with sw := { b.sw with fdb := b'.sw.fdb } } ∧
        ∀ j, ent b'.sw.fdb j = if j = i.toNat then win Reg.fdbD else ent b.sw.fdb j) ∧
      (Tab.wf (fun _ => (0 : BitVec 128)) b.sw.fdb = true → Ends s (.flush m) fun b' => b' = { b with sw := { b.sw with fdb := b'.sw.fdb } } ∧
        ∀ j, ent b'.sw.fdb j = if fdbStatic (ent b.sw.fdb j) then ent b.sw.fdb j else 0)) ∧
    (b.grants m Reg.vlanCmd = true →
      (Ends s (.vlanRead m w) fun b' => b.OnlyRegs b' [Reg.vlanD 0, Reg.vlanD 1] ∧
        b'.reg (Reg.vlanD 1) ++ b'.reg (Reg.vlanD 0) = Tab.get (fun _ => (0 : BitVec 64)) b.sw.vlan w.toNat) ∧
      (Ends s (.vlanWrite m w) fun b' => b' = { b with sw := { b.sw with vlan := b'.sw.vlan } } ∧
        ∀ j, Tab.get (fun _ => (0 : BitVec 64)) b'.sw.vlan j = if j = w.toNat then b.reg (Reg.vlanD 1) ++ b.reg (Reg.vlanD 0)
          else Tab.get (fun _ => 0) b.sw.vlan j)) ∧
    (b.grants m Reg.strmCmd = true →
      shows' (.strmRead m) Reg.strmD (ent b.sw.strm n) ∧
      (strmType (win Reg.strmD) ≠ 3 → Ends s (.strmWrite m) fun b' =>
        b' = { b with sw := { b.sw with strm := b'.sw.strm, recov := b'.sw.recov, gen := b'.sw.gen } } ∧
        (∀ j, ent b'.sw.strm j = if j = n then BitVec.ofNat 128 ((win Reg.strmD).toNat % 2 ^ 114) else ent b.sw.strm j) ∧
        Tab.get (fun _ => ({} : Recov)) b'.sw.recov n = {} ∧ Tab.get (fun _ => 0) b'.sw.gen n = 0) ∧
      (strmType (win Reg.strmD) = 3 → Leaves s (.strmWrite m) (b.flt 0x079 1))) ∧
    (b.grants m Reg.saCmd = true →
      (x % 32 < 22 → x / 32 % 8 < 5 → shows' (.saRead m) Reg.saD (ent b.sw.sa x) ∧
        Ends s (.saWrite m) fun b' => b' = { b with regs := b'.regs, sw := { b.sw with sa := b'.sw.sa } } ∧
          (∀ j, ent b'.sw.sa j = if j = x then win Reg.saD else ent b.sw.sa j) ∧ b.OnlyPages b' [0x0A1] ∧
          (saUsed (win Reg.saD) = true → b'.rb (Reg.kstat (saSlot (win Reg.saD))) 2 = true)) ∧
      (22 ≤ x % 32 ∨ 5 ≤ x / 32 % 8 → Leaves s (.saRead m) (b.flt 0x07B 1) ∧ Leaves s (.saWrite m) (b.flt 0x07B 1))) ∧
    (fdbValid aging = true → fdbStatic aging = false → Ends s (.fdbAging k) fun b' => b' = { b with sw := { b.sw with fdb := b'.sw.fdb } } ∧
      ∀ j, ent b'.sw.fdb j = if j = k then 0 else ent b.sw.fdb j) ∧
    (fdbValid aging = false ∨ fdbStatic aging = true → Leaves s (.fdbAging k) b) ∧
    (Ends s (.recoveryResetTimeout k) fun b' => b' = { b with sw := { b.sw with recov := b'.sw.recov } } ∧
      ∀ j, Tab.get (fun _ => ({} : Recov)) b'.sw.recov j = if j = k then {} else Tab.get (fun _ => {}) b.sw.recov j)

/-- Gate control, time sync and DoIP: an interval's end moves to the next entry of the list; a swap asked for takes over at once on a port
without gate control, else at the first start of the old cycle not before its base time; a grandmaster sends Sync with the timebase; an announcement that
is owed goes out. -/
def Rules.SwitchTimes : Prop :=
  ∀ (s : State) (m p : Nat) (v : Word), p < 20 →
    let b := s.blk
    let x := b.gate p
    let asked := (tbit v 0, fld v 1 8 + 1, (b.reg (Reg.cycle p)).toNat, (b.reg (Reg.baseLo p)).toNat + (b.reg (Reg.baseHi p)).toNat * 2 ^ 32)
    let takes := fun (t : Bool × Nat × Nat × Nat) =>
      { x with on := true, listB := t.1, len := t.2.1, cycle := t.2.2.1, base := t.2.2.2, idx := 0, swap := none }
    let reads := fun (y : Gate) => b.swCheck false (b.gateAddr p y.listB y.idx) 8 = none ∧ ∀ w, w ∈ b.ecc → w.2 ≠ 1
    let holds := fun (b' : Blk) (y : Gate) => b'.gate p = y ∧ (∀ j, j ≠ p → b'.gate j = b.gate j) ∧
      b' = { b with regs := b'.regs, sw := { b.sw with gates := b'.sw.gates } }
    let gates := fun (b' : Blk) (y : Gate) => holds b' { y with since := b.tb.cnt.toNat } ∧
      b'.rb (Reg.gclStat p) 8 = y.listB ∧ b'.rb (Reg.gclStat p) 9 = y.swap.isSome ∧
      (y.on = true → b'.rf (Reg.gclStat p) 0 8 = b.gateEntry p y.listB y.idx % 256)
    let next := { x with idx := if x.idx + 1 < x.len then x.idx + 1 else 0 }
    (x.on = true → reads next → Ends s (.gateInterval p) fun b' => gates b' next ∧ ∀ r, r ≠ Reg.gclStat p → b'.reg r = b.reg r) ∧
    (x.on = false → Leaves s (.gateInterval p) b) ∧
    (b.grants m (Reg.operReg p) = true → tbit v 31 = true → x.on = true ∨ reads (takes asked) → Ends s (.oper m p v) fun b' =>
      (if x.on then holds b' { x with swap := some asked } ∧ b'.rb (Reg.gclStat p) 9 = true else gates b' (takes asked)) ∧
      b'.rf (Reg.operReg p) 0 9 = fld v 0 9 ∧ ∀ r, r ≠ Reg.gclStat p → r ≠ Reg.operReg p → b'.reg r = b.reg r) ∧
    (∀ t st k, x.swap = some t → st = x.base + k * x.cycle → t.2.2.2 ≤ st → (∀ i, t.2.2.2 ≤ x.base + i * x.cycle → st ≤ x.base + i * x.cycle) →
      (st ≤ b.tb.cnt.toNat → reads (takes t) → Ends s (.gateListSwap p) fun b' => gates b' (takes t) ∧ ∀ r, r ≠ Reg.gclStat p → b'.reg r = b.reg r) ∧
      (b.tb.cnt.toNat < st → Leaves s (.gateListSwap p) b)) ∧
    (b.rb Reg.asCfg 0 = true → b.rb Reg.asCfg 1 = true → b.rb Reg.asCfg (3 + p) = true → b.sw.slave = false → b.sys.base ≠ 7 →
      b.portUp p = true → Leaves s (.syncSend p) { b with sw := { b.sw with gm := true }, out := .sync p b.tb.cnt (b.rf (if p < 4 then Reg.phyTxPs p else Reg.ephyTxPs (p - 4)) 0 20) :: b.out }) ∧
    (0 < b.sw.ann → b.rb Reg.doipCtrl 0 = true → Leaves s .doipAnnouncement
      { b with sw := { b.sw with ann := b.sw.ann - 1 }, out := .doip 4 [] :: b.out }) ∧
    (b.sw.ann = 0 → Leaves s .doipAnnouncement b)

/-- Edge ports: `ECFG` takes a legal mode and rate, and PLCA only for 10 Mbit/s MII; a reserved pair, or a change of mode while enabled, sets
`FAULT` bit 0 alone. A change of the link shows in `ESTAT` with its event; a rise of `irq` is an event; a clock lost with the link up retires the port. -/
def Rules.EdgePorts : Prop :=
  ∀ (s : State) (m n : Nat) (v : Word) (level : Bool), n < 16 →
    let b := s.blk
    let legal := (fld v 1 2 = 0 ∧ fld v 3 2 ≤ 1 ∨ fld v 1 2 = 1 ∧ fld v 3 2 = 2 ∨ fld v 1 2 = 2 ∧ fld v 3 2 ≤ 2) ∧
      (tbit v 5 = true → fld v 1 2 = 0 ∧ fld v 3 2 = 0)
    let refused := (tbit v 0 = true ∧ ¬ legal) ∨ (b.rb (Reg.ecfgReg n) 0 = true ∧ fld v 1 2 ≠ b.rf (Reg.ecfgReg n) 1 2)
    (b.grants m (Reg.ecfgReg n) = true →
      (¬ refused → Ends s (.ecfg m n v) fun b' => b.OnlyRegs b' [Reg.ecfgReg n, Reg.estat n] ∧ b'.rf (Reg.ecfgReg n) 0 14 = fld v 0 14 ∧
        b'.rb (Reg.estat n) 2 = (tbit v 0 && tbit v 5) ∧ (∀ i, i < 32 → i ≠ 2 → b'.rb (Reg.estat n) i = b.rb (Reg.estat n) i)) ∧
      (refused → Leaves s (.ecfg m n v) (b.flt 0x07C 0))) ∧
    (2 ≤ b.sys.base → b.rb (Reg.estat n) 0 ≠ level → Ends s (.edgeLink n level) fun b' =>
      b.OnlyRegs b' [Reg.estat n, regKey 0x07C Reg.hEvtRaw] ∧ b'.rb (Reg.estat n) 0 = level ∧ b'.rb (regKey 0x07C Reg.hEvtRaw) n = true) ∧
    (2 ≤ b.sys.base → n ∉ b.sw.irq → Ends s (.pin ⟨.edgeIrq n, false⟩) fun b' => b' = { b with regs := b'.regs, sw := b'.sw } ∧
      b'.sw = { b.sw with irq := b'.sw.irq } ∧ n ∈ b'.sw.irq ∧ b'.rb (regKey 0x07C Reg.hEvtRaw) (16 + n) = true) ∧
    Leaves s (.pin ⟨.edgeIrq n, true⟩) { b with sw := { b.sw with irq := b.sw.irq.filter (· ≠ n) } } ∧
    (b.rb (Reg.estat n) 0 = true → b.rb (Reg.ecfgReg n) 0 = true → b.rb (Reg.estat n) 3 = false → Ends s (.edgePortLost n) fun b' =>
      b'.rb (Reg.estat n) 1 = true ∧ b'.rb (Reg.estat n) 3 = true ∧ b'.rb Reg.retNet (16 + n) = true ∧
      b'.rb (regKey pgSafety Reg.hFault) 1 = true ∧ b'.rb Reg.hattn 1 = true ∧ b.CoresKept b') ∧
    (b.rb (Reg.estat n) 0 = false ∨ b.rb (Reg.ecfgReg n) 0 = false → Leaves s (.edgePortLost n) b)

/-- Tables, timers and services of the switch and edge ports.
Model's choices and readings met here: DEDUCED, logs 67, 105; DESIGN CHOICE, logs 74, 81, 82. -/
def Obligations.SwitchAndEdgePorts : Prop := Rules.SwitchTables ∧ Rules.SwitchTimes ∧ Rules.EdgePorts

/-- A write of `OP_CMD` names an operation on the global address of its slot: it is discarded where no output may leave, refused while one
is in progress or with a reserved width, ends at once with FORM, TIMEOUT or, at this node, its result, and otherwise is sent to its node
and marked BUSY.
Model's choices and readings met here: DESIGN CHOICE, log 85; DEDUCED, logs 87, 92. -/
def Obligations.FabricCommands : Prop :=
  ∀ (s : State) (m e : Nat) (w len : BitVec 4), e < 16 → s.blk.grants m (Reg.opCmd e) = true →
    let b := s.blk
    let g := b.opGlobal e
    let n := g / 2 ^ 55
    let p := b.peer n
    let a := g % 2 ^ 40
    let k := if w = 2 then 4 else 8
    let x := (b.reg (Reg.opArg e 0)).toNat + (b.reg (Reg.opArg e 1)).toNat * 2 ^ 32
    let y := (b.reg (Reg.opArg e 2)).toNat + (b.reg (Reg.opArg e 3)).toNat * 2 ^ 32
    let wide := w = 2 ∨ w = 3
    let ready := b.seqOpen = true ∧ b.rb (Reg.opStat e) 0 = false
    let ends := fun (i : Instr) (st : Nat) (P : Blk → Prop) => Ends s i fun b' => b'.reg (Reg.opStat e) = BitVec.ofNat 32 (16 * st) ∧
      b'.rb (regKey 0x07A Reg.hEvtRaw) (2 + e) = true ∧ b'.fab.ops = b.fab.ops ∧ P b'
    let sent := fun (i : Instr) (msg : TalMsg) => Ends s i fun b' => b'.reg (Reg.opStat e) = 1 ∧
      b'.fab.ops = b.fab.ops ++ [FabOp.mk e n msg.op msg.ws (.slot e)] ∧ (b'.peer n).unack = p.unack ++ [(p.txNext, msg)] ∧
      (b'.peer n).txNext = (p.txNext + 1) % 2 ^ 32 ∧ (∀ j, j ≠ n → b'.peer j = b.peer j) ∧ b.CoresKept b' ∧ b.OnlyPages b' [0x07A, 0x078, 0x0B0]
    let common := fun (i : Instr) (c : Nat) =>
      (b.seqOpen = false → Leaves s i b.seqDrop) ∧
      (b.seqOpen = true → b.rb (Reg.opStat e) 0 = true → Leaves s i (b.flt 0x07A 0)) ∧
      (ready → c ≠ 6 → ¬ wide → w ≠ 0 ∨ 3 ≤ c ∨ (c = 1 ∧ 8 ≤ len.toNat) → Leaves s i (b.flt 0x07A 2)) ∧
      (ready → wide ∨ c = 6 → g / 2 ^ 40 % 2 ^ 15 ≠ 0 → ends i 5 fun b' => b' = { b with regs := b'.regs }) ∧
      (ready → wide ∨ c = 6 → g / 2 ^ 40 % 2 ^ 15 = 0 → n ≠ b.node → p.down = true → ends i 7 fun b' => b' = { b with regs := b'.regs } ∧
        (b'.reg Reg.fabTimeout).toNat = min (2 ^ 32 - 1) ((b.reg Reg.fabTimeout).toNat + 1))
    common (.fabricRead m e w len) 1 ∧ common (.fabricWrite m e w len) 2 ∧ common (.fabricCas m e w len) 3 ∧ common (.fabricSwap m e w len) 4 ∧
    common (.fabricAdd m e w len) 5 ∧ common (.fabricDoorbell m e w len) 6 ∧
    (ready → g / 2 ^ 40 % 2 ^ 15 = 0 → n ≠ b.node → p.down = false → p.unack.length < 64 →
      (wide → sent (.fabricRead m e w len) ⟨1, e, a, w.toNat, k, []⟩ ∧ sent (.fabricWrite m e w len) ⟨2, e, a, w.toNat, k, toBe k x⟩ ∧
        sent (.fabricCas m e w len) ⟨3, e, a, w.toNat, 2 * k, toBe k x ++ toBe k y⟩ ∧
        sent (.fabricSwap m e w len) ⟨4, e, a, w.toNat, k, toBe k x⟩ ∧ sent (.fabricAdd m e w len) ⟨5, e, a, w.toNat, k, toBe k x⟩) ∧
      (w = 0 → len.toNat < 8 → sent (.fabricRead m e w len) ⟨1, e, a, 0, len.toNat + 1, []⟩) ∧
      (w = 0 → sent (.fabricWrite m e w len) ⟨2, e, a, 0, len.toNat + 1, (toLe 8 x ++ toLe 8 y).take (len.toNat + 1)⟩) ∧
      sent (.fabricDoorbell m e w len) ⟨6, e, a, 2, 4, toBe 4 x⟩) ∧
    (ready → g / 2 ^ 40 % 2 ^ 15 = 0 → n = b.node → wide → b.mCheck e (some (b.lead e / 2)) .load a k (b.pl (b.lead e)) = none →
      plainPlace a = true → (∀ j, a ≤ j → j < a + k → b.eccAt (unalias j) = 0) → ends (.fabricRead m e w len) 0 fun b' =>
        b' = { b with regs := b'.regs } ∧ b'.reg (Reg.opRes e 1) ++ b'.reg (Reg.opRes e 0) = BitVec.ofNat 64 (leNat (b.bytes (unalias a) k)))

/-- A request of a peer that is next in order is performed as master 19 and answered; one received before is acknowledged again and one out
of order brings a NAK, neither is performed. -/
def Rules.FabricTarget : Prop :=
  ∀ (s : State) (n : Nat) (h : TalFrame),
    let b := s.blk
    let x := b.peer n
    let a := h.addr.toNat
    let k := if h.width = 2 then 4 else 8
    let left := x.unack.filter fun f => !(atOrBelow f.1 h.ack.toNat)
    let next := b.fabOn = true ∧ h.start = false ∧ h.seq.toNat = x.rxNext ∧ x.wait = [] ∧ left.length < 64
    let answers := fun (i : Instr) (op st : Nat) (d : List Byte) (P : Blk → Prop) => Ends s i fun b' =>
      (b'.peer n).unack = left ++ [(x.txNext, TalMsg.mk op h.tag.toNat a (h.width.toNat + 16 * st) d.length d)] ∧
      (b'.peer n).rxNext = (x.rxNext + 1) % 2 ^ 32 ∧ (b'.peer n).ackDue = false ∧ b'.tasks = b.tasks ∧ b'.engines = b.engines ∧ P b'
    let same := fun (b' : Blk) => b'.mem = b.mem ∧ b'.fab.db = b.fab.db
    let wrote := fun (b' : Blk) (v : Nat) => ∀ j, b'.byte j = if a ≤ j ∧ j < a + k then BitVec.ofNat 8 (v / 2 ^ (8 * (j - a))) else b.byte j
    let old := leNat (b.bytes a k)
    let u := beNat (h.payload.take k)
    let v := beNat ((h.payload.drop k).take k)
    let atomic := next ∧ (h.width = 2 ∨ h.width = 3) ∧ a % k = 0 ∧ b.mCheck 19 none .atomic a k = none
    let link := fun (i : Instr) => (b.fabOn = false → Leaves s i b) ∧
      (b.fabOn = true → h.start = false → x.wait = [] →
      (h.seq.toNat ≠ x.rxNext → atOrBelow h.seq.toNat (ackOf x) = true → Ends s i fun b' => b'.peer n = { b'.peer n with ackDue := true } ∧
        (b'.peer n).rxNext = x.rxNext ∧ (b'.peer n).unack = left ∧ b' = { b with fab := { b.fab with peers := b'.fab.peers } }) ∧
      (h.seq.toNat ≠ x.rxNext → atOrBelow h.seq.toNat (ackOf x) = false → Ends s i fun b' => (b'.peer n).rxNext = x.rxNext ∧
        (b'.peer n).unack = left ∧ same b' ∧ b.OnlyPages b' [0x078, 0x0B0] ∧ b.CoresKept b'))
    (next → b.mCheck 19 none .load a h.len = none → place a ≠ .ext →
      answers (.tallothRead n h) 0x81 0 (talForm h.width.toNat (b.bytes (unalias a) h.len)) same) ∧
    (next → h.payload.length ≤ 1024 → b.mCheck 19 none .store a h.payload.length = none → place a ≠ .ext →
      answers (.tallothWrite n h) 0x82 0 [] fun b' => b.Wrote b'.mem a (talForm h.width.toNat h.payload)) ∧
    (∀ e, next → b.mCheck 19 none .load a h.len = some e → answers (.tallothRead n h) 0x81 (talStatus e.1) [] same) ∧
    (∀ e, next → b.mCheck 19 none .store a h.payload.length = some e → answers (.tallothWrite n h) 0x82 (talStatus e.1) [] same) ∧
    (atomic → answers (.tallothCas n h) 0x83 0 (toBe k old) fun b' => wrote b' (if old = u then v else old)) ∧
    (atomic → answers (.tallothSwap n h) 0x83 0 (toBe k old) fun b' => wrote b' u) ∧
    (atomic → answers (.tallothAdd n h) 0x83 0 (toBe k old) fun b' => wrote b' (old + u)) ∧
    (next → b.fab.db.length < 16 → answers (.doorbell n h) 0x82 0 [] fun b' => b'.mem = b.mem ∧
      b'.fab.db = b.fab.db ++ [(BitVec.ofNat 32 (beNat (h.payload.take 4)), n)] ∧ b'.rb (regKey 0x07A Reg.hEvtRaw) 0 = true) ∧
    (next → 16 ≤ b.fab.db.length → answers (.doorbell n h) 0x82 6 [] same) ∧
    link (.tallothRead n h) ∧ link (.tallothWrite n h) ∧ link (.tallothCas n h) ∧ link (.tallothSwap n h) ∧ link (.tallothAdd n h) ∧
    link (.doorbell n h)

/-- At the requester: a response ends the operation it answers with its status and result, a late one is counted; an ACK frees frames, a NAK
and the timeout send the rest again while resends are left, and give the peer up after that; an acknowledgement that is owed goes out. A
doorbell is read once, and firmware clears PEER_DOWN. What answers a transfer of a channel that waits for it no more is discarded. -/
def Rules.FabricRequester : Prop :=
  ∀ (s : State) (m n e ch id : Nat) (h : TalFrame) (ack : Word) (start : Bool) (node : BitVec 9) (o : FabOp),
    let b := s.blk
    let x := b.peer n
    let next := b.fabOn = true ∧ h.start = false ∧ h.seq.toNat = x.rxNext ∧ x.wait = []
    let found := fun (op : Nat) => b.fab.ops.find? fun y => y.tag == h.tag.toNat && y.node == n && respOp y.op == op
    let left := fun (a : Nat) => x.unack.filter fun f => !(atOrBelow f.1 a)
    let links := fun (b' : Blk) => (∀ j, j ≠ n → b'.peer j = b.peer j) ∧ b.CoresKept b'
    let again := fun (i : Instr) (l : List (Nat × TalMsg)) (r : Nat) => Ends s i fun b' => (b'.peer n).unack = l ∧ (b'.peer n).resend = r + 1 ∧
      (b'.reg Reg.fabRetx).toNat = min (2 ^ 32 - 1) ((b.reg Reg.fabRetx).toNat + l.length) ∧ links b' ∧ b'.fab.ops = b.fab.ops
    let response := fun (i : Instr) (c : Nat) => next →
      (found c = some o → o.who = .slot e → e < 16 → Ends s i fun b' =>
        b'.fab.ops = b.fab.ops.filter (fun y => !(y == o)) ∧ b'.reg (Reg.opStat e) = BitVec.ofNat 32 (16 * h.status.toNat) ∧
        b'.rb (regKey 0x07A Reg.hEvtRaw) (2 + e) = true ∧ (b'.peer n).rxNext = (x.rxNext + 1) % 2 ^ 32 ∧ (b'.peer n).ackDue = true ∧ links b' ∧
        (h.status = 0 → c ≠ 0x82 → b'.reg (Reg.opRes e 1) ++ b'.reg (Reg.opRes e 0) = BitVec.ofNat 64 (leNat (talForm o.ws h.payload)))) ∧
      (found c = some o → o.who = .mover ch id → ch < 64 →
        (b.chWaits ch id = false → Ends s i fun b' => b'.fab.ops = b.fab.ops.filter (fun y => !(y == o)) ∧ b'.chans = b.chans ∧ links b') ∧
        (b.chWaits ch id = true → h.status = 0 → (b.ch ch).outR = true → Ends s i fun b' => b'.fab.ops = b.fab.ops.filter (fun y => !(y == o)) ∧
          b'.ch ch = { b.ch ch with buf := h.payload.take (b.burstLen ch), outR := false } ∧ links b') ∧
        (b.chWaits ch id = true → h.status ≠ 0 → h.status.toNat < 6 → Ends s i fun b' => b'.fab.ops = b.fab.ops.filter (fun y => !(y == o)) ∧
          b'.chState ch = chHalted ∧ b'.rf (Reg.chStat ch) 16 4 = [2, 3, 4, 5, 1].getD (h.status.toNat - 1) 0 ∧ b'.mem = b.mem)) ∧
      (found c = none → Ends s i fun b' => b'.fab.ops = b.fab.ops ∧ links b' ∧
        (b'.reg Reg.fabLate).toNat = min (2 ^ 32 - 1) ((b.reg Reg.fabLate).toNat + 1))
    response (.readResp n h) 0x81 ∧ response (.complete n h) 0x82 ∧ response (.atomicResp n h) 0x83 ∧
    (b.fabOn = true → x.wait = [] → Ends s (.tallothAck n ack start) fun b' => (b'.peer n).unack = left ack.toNat ∧ (b'.peer n).acked = true ∧
      (b'.peer n).down = (x.down && !start) ∧ b' = { b with fab := { b.fab with peers := b'.fab.peers } } ∧ links b') ∧
    (b.fabOn = true → x.wait = [] → left ack.toNat = x.unack → x.resend < b.rf Reg.fabRtoReg 24 4 → again (.tallothNak n ack) x.unack x.resend) ∧
    (x.unack ≠ [] → x.resend < b.rf Reg.fabRtoReg 24 4 → again (.fabRto n) x.unack x.resend) ∧
    (x.unack ≠ [] → b.rf Reg.fabRtoReg 24 4 ≤ x.resend → (∀ y, y ∈ b.fab.ops → y.node = n → ∃ e, e < 16 ∧ y.who = .slot e) →
      Ends s (.fabRto n) fun b' => b'.peer n = { rxNext := x.rxNext, down := true } ∧ links b' ∧
        b'.fab.ops = b.fab.ops.filter (fun y => decide (y.node ≠ n)) ∧ b'.rb (regKey 0x07A Reg.hEvtRaw) 1 = true ∧
        ∀ y k, y ∈ b.fab.ops → y.node = n → y.who = .slot k → b'.reg (Reg.opStat k) = 112) ∧
    (x.unack = [] → Leaves s (.fabRto n) b) ∧
    (x.ackDue = true → b.rb Reg.fabCfg 16 = true → Ends s (.fabricAckSend n) fun b' => b'.peer n = { x with ackDue := false } ∧ links b' ∧
      b.OnlyPages b' [0x078, 0x0B0]) ∧
    (x.ackDue = false → Leaves s (.fabricAckSend n) b) ∧
    (b.shows m Reg.dbFifoReg = true → Leaves s (.dbFifo m) { b with fab := { b.fab with db := b.fab.db.drop 1 } }) ∧
    (b.grants m Reg.peerIdx = true → b.reaches m Reg.peerStat = true → Ends s (.peerDownClear m node) fun b' =>
      (b'.peer node.toNat) = { b.peer node.toNat with down := false } ∧ (∀ j, j ≠ node.toNat → b'.peer j = b.peer j) ∧
      (∀ r, r ≠ Reg.peerIdx → b'.reg r = b.reg r) ∧ b'.rf Reg.peerIdx 0 9 = node.toNat ∧ b.CoresKept b')

/-- Talloth at the target and at the requester.
Model's choices and readings met here: DEDUCED, logs 87, 88, 89, 91, 92, 93. -/
def Obligations.Fabric : Prop := Rules.FabricTarget ∧ Rules.FabricRequester

/-! Debug, trace, counters and register pages (R474 to R501, R525 to R541). -/

/-- The debug port. From every state IDCODE, BYPASS, DBGSTAT and DBGACC complete: the first three shift out their values and do no more, and
DBGACC shifts out the last access's status and data and starts a new access where none is in progress, debug is open and the address
reachable. A debug access completes as the access of master 20 at PL 3: a write or a read of a register as the command of that master does it,
a write or a read of memory with the word's bytes least significant first. With none in progress nothing completes.
Model's choices and readings met here: DEDUCED, log 53. -/
def Obligations.DebugPort : Prop :=
  ∀ (s : State) (addr : BitVec 40) (write : Bool) (data v : Word) (p o : Nat),
    let b := s.blk
    let a := addr.toNat / 4 * 4
    let t := b.tap
    let open' := b.lifecycle ≠ 2 ∨ b.sec.dbg = true
    let old := BitVec.ofNat 128 ((if t.acc.isSome then 7 else t.sts) + 8 * t.data.toNat)
    let stat := BitVec.ofNat 128 (b.rf Reg.haltedReg 0 16 + 2 ^ 16 * bit (b.lifecycle ≠ 2 || b.sec.dbg) + 2 ^ 17 * b.mode + 2 ^ 21 * bit t.acc.isSome)
    let tap' :=
      if t.acc ≠ none then t
      else if ¬ open' then { t with sts := 6 }
      else if b.dbgReach a = false then { t with sts := 7 }
      else { t with acc := some (a, write, data), late := false }
    let done := { t with acc := none, late := false, sts := 0 }
    exec .idcode s = .next { s with blk := { b with out := .tap 1 0x20128001 :: b.out } } ∧
    exec .bypass s = .next { s with blk := { b with out := .tap 0x1F 0 :: b.out } } ∧
    exec .dbgstat s = .next { s with blk := { b with out := .tap 9 stat :: b.out } } ∧
    exec (.dbgacc addr write data) s = .next { s with blk := { b with out := .tap 8 old :: b.out, tap := tap' } } ∧
    (t.acc = none → exec .debugAccessDone s = .next s) ∧
    (t.late = false → p < 0x100 → o < 0x4000 → b.dbgReach (0x20000000 + p * 0x4000 + o) = true → pageExists p = true → b.dbgOpen = true →
      (t.acc = some (0x20000000 + p * 0x4000 + o, true, v) → b.grants 20 (regKey p o) = true →
        ∃ c, exec (.registerWrite 20 p o v) s = .next { s with blk := c } ∧
          exec .debugAccessDone s = .next { s with blk := { c with tap := { c.tap with acc := none, late := false, sts := 0 } } }) ∧
      (t.acc = some (0x20000000 + p * 0x4000 + o, false, v) → 0x40 ≤ o → o < 0x1000 → b.shows 20 (regKey p o) = true →
        ∃ c, exec (.rcRead 20 p o) s = .next { s with blk := c } ∧
          exec .debugAccessDone s = .next { s with blk := { c with tap := { c.tap with
            acc := none, late := false, sts := 0, data := (b.pageRead 20 p o).1 } } })) ∧
    (t.late = false → b.dbgReach a = true → plainPlace a = true →
      (t.acc = some (a, true, v) → b.mCheck 20 none .store a 4 = none →
        ∃ c, exec .debugAccessDone s = .next { s with blk := c } ∧ b.Wrote c.mem a (toLe 4 v.toNat) ∧ c.tap = done ∧ c.tasks = b.tasks ∧
          c.engines = b.engines) ∧
      (t.acc = some (a, false, v) → b.mCheck 20 none .load a 4 = none → b.eccAt (unalias a) = 0 →
        exec .debugAccessDone s = .next { s with blk := { b with
          tap := { done with data := BitVec.ofNat 32 (leNat (b.bytes (unalias a) 4)) } } }))

/-- Halts, resumes and steps: a request of either kind halts each engine that rests at once and asks each that runs to halt at its next halt
point; there the executing task becomes Halted and `DSTAT` and `DPC` hold where; a resume makes it Ready and the engine open; a step
dispatches it. While debug is closed a request sets `FAULT` bit 0 alone. Two halted engines of a broken pair re-form. -/
def Rules.DebugHalts : Prop :=
  ∀ (s : State) (m e : Nat) (v : Word),
    let b := s.blk
    let x := b.eng e
    let c := b.curTask e
    let t := b.rf (Reg.dstat e) 7 6
    let d := b.task e t
    let runs := b.sys.base ≠ 0xA ∧ 2 ≤ b.sys.base
    let word := fun (why bp : Nat) (idle : Bool) (n : Nat) => BitVec.ofNat 32 (2 ^ 31 + why + 8 * bp + 64 * bit idle + 128 * n)
    let halted := fun (b' : Blk) (w : Word) => (b'.eng e).halted = true ∧ (b'.eng e).run = false ∧ b'.reg (Reg.dstat e) = w ∧
      b'.rb Reg.haltedReg e = true ∧ b'.rb (regKey 0x0B0 Reg.hEvtRaw) 0 = true ∧ b'.rb (regKey (0x20 + e) Reg.hEvtRaw) 1 = true ∧ b'.mem = b.mem
    let asked := fun (i : Instr) (mask : Word) (why : Nat) =>
      (tbit mask e = true → x.halted = false → x.run = true → Ends s i fun b' => b'.eng e = { x with haltReq := true, haltWhy := why }) ∧
      (tbit mask e = true → x.halted = false → x.run = false → runs → Ends s i fun b' => halted b' (word why 0 true 0) ∧ b'.reg (Reg.dpc e) = c.pc) ∧
      (tbit mask e = false → Ends s i fun b' => b'.eng e = x ∧ ∀ n, n < 64 → b'.task e n = b.task e n)
    let resumed := fun (i : Instr) (mask : Word) =>
      (tbit mask e = true → x.halted = true → b.tap.ref ≠ some (e / 2) → Ends s i fun b' =>
        b'.eng e = { x with halted := false, stepping := false } ∧ b'.rb Reg.haltedReg e = false ∧ b'.rb (Reg.dstat e) 31 = false ∧
        (b'.task e t).st = (if d.dbgHalt then .ready else d.st) ∧ (b'.task e t).dbgHalt = false ∧ b'.mem = b.mem) ∧
      (tbit mask e = false ∨ x.halted = false → Ends s i fun b' => b'.eng e = x ∧ ∀ n, n < 64 → b'.task e n = b.task e n)
    let shut := fun (i : Instr) (r : Nat) => b.grants m r = true → b.dbgOpen = false → Leaves s i (b.flt 0x0B0 0)
    e < 16 → b.joined (e / 2) = false →
    (b.grants m Reg.haltReqReg = true → b.dbgOpen = true → asked (.haltReq m v) v 1) ∧
    (b.dbgOpen = true → 2 ≤ b.sys.base → asked .dbgHaltI (BitVec.ofNat 32 (b.rf Reg.dbgCtrl 16 16)) 6) ∧
    (b.grants m Reg.resumeReqReg = true → b.dbgOpen = true → resumed (.resumeReq m v) v) ∧
    (b.dbgOpen = true → 2 ≤ b.sys.base → resumed .dbgResumeI (BitVec.ofNat 32 (b.rf Reg.dbgCtrl 16 16))) ∧
    (b.dbgOpen = false → Leaves s .dbgHaltI b ∧ Leaves s .dbgResumeI b) ∧
    shut (.haltReq m v) Reg.haltReqReg ∧ shut (.resumeReq m v) Reg.resumeReqReg ∧ shut (.stepReq m v) Reg.stepReqReg ∧
    shut (.reform m (e % 8)) Reg.reformReg ∧
    (x.haltReq = true → runs → x.run = true → x.arith = none → b.midInstr e = false → x.cur < 64 → Ends s (.halt e) fun b' =>
      halted b' (word (x.haltWhy % 8) (x.haltWhy / 8 % 8) false x.cur) ∧ b'.reg (Reg.dpc e) = c.pc ∧ (b'.eng e).haltReq = false ∧
      b'.task e x.cur = { c with st := .halted, dbgHalt := true } ∧ ∀ n, n < 64 → n ≠ x.cur → b'.task e n = b.task e n) ∧
    (x.haltReq = false → Leaves s (.halt e) b) ∧
    (b.grants m Reg.stepReqReg = true → b.dbgOpen = true → fld v 0 16 = 2 ^ e →
      (x.halted = true → x.stepping = false → b.rb (Reg.dstat e) 6 = false → d.dbgHalt = true → b.tap.ref ≠ some (e / 2) → d.held = [] →
        d.wait = none → x.vecFetch = none → Ends s (.stepReq m v) fun b' => (b'.eng e).stepping = true ∧ (b'.eng e).run = true ∧
          (b'.eng e).cur = t ∧ (b'.task e t).st = .running ∧ (b'.task e t).dbgHalt = false ∧ (b'.task e t).pc = d.pc ∧ b'.mem = b.mem) ∧
      (x.halted = true → x.stepping = false → b.rb (Reg.dstat e) 6 = true → Leaves s (.stepReq m v) (b.flt 0x0B0 0)) ∧
      (x.halted = false → Leaves s (.stepReq m v) b))

/-- A pair that runs as one breaks when it halts, both engines halted at the same point; a broken pair with both engines halted re-forms, and
then runs as one again with the even engine's state. -/
def Rules.PairsBreakAndReform : Prop :=
  ∀ (s : State) (m p : Nat), p < 8 →
    let b := s.blk
    let e := 2 * p
    let x := b.eng e
    let c := b.curTask e
    let both := (b.eng e).halted = true ∧ (b.eng (e + 1)).halted = true ∧ (b.eng e).stepping = false ∧ (b.eng (e + 1)).stepping = false
    (b.joined p = true → (b.pair p).phase = .live → x.haltReq = true → b.sys.base ≠ 0xA → 2 ≤ b.sys.base → x.run = true → x.arith = none →
      b.midInstr e = false → Ends s (.halt e) fun b' => b'.broken p = true ∧ b'.eng (e + 1) = b'.eng e ∧ (b'.eng e).halted = true ∧
        b'.reg (Reg.dpc (e + 1)) = c.pc ∧ b'.reg (Reg.dpc e) = c.pc ∧ b'.rb Reg.haltedReg e = true ∧ b'.rb Reg.haltedReg (e + 1) = true ∧
        (∀ n, n < 64 → b'.task (e + 1) n = b'.task e n) ∧ b'.mem = b.mem) ∧
    (b.grants m Reg.reformReg = true → b.dbgOpen = true →
      (b.broken p = true → both → b.tap.ref = none → Leaves s (.reform m p) { b.setBit Reg.dbgStatReg 1 with tap := { b.tap with ref := some p } }) ∧
      (b.broken p = false ∨ ¬ both ∨ b.tap.ref ≠ none → Leaves s (.reform m p) (b.flt 0x0B0 1))) ∧
    (b.tap.ref = some p → 2 ≤ b.sys.base → Ends s (.reformDone p) fun b' => b'.broken p = false ∧ b'.tap = { b.tap with ref := none } ∧
      b'.rb Reg.dbgStatReg 1 = false ∧ b'.eng e = b.eng e ∧ b'.eng (e + 1) = b.eng e ∧
      (∀ n, n < 64 → b'.task e n = b.task e n ∧ b'.task (e + 1) n = b.task e n) ∧ b'.mem = b.mem) ∧
    (b.tap.ref ≠ some p → Leaves s (.reformDone p) b)

/-- Halts, steps and resumes; pairs that break and re-form.
Model's choices and readings met here: DEDUCED, logs 51, 52. -/
def Obligations.DebugHaltsAndPairs : Prop := Rules.DebugHalts ∧ Rules.PairsBreakAndReform

/-- Counter units and trace: SNAP copies a unit's counters to its shadows with the time, of all units of a mask in one step; FREEZE holds,
CLEAR zeroes. A counter of an event of timing, where it is not held, is brought up to date first (its count is the model's free value:
DESIGN CHOICE, log 103). A trace record drains to the ring's next place, which wraps or stops at the end. The debug module's reset, with its key.
Model's choices and readings met here: DEDUCED, logs 64, 110, 158; DESIGN CHOICE, log 103. -/
def Obligations.TraceAndCounters : Prop :=
  ∀ (s : State) (m n : Nat) (u : CounterUnit) (on : Bool) (v : Word) (r : BitVec 128) (rest : List (BitVec 128)),
    let b := s.blk
    let cnt := fun (k j : Nat) => b.reg (pmCntOf k j)
    let held := fun (k : Nat) => if k < 16 then b.pmHeld k = true else b.rb (if k = 16 then Reg.mvPmCtrl else Reg.swPmCtrl) 1 = true
    let cfg := fun (k j : Nat) => b.reg (if k < 16 then Reg.pmCfg k j else if k = 16 then Reg.mvPmCfg j else Reg.swPmCfg j)
    let timed := fun (k j : Nat) => ¬ held k ∧ tbit (cfg k j) 31 = true ∧ (if k < 16 then timingEvent (fld (cfg k j) 0 8) = true else fld (cfg k j) 0 8 = 5)
    let shot := fun (b' : Blk) (k : Nat) => (∀ j, j < 8 → b'.reg (pmShadOf k j) = b'.reg (pmCntOf k j) ∧ (¬ timed k j → b'.reg (pmCntOf k j) = cnt k j)) ∧
      b'.reg (pmTbOf k).2 ++ b'.reg (pmTbOf k).1 = b'.tb.last
    let snaps := fun (i : Instr) (mask : Nat) => Ends s i fun b' => (∀ k, k < 18 → mask.testBit k = true → shot b' k) ∧
      (b.drive.lost = true → b'.tb.last = b.tb.cnt) ∧ b' = { b with regs := b'.regs, tb := { b.tb with last := b'.tb.last }, free := b'.free } ∧
      b.OnlyPages b' (((List.range 18).filter mask.testBit).map fun x => if x < 16 then 0x20 + x else 0x0B0) ∧
      ((∀ x j, x < 18 → mask.testBit x = true → j < 8 → ¬ timed x j) → ∀ k, (∀ x, x < 18 → mask.testBit x = true → k ≠ (pmTbOf x).1 ∧ k ≠ (pmTbOf x).2 ∧ ∀ j, j < 8 → k ≠ pmShadOf x j) → b'.reg k = b.reg k)
    let unit := (match u with | .engine e => e | .mover => 16 | .switch => 17) = n ∧ n < 18 ∧ (n < 16 ↔ ∃ e, u = .engine e)
    let size := (b.reg Reg.trcSize).toNat
    let w := if size ≤ (b.reg Reg.trcWptr).toNat then 0 else (b.reg Reg.trcWptr).toNat
    let a := 0x10000000 + (b.reg Reg.trcBase).toNat + w
    (unit → b.grants m (unitCtrl u) = true →
      Leaves s (.freeze m u on) (b.setReg (unitCtrl u) (if on then 2 else 0)) ∧
      (b.rf (unitCtrl u) 2 30 = 0 → b.rb (unitCtrl u) 0 = false → snaps (.snap m u) (2 ^ n)) ∧
      (Ends s (.clear m u) fun b' => (∀ j, j < 8 → b'.reg (pmCntOf n j) = 0) ∧ b' = { b with regs := b'.regs } ∧
        b'.rb (unitCtrl u) 1 = b.rb (unitCtrl u) 1 ∧ ∀ k, k ≠ unitCtrl u → (∀ j, j < 8 → k ≠ pmCntOf n j) → b'.reg k = b.reg k)) ∧
    (b.grants m Reg.pmGsnapReg = true → fld v 0 18 ≠ 0 → snaps (.pmGsnap m v) (fld v 0 18)) ∧
    (2 ≤ b.sys.base → snaps .dbgSnapI 0x3FFFF) ∧
    (b.trc.fifo = r :: rest → b.rb Reg.trcStat 1 = false → b.rb Reg.trcStat 2 = false → 2 ≤ b.sys.base → b.sys.base ≠ 0xA → 256 ≤ size →
      (b.mCheck 20 none .store a 16 = none → Ends s .traceWrite fun b' => b'.trc = { b.trc with fifo := rest } ∧ b.Wrote b'.mem a (toLe 16 r.toNat) ∧
        b'.tasks = b.tasks ∧ b'.engines = b.engines ∧
        (w + 16 < size → (b'.reg Reg.trcWptr).toNat = w + 16) ∧
        (size ≤ w + 16 → b.rb Reg.trcCtrl 1 = true → b'.reg Reg.trcWptr = 0 ∧ b'.rb Reg.trcStat 0 = true) ∧
        (size ≤ w + 16 → b.rb Reg.trcCtrl 1 = false → b'.rb Reg.trcStat 1 = true ∧ b'.rb (regKey 0x0B0 Reg.hEvtRaw) 1 = true)) ∧
      (b.mCheck 20 none .store a 16 ≠ none → Ends s .traceWrite fun b' => b'.rb Reg.trcStat 2 = true ∧ b'.trc = b.trc ∧ b'.mem = b.mem)) ∧
    (b.trc.fifo = [] → Leaves s .traceWrite b) ∧
    (b.grants 20 Reg.dbgRstReq = true → b.dbgOpen = true →
      (fld v 0 16 = 0x5A5A → Ends s (.debugReset v) fun b' => b'.sys.base = 1 ∧ b'.rb Reg.rstCause 6 = true ∧ b'.mem = [] ∧ b'.engines = [] ∧ b'.tasks = []) ∧
      (fld v 0 16 ≠ 0x5A5A → Leaves s (.debugReset v) b))

/-- Every register page: the lock takes and releases its key and refuses writes; a write of 1 clears event and fault bits, the aliases set and
clear bits of the registers that have them; reserved bits and encodings leave what stood; a read of a counter clears it. The registers of
mover channels 0 to 3 are closed below PL 3.
Model's choices and readings met here: DEDUCED, logs 16, 17, 104, 114. -/
def Obligations.RegisterPages : Prop :=
  ∀ (s : State) (m page off : Nat) (key : BitVec 16) (v : Word) (row : RegRow),
    let b := s.blk
    let k := regKey page off
    let lock := regKey page Reg.hLock
    let refused := fun (i : Instr) => Leaves s i (if m = 18 then (b.flt page 31).hostRefused else b.flt page 31)
    let isRc := fun (j : Nat) => ∃ r, r ∈ pageRows page ∧ r.acc = .rc ∧ ∃ x y, x < r.n1 ∧ y < r.n2 ∧ j = regKey page (r.off + r.s1 * x + r.s2 * y)
    let plain := (0x011 ≤ page ∧ page < 0x015) ∨ page = 0x062
    let shut := page = 0x050 ∧ 0x100 ≤ off ∧ off < 0x200 ∧ m ≠ 20 ∧ ¬ (m < 16 ∧ b.pageLevel m page = some 3)
    pageExists page = true →
    (b.reaches m lock = true →
      (b.locked page = false → Leaves s (.lock m page key) (b.setReg lock (0x80000000 + key.setWidth 32)) ∧ refused (.unlock m page key)) ∧
      (b.locked page = true → refused (.lock m page key)) ∧
      (b.locked page = true → key = (b.reg lock).setWidth 16 → Leaves s (.unlock m page key) (b.setReg lock 0)) ∧
      (b.locked page = true → key ≠ (b.reg lock).setWidth 16 → refused (.unlock m page key))) ∧
    (b.reaches m (regKey page Reg.hCtrl) = true →
      (b.locked page = false → Ends s (.cntClr m page) fun b' => (∀ j, isRc j → b'.reg j = 0) ∧ (∀ j, ¬ isRc j → b'.reg j = b.reg j) ∧
        b' = { b with regs := b'.regs, fab := { b.fab with db := if page = 0x07A then b.fab.db.drop 1 else b.fab.db } }) ∧
      (b.locked page = true → refused (.cntClr m page))) ∧
    (b.grants m (regKey page (0x1000 + Reg.hEvtEn)) = true → Leaves s (.setAlias m page Reg.hEvtEn v)
      (b.setReg (regKey page Reg.hEvtEn) (b.reg (regKey page Reg.hEvtEn) ||| v))) ∧
    (b.grants m (regKey page (0x2000 + Reg.hEvtEn)) = true → Leaves s (.clearAlias m page Reg.hEvtEn v)
      (b.setReg (regKey page Reg.hEvtEn) (b.reg (regKey page Reg.hEvtEn) &&& ~~~ v))) ∧
    (shut → b.reaches m k = true → Leaves s (.registerWrite m page off v) (b.chFault ((off - 0x100) / 0x40) 1)) ∧
    (0x40 ≤ off → off < 0x1000 → ¬ shut → regRow page off = some row →
      (row.acc ≠ .rwa → (b.reaches m (regKey page (0x1000 + off)) = true → Leaves s (.setAlias m page off v) (b.flt page 30)) ∧
        (b.reaches m (regKey page (0x2000 + off)) = true → Leaves s (.clearAlias m page off v) (b.flt page 30))) ∧
      (row.acc = .rwa → page = 0x015 ∨ page = 0x016 →
        (b.grants m (regKey page (0x1000 + off)) = true → Leaves s (.setAlias m page off v) (b.setReg k (b.reg k ||| v))) ∧
        (b.grants m (regKey page (0x2000 + off)) = true → Leaves s (.clearAlias m page off v) (b.setReg k (b.reg k &&& ~~~ v)))) ∧
      (row.acc = .rc → page ≠ 0x07A ∨ off ≠ 0x50 → b.shows m k = true → Leaves s (.rcRead m page off) (b.setReg k 0)) ∧
      (row.acc = .ro → row.w1c = 0 → b.reaches m k = true → Leaves s (.registerWrite m page off v) b) ∧
      (row.acc = .rw → plain → b.grants m k = true → Leaves s (.registerWrite m page off v) (b.setReg k (row.merge (b.reg k) v))) ∧
      (row.acc = .rw → b.reaches m k = true → b.locked page = true → refused (.registerWrite m page off v))) ∧
    (0x40 ≤ off → off < 0x1000 → ¬ shut → regRow page off = none → b.reaches m k = true → Leaves s (.registerWrite m page off v) b) ∧
    (b.reaches m (regKey page Reg.hEvtRaw) = true → page < 0x064 →
      Leaves s (.registerWrite m page Reg.hEvtRaw v) (b.setReg (regKey page Reg.hEvtRaw) (b.reg (regKey page Reg.hEvtRaw) &&& ~~~ v))) ∧
    (b.reaches m (regKey page Reg.hFault) = true →
      Leaves s (.registerWrite m page Reg.hFault v) (b.setReg (regKey page Reg.hFault) (b.reg (regKey page Reg.hFault) &&& ~~~ v))) ∧
    (b.grants m (regKey page Reg.hEvtEn) = true → Leaves s (.registerWrite m page Reg.hEvtEn v) (b.setReg (regKey page Reg.hEvtEn) v)) ∧
    (b.grants m (regKey page Reg.hPriv) = true → Leaves s (.registerWrite m page Reg.hPriv v)
      (if fld v 0 2 = 2 then b else b.setReg (regKey page Reg.hPriv) (v &&& 3)))
end

