-- ==== Sys2Proof/Laws/Tab.lean ====
section
/-! SUPPORT. The laws of sparse tables: read after write, and every write keeps the canonical form. -/
namespace Sys2Proof.Machine

variable {α : Type}

@[simp] theorem Tab.get_nil (d : Nat → α) (k : Nat) : Tab.get d [] k = d k := rfl

theorem Tab.get_put (d : Nat → α) (t : Tab α) (k j : Nat) (v : α) :
    Tab.get d (Tab.put t k v) j = if k = j then v else Tab.get d t j := by
  induction t with
  | nil => simp [Tab.put, Tab.get]
  | cons x t ih =>
    obtain ⟨i, u⟩ := x
    simp only [Tab.put]
    split
    · simp [Tab.get]
    · split
      · subst_vars
        by_cases h : i = j <;> simp [Tab.get, h]
      · rename_i h1 h2
        by_cases h : i = j
        · subst h
          simp [Tab.get, h2]
        · simp [Tab.get, h, ih]

@[simp] theorem Tab.get_put_self (d : Nat → α) (t : Tab α) (k : Nat) (v : α) :
    Tab.get d (Tab.put t k v) k = v := by simp [Tab.get_put]

theorem Tab.get_put_ne (d : Nat → α) (t : Tab α) {k j : Nat} (v : α) (h : k ≠ j) :
    Tab.get d (Tab.put t k v) j = Tab.get d t j := by simp [Tab.get_put, h]

theorem Tab.get_del (d : Nat → α) (t : Tab α) (k j : Nat) :
    Tab.get d (Tab.del t k) j = if k = j then d j else Tab.get d t j := by
  induction t with
  | nil => simp [Tab.del, Tab.get]
  | cons x t ih =>
    obtain ⟨i, u⟩ := x
    simp only [Tab.del]
    split
    · subst_vars
      rw [ih]
      by_cases h : i = j <;> simp [Tab.get, h]
    · rename_i h1
      by_cases h : i = j
      · subst h
        have : ¬ k = i := fun hk => h1 hk.symm
        simp [Tab.get, this]
      · simp [Tab.get, h, ih]

variable [DecidableEq α]

theorem Tab.get_set (d : Nat → α) (t : Tab α) (k j : Nat) (v : α) :
    Tab.get d (Tab.set d t k v) j = if k = j then v else Tab.get d t j := by
  unfold Tab.set
  split
  · rename_i h
    rw [Tab.get_del]
    by_cases hk : k = j
    · subst hk
      simp [h]
    · simp [hk]
  · exact Tab.get_put d t k j v

@[simp] theorem Tab.get_set_self (d : Nat → α) (t : Tab α) (k : Nat) (v : α) :
    Tab.get d (Tab.set d t k v) k = v := by simp [Tab.get_set]

theorem Tab.get_set_ne (d : Nat → α) (t : Tab α) {k j : Nat} (v : α) (h : k ≠ j) :
    Tab.get d (Tab.set d t k v) j = Tab.get d t j := by simp [Tab.get_set, h]

omit [DecidableEq α] in
theorem Tab.above_mono {a b : Nat} (h : a ≤ b) (t : Tab α) (hb : Tab.above b t = true) :
    Tab.above a t = true := by
  induction t with
  | nil => rfl
  | cons x t ih =>
    simp only [Tab.above, Bool.and_eq_true, decide_eq_true_eq] at hb ⊢
    exact ⟨by omega, ih hb.2⟩

omit [DecidableEq α] in
theorem Tab.above_put (t : Tab α) (a k : Nat) (v : α) (ha : Tab.above a t = true) (hk : a < k) :
    Tab.above a (Tab.put t k v) = true := by
  induction t with
  | nil => simp [Tab.put, Tab.above, hk]
  | cons x t ih =>
    simp only [Tab.above, Bool.and_eq_true, decide_eq_true_eq] at ha
    simp only [Tab.put]
    split
    · simp [Tab.above, hk, ha]
    · split
      · simp [Tab.above, hk, ha]
      · simp [Tab.above, ha, ih ha.2]

omit [DecidableEq α] in
theorem Tab.above_del (t : Tab α) (a k : Nat) (ha : Tab.above a t = true) :
    Tab.above a (Tab.del t k) = true := by
  induction t with
  | nil => rfl
  | cons x t ih =>
    simp only [Tab.above, Bool.and_eq_true, decide_eq_true_eq] at ha
    simp only [Tab.del]
    split
    · exact ih ha.2
    · simp [Tab.above, ha, ih ha.2]

theorem Tab.wf_put (d : Nat → α) (t : Tab α) (k : Nat) (v : α) (ht : Tab.wf d t = true) (hv : v ≠ d k) :
    Tab.wf d (Tab.put t k v) = true := by
  induction t with
  | nil => simp [Tab.put, Tab.wf, Tab.above, hv]
  | cons x t ih =>
    obtain ⟨j, u⟩ := x
    simp only [Tab.wf, Bool.and_eq_true, decide_eq_true_eq] at ht
    obtain ⟨⟨h1, h2⟩, h3⟩ := ht
    simp only [Tab.put]
    split
    · rename_i hk
      have := Tab.above_mono (Nat.le_of_lt hk) t h2
      simp [Tab.wf, Tab.above, hv, hk, h1, h2, h3, this]
    · split
      · subst_vars
        simp [Tab.wf, hv, h2, h3]
      · have hk : j < k := by omega
        simp [Tab.wf, h1, Tab.above_put t j k v h2 hk, ih h3]

theorem Tab.wf_del (d : Nat → α) (t : Tab α) (k : Nat) (ht : Tab.wf d t = true) :
    Tab.wf d (Tab.del t k) = true := by
  induction t with
  | nil => rfl
  | cons x t ih =>
    obtain ⟨j, u⟩ := x
    simp only [Tab.wf, Bool.and_eq_true, decide_eq_true_eq] at ht
    obtain ⟨⟨h1, h2⟩, h3⟩ := ht
    simp only [Tab.del]
    split
    · exact ih h3
    · simp [Tab.wf, h1, Tab.above_del t j k h2, ih h3]

/-- Every write keeps the canonical form. -/
theorem Tab.wf_set (d : Nat → α) (t : Tab α) (k : Nat) (v : α) (ht : Tab.wf d t = true) :
    Tab.wf d (Tab.set d t k v) = true := by
  unfold Tab.set
  split
  · exact Tab.wf_del d t k ht
  · rename_i h
    exact Tab.wf_put d t k v ht h

end Sys2Proof.Machine
end

