-- ==== Sys2Proof/Laws/State.lean ====
section
/-! SUPPORT. What each update of the block leaves of every field, and what is read back after it. -/
namespace Sys2Proof.Machine

variable (b : Blk)

@[simp] theorem Blk.setReg_mem (k : Nat) (v : Word) : (b.setReg k v).mem = b.mem := rfl
@[simp] theorem Blk.setReg_ecc (k : Nat) (v : Word) : (b.setReg k v).ecc = b.ecc := rfl
@[simp] theorem Blk.setReg_banks (k : Nat) (v : Word) : (b.setReg k v).banks = b.banks := rfl
@[simp] theorem Blk.setReg_copying (k : Nat) (v : Word) : (b.setReg k v).copying = b.copying := rfl
@[simp] theorem Blk.setReg_engines (k : Nat) (v : Word) : (b.setReg k v).engines = b.engines := rfl
@[simp] theorem Blk.setReg_tasks (k : Nat) (v : Word) : (b.setReg k v).tasks = b.tasks := rfl
@[simp] theorem Blk.setReg_pairs (k : Nat) (v : Word) : (b.setReg k v).pairs = b.pairs := rfl
@[simp] theorem Blk.setReg_router (k : Nat) (v : Word) : (b.setReg k v).router = b.router := rfl
@[simp] theorem Blk.setReg_drive (k : Nat) (v : Word) : (b.setReg k v).drive = b.drive := rfl
@[simp] theorem Blk.setReg_chans (k : Nat) (v : Word) : (b.setReg k v).chans = b.chans := rfl
@[simp] theorem Blk.setReg_paths (k : Nat) (v : Word) : (b.setReg k v).paths = b.paths := rfl
@[simp] theorem Blk.setReg_fab (k : Nat) (v : Word) : (b.setReg k v).fab = b.fab := rfl
@[simp] theorem Blk.setReg_sw (k : Nat) (v : Word) : (b.setReg k v).sw = b.sw := rfl
@[simp] theorem Blk.setReg_lanes (k : Nat) (v : Word) : (b.setReg k v).lanes = b.lanes := rfl
@[simp] theorem Blk.setReg_mir (k : Nat) (v : Word) : (b.setReg k v).mir = b.mir := rfl
@[simp] theorem Blk.setReg_sec (k : Nat) (v : Word) : (b.setReg k v).sec = b.sec := rfl
@[simp] theorem Blk.setReg_pow (k : Nat) (v : Word) : (b.setReg k v).pow = b.pow := rfl
@[simp] theorem Blk.setReg_hst (k : Nat) (v : Word) : (b.setReg k v).hst = b.hst := rfl
@[simp] theorem Blk.setReg_tap (k : Nat) (v : Word) : (b.setReg k v).tap = b.tap := rfl
@[simp] theorem Blk.setReg_mfr (k : Nat) (v : Word) : (b.setReg k v).mfr = b.mfr := rfl
@[simp] theorem Blk.setReg_keys (k : Nat) (v : Word) : (b.setReg k v).keys = b.keys := rfl
@[simp] theorem Blk.setReg_jobs (k : Nat) (v : Word) : (b.setReg k v).jobs = b.jobs := rfl
@[simp] theorem Blk.setReg_jobNext (k : Nat) (v : Word) : (b.setReg k v).jobNext = b.jobNext := rfl
@[simp] theorem Blk.setReg_tb (k : Nat) (v : Word) : (b.setReg k v).tb = b.tb := rfl
@[simp] theorem Blk.setReg_sys (k : Nat) (v : Word) : (b.setReg k v).sys = b.sys := rfl
@[simp] theorem Blk.setReg_trc (k : Nat) (v : Word) : (b.setReg k v).trc = b.trc := rfl
@[simp] theorem Blk.setReg_cwq (k : Nat) (v : Word) : (b.setReg k v).cwq = b.cwq := rfl
@[simp] theorem Blk.setReg_mp (k : Nat) (v : Word) : (b.setReg k v).mp = b.mp := rfl
@[simp] theorem Blk.setReg_mpRst (k : Nat) (v : Word) : (b.setReg k v).mpRst = b.mpRst := rfl
@[simp] theorem Blk.setReg_free (k : Nat) (v : Word) : (b.setReg k v).free = b.free := rfl
@[simp] theorem Blk.setReg_stamp (k : Nat) (v : Word) : (b.setReg k v).stamp = b.stamp := rfl
@[simp] theorem Blk.setReg_out (k : Nat) (v : Word) : (b.setReg k v).out = b.out := rfl

@[simp] theorem Blk.setF_mem (k lo n v : Nat) : (b.setF k lo n v).mem = b.mem := rfl
@[simp] theorem Blk.setF_ecc (k lo n v : Nat) : (b.setF k lo n v).ecc = b.ecc := rfl
@[simp] theorem Blk.setF_banks (k lo n v : Nat) : (b.setF k lo n v).banks = b.banks := rfl
@[simp] theorem Blk.setF_copying (k lo n v : Nat) : (b.setF k lo n v).copying = b.copying := rfl
@[simp] theorem Blk.setF_engines (k lo n v : Nat) : (b.setF k lo n v).engines = b.engines := rfl
@[simp] theorem Blk.setF_tasks (k lo n v : Nat) : (b.setF k lo n v).tasks = b.tasks := rfl
@[simp] theorem Blk.setF_pairs (k lo n v : Nat) : (b.setF k lo n v).pairs = b.pairs := rfl
@[simp] theorem Blk.setF_router (k lo n v : Nat) : (b.setF k lo n v).router = b.router := rfl
@[simp] theorem Blk.setF_drive (k lo n v : Nat) : (b.setF k lo n v).drive = b.drive := rfl
@[simp] theorem Blk.setF_chans (k lo n v : Nat) : (b.setF k lo n v).chans = b.chans := rfl
@[simp] theorem Blk.setF_paths (k lo n v : Nat) : (b.setF k lo n v).paths = b.paths := rfl
@[simp] theorem Blk.setF_fab (k lo n v : Nat) : (b.setF k lo n v).fab = b.fab := rfl
@[simp] theorem Blk.setF_sw (k lo n v : Nat) : (b.setF k lo n v).sw = b.sw := rfl
@[simp] theorem Blk.setF_lanes (k lo n v : Nat) : (b.setF k lo n v).lanes = b.lanes := rfl
@[simp] theorem Blk.setF_mir (k lo n v : Nat) : (b.setF k lo n v).mir = b.mir := rfl
@[simp] theorem Blk.setF_sec (k lo n v : Nat) : (b.setF k lo n v).sec = b.sec := rfl
@[simp] theorem Blk.setF_pow (k lo n v : Nat) : (b.setF k lo n v).pow = b.pow := rfl
@[simp] theorem Blk.setF_hst (k lo n v : Nat) : (b.setF k lo n v).hst = b.hst := rfl
@[simp] theorem Blk.setF_tap (k lo n v : Nat) : (b.setF k lo n v).tap = b.tap := rfl
@[simp] theorem Blk.setF_mfr (k lo n v : Nat) : (b.setF k lo n v).mfr = b.mfr := rfl
@[simp] theorem Blk.setF_keys (k lo n v : Nat) : (b.setF k lo n v).keys = b.keys := rfl
@[simp] theorem Blk.setF_jobs (k lo n v : Nat) : (b.setF k lo n v).jobs = b.jobs := rfl
@[simp] theorem Blk.setF_jobNext (k lo n v : Nat) : (b.setF k lo n v).jobNext = b.jobNext := rfl
@[simp] theorem Blk.setF_tb (k lo n v : Nat) : (b.setF k lo n v).tb = b.tb := rfl
@[simp] theorem Blk.setF_sys (k lo n v : Nat) : (b.setF k lo n v).sys = b.sys := rfl
@[simp] theorem Blk.setF_trc (k lo n v : Nat) : (b.setF k lo n v).trc = b.trc := rfl
@[simp] theorem Blk.setF_cwq (k lo n v : Nat) : (b.setF k lo n v).cwq = b.cwq := rfl
@[simp] theorem Blk.setF_mp (k lo n v : Nat) : (b.setF k lo n v).mp = b.mp := rfl
@[simp] theorem Blk.setF_mpRst (k lo n v : Nat) : (b.setF k lo n v).mpRst = b.mpRst := rfl
@[simp] theorem Blk.setF_free (k lo n v : Nat) : (b.setF k lo n v).free = b.free := rfl
@[simp] theorem Blk.setF_stamp (k lo n v : Nat) : (b.setF k lo n v).stamp = b.stamp := rfl
@[simp] theorem Blk.setF_out (k lo n v : Nat) : (b.setF k lo n v).out = b.out := rfl

@[simp] theorem Blk.setBit_mem (k i : Nat) : (b.setBit k i).mem = b.mem := rfl
@[simp] theorem Blk.setBit_ecc (k i : Nat) : (b.setBit k i).ecc = b.ecc := rfl
@[simp] theorem Blk.setBit_banks (k i : Nat) : (b.setBit k i).banks = b.banks := rfl
@[simp] theorem Blk.setBit_copying (k i : Nat) : (b.setBit k i).copying = b.copying := rfl
@[simp] theorem Blk.setBit_engines (k i : Nat) : (b.setBit k i).engines = b.engines := rfl
@[simp] theorem Blk.setBit_tasks (k i : Nat) : (b.setBit k i).tasks = b.tasks := rfl
@[simp] theorem Blk.setBit_pairs (k i : Nat) : (b.setBit k i).pairs = b.pairs := rfl
@[simp] theorem Blk.setBit_router (k i : Nat) : (b.setBit k i).router = b.router := rfl
@[simp] theorem Blk.setBit_drive (k i : Nat) : (b.setBit k i).drive = b.drive := rfl
@[simp] theorem Blk.setBit_chans (k i : Nat) : (b.setBit k i).chans = b.chans := rfl
@[simp] theorem Blk.setBit_paths (k i : Nat) : (b.setBit k i).paths = b.paths := rfl
@[simp] theorem Blk.setBit_fab (k i : Nat) : (b.setBit k i).fab = b.fab := rfl
@[simp] theorem Blk.setBit_sw (k i : Nat) : (b.setBit k i).sw = b.sw := rfl
@[simp] theorem Blk.setBit_lanes (k i : Nat) : (b.setBit k i).lanes = b.lanes := rfl
@[simp] theorem Blk.setBit_mir (k i : Nat) : (b.setBit k i).mir = b.mir := rfl
@[simp] theorem Blk.setBit_sec (k i : Nat) : (b.setBit k i).sec = b.sec := rfl
@[simp] theorem Blk.setBit_pow (k i : Nat) : (b.setBit k i).pow = b.pow := rfl
@[simp] theorem Blk.setBit_hst (k i : Nat) : (b.setBit k i).hst = b.hst := rfl
@[simp] theorem Blk.setBit_tap (k i : Nat) : (b.setBit k i).tap = b.tap := rfl
@[simp] theorem Blk.setBit_mfr (k i : Nat) : (b.setBit k i).mfr = b.mfr := rfl
@[simp] theorem Blk.setBit_keys (k i : Nat) : (b.setBit k i).keys = b.keys := rfl
@[simp] theorem Blk.setBit_jobs (k i : Nat) : (b.setBit k i).jobs = b.jobs := rfl
@[simp] theorem Blk.setBit_jobNext (k i : Nat) : (b.setBit k i).jobNext = b.jobNext := rfl
@[simp] theorem Blk.setBit_tb (k i : Nat) : (b.setBit k i).tb = b.tb := rfl
@[simp] theorem Blk.setBit_sys (k i : Nat) : (b.setBit k i).sys = b.sys := rfl
@[simp] theorem Blk.setBit_trc (k i : Nat) : (b.setBit k i).trc = b.trc := rfl
@[simp] theorem Blk.setBit_cwq (k i : Nat) : (b.setBit k i).cwq = b.cwq := rfl
@[simp] theorem Blk.setBit_mp (k i : Nat) : (b.setBit k i).mp = b.mp := rfl
@[simp] theorem Blk.setBit_mpRst (k i : Nat) : (b.setBit k i).mpRst = b.mpRst := rfl
@[simp] theorem Blk.setBit_free (k i : Nat) : (b.setBit k i).free = b.free := rfl
@[simp] theorem Blk.setBit_stamp (k i : Nat) : (b.setBit k i).stamp = b.stamp := rfl
@[simp] theorem Blk.setBit_out (k i : Nat) : (b.setBit k i).out = b.out := rfl

@[simp] theorem Blk.clrBit_mem (k i : Nat) : (b.clrBit k i).mem = b.mem := rfl
@[simp] theorem Blk.clrBit_ecc (k i : Nat) : (b.clrBit k i).ecc = b.ecc := rfl
@[simp] theorem Blk.clrBit_banks (k i : Nat) : (b.clrBit k i).banks = b.banks := rfl
@[simp] theorem Blk.clrBit_copying (k i : Nat) : (b.clrBit k i).copying = b.copying := rfl
@[simp] theorem Blk.clrBit_engines (k i : Nat) : (b.clrBit k i).engines = b.engines := rfl
@[simp] theorem Blk.clrBit_tasks (k i : Nat) : (b.clrBit k i).tasks = b.tasks := rfl
@[simp] theorem Blk.clrBit_pairs (k i : Nat) : (b.clrBit k i).pairs = b.pairs := rfl
@[simp] theorem Blk.clrBit_router (k i : Nat) : (b.clrBit k i).router = b.router := rfl
@[simp] theorem Blk.clrBit_drive (k i : Nat) : (b.clrBit k i).drive = b.drive := rfl
@[simp] theorem Blk.clrBit_chans (k i : Nat) : (b.clrBit k i).chans = b.chans := rfl
@[simp] theorem Blk.clrBit_paths (k i : Nat) : (b.clrBit k i).paths = b.paths := rfl
@[simp] theorem Blk.clrBit_fab (k i : Nat) : (b.clrBit k i).fab = b.fab := rfl
@[simp] theorem Blk.clrBit_sw (k i : Nat) : (b.clrBit k i).sw = b.sw := rfl
@[simp] theorem Blk.clrBit_lanes (k i : Nat) : (b.clrBit k i).lanes = b.lanes := rfl
@[simp] theorem Blk.clrBit_mir (k i : Nat) : (b.clrBit k i).mir = b.mir := rfl
@[simp] theorem Blk.clrBit_sec (k i : Nat) : (b.clrBit k i).sec = b.sec := rfl
@[simp] theorem Blk.clrBit_pow (k i : Nat) : (b.clrBit k i).pow = b.pow := rfl
@[simp] theorem Blk.clrBit_hst (k i : Nat) : (b.clrBit k i).hst = b.hst := rfl
@[simp] theorem Blk.clrBit_tap (k i : Nat) : (b.clrBit k i).tap = b.tap := rfl
@[simp] theorem Blk.clrBit_mfr (k i : Nat) : (b.clrBit k i).mfr = b.mfr := rfl
@[simp] theorem Blk.clrBit_keys (k i : Nat) : (b.clrBit k i).keys = b.keys := rfl
@[simp] theorem Blk.clrBit_jobs (k i : Nat) : (b.clrBit k i).jobs = b.jobs := rfl
@[simp] theorem Blk.clrBit_jobNext (k i : Nat) : (b.clrBit k i).jobNext = b.jobNext := rfl
@[simp] theorem Blk.clrBit_tb (k i : Nat) : (b.clrBit k i).tb = b.tb := rfl
@[simp] theorem Blk.clrBit_sys (k i : Nat) : (b.clrBit k i).sys = b.sys := rfl
@[simp] theorem Blk.clrBit_trc (k i : Nat) : (b.clrBit k i).trc = b.trc := rfl
@[simp] theorem Blk.clrBit_cwq (k i : Nat) : (b.clrBit k i).cwq = b.cwq := rfl
@[simp] theorem Blk.clrBit_mp (k i : Nat) : (b.clrBit k i).mp = b.mp := rfl
@[simp] theorem Blk.clrBit_mpRst (k i : Nat) : (b.clrBit k i).mpRst = b.mpRst := rfl
@[simp] theorem Blk.clrBit_free (k i : Nat) : (b.clrBit k i).free = b.free := rfl
@[simp] theorem Blk.clrBit_stamp (k i : Nat) : (b.clrBit k i).stamp = b.stamp := rfl
@[simp] theorem Blk.clrBit_out (k i : Nat) : (b.clrBit k i).out = b.out := rfl

@[simp] theorem Blk.event_mem (p i : Nat) : (b.event p i).mem = b.mem := Blk.setBit_mem b _ i
@[simp] theorem Blk.event_ecc (p i : Nat) : (b.event p i).ecc = b.ecc := Blk.setBit_ecc b _ i
@[simp] theorem Blk.event_banks (p i : Nat) : (b.event p i).banks = b.banks := Blk.setBit_banks b _ i
@[simp] theorem Blk.event_copying (p i : Nat) : (b.event p i).copying = b.copying := Blk.setBit_copying b _ i
@[simp] theorem Blk.event_engines (p i : Nat) : (b.event p i).engines = b.engines := Blk.setBit_engines b _ i
@[simp] theorem Blk.event_tasks (p i : Nat) : (b.event p i).tasks = b.tasks := Blk.setBit_tasks b _ i
@[simp] theorem Blk.event_pairs (p i : Nat) : (b.event p i).pairs = b.pairs := Blk.setBit_pairs b _ i
@[simp] theorem Blk.event_router (p i : Nat) : (b.event p i).router = b.router := Blk.setBit_router b _ i
@[simp] theorem Blk.event_drive (p i : Nat) : (b.event p i).drive = b.drive := Blk.setBit_drive b _ i
@[simp] theorem Blk.event_chans (p i : Nat) : (b.event p i).chans = b.chans := Blk.setBit_chans b _ i
@[simp] theorem Blk.event_paths (p i : Nat) : (b.event p i).paths = b.paths := Blk.setBit_paths b _ i
@[simp] theorem Blk.event_fab (p i : Nat) : (b.event p i).fab = b.fab := Blk.setBit_fab b _ i
@[simp] theorem Blk.event_sw (p i : Nat) : (b.event p i).sw = b.sw := Blk.setBit_sw b _ i
@[simp] theorem Blk.event_lanes (p i : Nat) : (b.event p i).lanes = b.lanes := Blk.setBit_lanes b _ i
@[simp] theorem Blk.event_mir (p i : Nat) : (b.event p i).mir = b.mir := Blk.setBit_mir b _ i
@[simp] theorem Blk.event_sec (p i : Nat) : (b.event p i).sec = b.sec := Blk.setBit_sec b _ i
@[simp] theorem Blk.event_pow (p i : Nat) : (b.event p i).pow = b.pow := Blk.setBit_pow b _ i
@[simp] theorem Blk.event_hst (p i : Nat) : (b.event p i).hst = b.hst := Blk.setBit_hst b _ i
@[simp] theorem Blk.event_tap (p i : Nat) : (b.event p i).tap = b.tap := Blk.setBit_tap b _ i
@[simp] theorem Blk.event_mfr (p i : Nat) : (b.event p i).mfr = b.mfr := Blk.setBit_mfr b _ i
@[simp] theorem Blk.event_keys (p i : Nat) : (b.event p i).keys = b.keys := Blk.setBit_keys b _ i
@[simp] theorem Blk.event_jobs (p i : Nat) : (b.event p i).jobs = b.jobs := Blk.setBit_jobs b _ i
@[simp] theorem Blk.event_jobNext (p i : Nat) : (b.event p i).jobNext = b.jobNext := Blk.setBit_jobNext b _ i
@[simp] theorem Blk.event_tb (p i : Nat) : (b.event p i).tb = b.tb := Blk.setBit_tb b _ i
@[simp] theorem Blk.event_sys (p i : Nat) : (b.event p i).sys = b.sys := Blk.setBit_sys b _ i
@[simp] theorem Blk.event_trc (p i : Nat) : (b.event p i).trc = b.trc := Blk.setBit_trc b _ i
@[simp] theorem Blk.event_cwq (p i : Nat) : (b.event p i).cwq = b.cwq := Blk.setBit_cwq b _ i
@[simp] theorem Blk.event_mp (p i : Nat) : (b.event p i).mp = b.mp := Blk.setBit_mp b _ i
@[simp] theorem Blk.event_mpRst (p i : Nat) : (b.event p i).mpRst = b.mpRst := Blk.setBit_mpRst b _ i
@[simp] theorem Blk.event_free (p i : Nat) : (b.event p i).free = b.free := Blk.setBit_free b _ i
@[simp] theorem Blk.event_stamp (p i : Nat) : (b.event p i).stamp = b.stamp := Blk.setBit_stamp b _ i
@[simp] theorem Blk.event_out (p i : Nat) : (b.event p i).out = b.out := Blk.setBit_out b _ i

@[simp] theorem Blk.flt_mem (p i : Nat) : (b.flt p i).mem = b.mem := Blk.setBit_mem b _ i
@[simp] theorem Blk.flt_ecc (p i : Nat) : (b.flt p i).ecc = b.ecc := Blk.setBit_ecc b _ i
@[simp] theorem Blk.flt_banks (p i : Nat) : (b.flt p i).banks = b.banks := Blk.setBit_banks b _ i
@[simp] theorem Blk.flt_copying (p i : Nat) : (b.flt p i).copying = b.copying := Blk.setBit_copying b _ i
@[simp] theorem Blk.flt_engines (p i : Nat) : (b.flt p i).engines = b.engines := Blk.setBit_engines b _ i
@[simp] theorem Blk.flt_tasks (p i : Nat) : (b.flt p i).tasks = b.tasks := Blk.setBit_tasks b _ i
@[simp] theorem Blk.flt_pairs (p i : Nat) : (b.flt p i).pairs = b.pairs := Blk.setBit_pairs b _ i
@[simp] theorem Blk.flt_router (p i : Nat) : (b.flt p i).router = b.router := Blk.setBit_router b _ i
@[simp] theorem Blk.flt_drive (p i : Nat) : (b.flt p i).drive = b.drive := Blk.setBit_drive b _ i
@[simp] theorem Blk.flt_chans (p i : Nat) : (b.flt p i).chans = b.chans := Blk.setBit_chans b _ i
@[simp] theorem Blk.flt_paths (p i : Nat) : (b.flt p i).paths = b.paths := Blk.setBit_paths b _ i
@[simp] theorem Blk.flt_fab (p i : Nat) : (b.flt p i).fab = b.fab := Blk.setBit_fab b _ i
@[simp] theorem Blk.flt_sw (p i : Nat) : (b.flt p i).sw = b.sw := Blk.setBit_sw b _ i
@[simp] theorem Blk.flt_lanes (p i : Nat) : (b.flt p i).lanes = b.lanes := Blk.setBit_lanes b _ i
@[simp] theorem Blk.flt_mir (p i : Nat) : (b.flt p i).mir = b.mir := Blk.setBit_mir b _ i
@[simp] theorem Blk.flt_sec (p i : Nat) : (b.flt p i).sec = b.sec := Blk.setBit_sec b _ i
@[simp] theorem Blk.flt_pow (p i : Nat) : (b.flt p i).pow = b.pow := Blk.setBit_pow b _ i
@[simp] theorem Blk.flt_hst (p i : Nat) : (b.flt p i).hst = b.hst := Blk.setBit_hst b _ i
@[simp] theorem Blk.flt_tap (p i : Nat) : (b.flt p i).tap = b.tap := Blk.setBit_tap b _ i
@[simp] theorem Blk.flt_mfr (p i : Nat) : (b.flt p i).mfr = b.mfr := Blk.setBit_mfr b _ i
@[simp] theorem Blk.flt_keys (p i : Nat) : (b.flt p i).keys = b.keys := Blk.setBit_keys b _ i
@[simp] theorem Blk.flt_jobs (p i : Nat) : (b.flt p i).jobs = b.jobs := Blk.setBit_jobs b _ i
@[simp] theorem Blk.flt_jobNext (p i : Nat) : (b.flt p i).jobNext = b.jobNext := Blk.setBit_jobNext b _ i
@[simp] theorem Blk.flt_tb (p i : Nat) : (b.flt p i).tb = b.tb := Blk.setBit_tb b _ i
@[simp] theorem Blk.flt_sys (p i : Nat) : (b.flt p i).sys = b.sys := Blk.setBit_sys b _ i
@[simp] theorem Blk.flt_trc (p i : Nat) : (b.flt p i).trc = b.trc := Blk.setBit_trc b _ i
@[simp] theorem Blk.flt_cwq (p i : Nat) : (b.flt p i).cwq = b.cwq := Blk.setBit_cwq b _ i
@[simp] theorem Blk.flt_mp (p i : Nat) : (b.flt p i).mp = b.mp := Blk.setBit_mp b _ i
@[simp] theorem Blk.flt_mpRst (p i : Nat) : (b.flt p i).mpRst = b.mpRst := Blk.setBit_mpRst b _ i
@[simp] theorem Blk.flt_free (p i : Nat) : (b.flt p i).free = b.free := Blk.setBit_free b _ i
@[simp] theorem Blk.flt_stamp (p i : Nat) : (b.flt p i).stamp = b.stamp := Blk.setBit_stamp b _ i
@[simp] theorem Blk.flt_out (p i : Nat) : (b.flt p i).out = b.out := Blk.setBit_out b _ i

@[simp] theorem Blk.setByte_regs (a : Nat) (v : Byte) : (b.setByte a v).regs = b.regs := rfl
@[simp] theorem Blk.setByte_ecc (a : Nat) (v : Byte) : (b.setByte a v).ecc = b.ecc := rfl
@[simp] theorem Blk.setByte_banks (a : Nat) (v : Byte) : (b.setByte a v).banks = b.banks := rfl
@[simp] theorem Blk.setByte_copying (a : Nat) (v : Byte) : (b.setByte a v).copying = b.copying := rfl
@[simp] theorem Blk.setByte_engines (a : Nat) (v : Byte) : (b.setByte a v).engines = b.engines := rfl
@[simp] theorem Blk.setByte_tasks (a : Nat) (v : Byte) : (b.setByte a v).tasks = b.tasks := rfl
@[simp] theorem Blk.setByte_pairs (a : Nat) (v : Byte) : (b.setByte a v).pairs = b.pairs := rfl
@[simp] theorem Blk.setByte_router (a : Nat) (v : Byte) : (b.setByte a v).router = b.router := rfl
@[simp] theorem Blk.setByte_drive (a : Nat) (v : Byte) : (b.setByte a v).drive = b.drive := rfl
@[simp] theorem Blk.setByte_chans (a : Nat) (v : Byte) : (b.setByte a v).chans = b.chans := rfl
@[simp] theorem Blk.setByte_paths (a : Nat) (v : Byte) : (b.setByte a v).paths = b.paths := rfl
@[simp] theorem Blk.setByte_fab (a : Nat) (v : Byte) : (b.setByte a v).fab = b.fab := rfl
@[simp] theorem Blk.setByte_sw (a : Nat) (v : Byte) : (b.setByte a v).sw = b.sw := rfl
@[simp] theorem Blk.setByte_lanes (a : Nat) (v : Byte) : (b.setByte a v).lanes = b.lanes := rfl
@[simp] theorem Blk.setByte_mir (a : Nat) (v : Byte) : (b.setByte a v).mir = b.mir := rfl
@[simp] theorem Blk.setByte_sec (a : Nat) (v : Byte) : (b.setByte a v).sec = b.sec := rfl
@[simp] theorem Blk.setByte_pow (a : Nat) (v : Byte) : (b.setByte a v).pow = b.pow := rfl
@[simp] theorem Blk.setByte_hst (a : Nat) (v : Byte) : (b.setByte a v).hst = b.hst := rfl
@[simp] theorem Blk.setByte_tap (a : Nat) (v : Byte) : (b.setByte a v).tap = b.tap := rfl
@[simp] theorem Blk.setByte_mfr (a : Nat) (v : Byte) : (b.setByte a v).mfr = b.mfr := rfl
@[simp] theorem Blk.setByte_keys (a : Nat) (v : Byte) : (b.setByte a v).keys = b.keys := rfl
@[simp] theorem Blk.setByte_jobs (a : Nat) (v : Byte) : (b.setByte a v).jobs = b.jobs := rfl
@[simp] theorem Blk.setByte_jobNext (a : Nat) (v : Byte) : (b.setByte a v).jobNext = b.jobNext := rfl
@[simp] theorem Blk.setByte_tb (a : Nat) (v : Byte) : (b.setByte a v).tb = b.tb := rfl
@[simp] theorem Blk.setByte_sys (a : Nat) (v : Byte) : (b.setByte a v).sys = b.sys := rfl
@[simp] theorem Blk.setByte_trc (a : Nat) (v : Byte) : (b.setByte a v).trc = b.trc := rfl
@[simp] theorem Blk.setByte_cwq (a : Nat) (v : Byte) : (b.setByte a v).cwq = b.cwq := rfl
@[simp] theorem Blk.setByte_mp (a : Nat) (v : Byte) : (b.setByte a v).mp = b.mp := rfl
@[simp] theorem Blk.setByte_mpRst (a : Nat) (v : Byte) : (b.setByte a v).mpRst = b.mpRst := rfl
@[simp] theorem Blk.setByte_free (a : Nat) (v : Byte) : (b.setByte a v).free = b.free := rfl
@[simp] theorem Blk.setByte_stamp (a : Nat) (v : Byte) : (b.setByte a v).stamp = b.stamp := rfl
@[simp] theorem Blk.setByte_out (a : Nat) (v : Byte) : (b.setByte a v).out = b.out := rfl

@[simp] theorem Blk.setEng_regs (e : Nat) (x : Engine) : (b.setEng e x).regs = b.regs := rfl
@[simp] theorem Blk.setEng_mem (e : Nat) (x : Engine) : (b.setEng e x).mem = b.mem := rfl
@[simp] theorem Blk.setEng_ecc (e : Nat) (x : Engine) : (b.setEng e x).ecc = b.ecc := rfl
@[simp] theorem Blk.setEng_banks (e : Nat) (x : Engine) : (b.setEng e x).banks = b.banks := rfl
@[simp] theorem Blk.setEng_copying (e : Nat) (x : Engine) : (b.setEng e x).copying = b.copying := rfl
@[simp] theorem Blk.setEng_tasks (e : Nat) (x : Engine) : (b.setEng e x).tasks = b.tasks := rfl
@[simp] theorem Blk.setEng_pairs (e : Nat) (x : Engine) : (b.setEng e x).pairs = b.pairs := rfl
@[simp] theorem Blk.setEng_router (e : Nat) (x : Engine) : (b.setEng e x).router = b.router := rfl
@[simp] theorem Blk.setEng_drive (e : Nat) (x : Engine) : (b.setEng e x).drive = b.drive := rfl
@[simp] theorem Blk.setEng_chans (e : Nat) (x : Engine) : (b.setEng e x).chans = b.chans := rfl
@[simp] theorem Blk.setEng_paths (e : Nat) (x : Engine) : (b.setEng e x).paths = b.paths := rfl
@[simp] theorem Blk.setEng_fab (e : Nat) (x : Engine) : (b.setEng e x).fab = b.fab := rfl
@[simp] theorem Blk.setEng_sw (e : Nat) (x : Engine) : (b.setEng e x).sw = b.sw := rfl
@[simp] theorem Blk.setEng_lanes (e : Nat) (x : Engine) : (b.setEng e x).lanes = b.lanes := rfl
@[simp] theorem Blk.setEng_mir (e : Nat) (x : Engine) : (b.setEng e x).mir = b.mir := rfl
@[simp] theorem Blk.setEng_sec (e : Nat) (x : Engine) : (b.setEng e x).sec = b.sec := rfl
@[simp] theorem Blk.setEng_pow (e : Nat) (x : Engine) : (b.setEng e x).pow = b.pow := rfl
@[simp] theorem Blk.setEng_hst (e : Nat) (x : Engine) : (b.setEng e x).hst = b.hst := rfl
@[simp] theorem Blk.setEng_tap (e : Nat) (x : Engine) : (b.setEng e x).tap = b.tap := rfl
@[simp] theorem Blk.setEng_mfr (e : Nat) (x : Engine) : (b.setEng e x).mfr = b.mfr := rfl
@[simp] theorem Blk.setEng_keys (e : Nat) (x : Engine) : (b.setEng e x).keys = b.keys := rfl
@[simp] theorem Blk.setEng_jobs (e : Nat) (x : Engine) : (b.setEng e x).jobs = b.jobs := rfl
@[simp] theorem Blk.setEng_jobNext (e : Nat) (x : Engine) : (b.setEng e x).jobNext = b.jobNext := rfl
@[simp] theorem Blk.setEng_tb (e : Nat) (x : Engine) : (b.setEng e x).tb = b.tb := rfl
@[simp] theorem Blk.setEng_sys (e : Nat) (x : Engine) : (b.setEng e x).sys = b.sys := rfl
@[simp] theorem Blk.setEng_trc (e : Nat) (x : Engine) : (b.setEng e x).trc = b.trc := rfl
@[simp] theorem Blk.setEng_cwq (e : Nat) (x : Engine) : (b.setEng e x).cwq = b.cwq := rfl
@[simp] theorem Blk.setEng_mp (e : Nat) (x : Engine) : (b.setEng e x).mp = b.mp := rfl
@[simp] theorem Blk.setEng_mpRst (e : Nat) (x : Engine) : (b.setEng e x).mpRst = b.mpRst := rfl
@[simp] theorem Blk.setEng_free (e : Nat) (x : Engine) : (b.setEng e x).free = b.free := rfl
@[simp] theorem Blk.setEng_stamp (e : Nat) (x : Engine) : (b.setEng e x).stamp = b.stamp := rfl
@[simp] theorem Blk.setEng_out (e : Nat) (x : Engine) : (b.setEng e x).out = b.out := rfl

@[simp] theorem Blk.setTask_regs (e t : Nat) (x : TaskCtx) : (b.setTask e t x).regs = b.regs := rfl
@[simp] theorem Blk.setTask_mem (e t : Nat) (x : TaskCtx) : (b.setTask e t x).mem = b.mem := rfl
@[simp] theorem Blk.setTask_ecc (e t : Nat) (x : TaskCtx) : (b.setTask e t x).ecc = b.ecc := rfl
@[simp] theorem Blk.setTask_banks (e t : Nat) (x : TaskCtx) : (b.setTask e t x).banks = b.banks := rfl
@[simp] theorem Blk.setTask_copying (e t : Nat) (x : TaskCtx) : (b.setTask e t x).copying = b.copying := rfl
@[simp] theorem Blk.setTask_engines (e t : Nat) (x : TaskCtx) : (b.setTask e t x).engines = b.engines := rfl
@[simp] theorem Blk.setTask_pairs (e t : Nat) (x : TaskCtx) : (b.setTask e t x).pairs = b.pairs := rfl
@[simp] theorem Blk.setTask_router (e t : Nat) (x : TaskCtx) : (b.setTask e t x).router = b.router := rfl
@[simp] theorem Blk.setTask_drive (e t : Nat) (x : TaskCtx) : (b.setTask e t x).drive = b.drive := rfl
@[simp] theorem Blk.setTask_chans (e t : Nat) (x : TaskCtx) : (b.setTask e t x).chans = b.chans := rfl
@[simp] theorem Blk.setTask_paths (e t : Nat) (x : TaskCtx) : (b.setTask e t x).paths = b.paths := rfl
@[simp] theorem Blk.setTask_fab (e t : Nat) (x : TaskCtx) : (b.setTask e t x).fab = b.fab := rfl
@[simp] theorem Blk.setTask_sw (e t : Nat) (x : TaskCtx) : (b.setTask e t x).sw = b.sw := rfl
@[simp] theorem Blk.setTask_lanes (e t : Nat) (x : TaskCtx) : (b.setTask e t x).lanes = b.lanes := rfl
@[simp] theorem Blk.setTask_mir (e t : Nat) (x : TaskCtx) : (b.setTask e t x).mir = b.mir := rfl
@[simp] theorem Blk.setTask_sec (e t : Nat) (x : TaskCtx) : (b.setTask e t x).sec = b.sec := rfl
@[simp] theorem Blk.setTask_pow (e t : Nat) (x : TaskCtx) : (b.setTask e t x).pow = b.pow := rfl
@[simp] theorem Blk.setTask_hst (e t : Nat) (x : TaskCtx) : (b.setTask e t x).hst = b.hst := rfl
@[simp] theorem Blk.setTask_tap (e t : Nat) (x : TaskCtx) : (b.setTask e t x).tap = b.tap := rfl
@[simp] theorem Blk.setTask_mfr (e t : Nat) (x : TaskCtx) : (b.setTask e t x).mfr = b.mfr := rfl
@[simp] theorem Blk.setTask_keys (e t : Nat) (x : TaskCtx) : (b.setTask e t x).keys = b.keys := rfl
@[simp] theorem Blk.setTask_jobs (e t : Nat) (x : TaskCtx) : (b.setTask e t x).jobs = b.jobs := rfl
@[simp] theorem Blk.setTask_jobNext (e t : Nat) (x : TaskCtx) : (b.setTask e t x).jobNext = b.jobNext := rfl
@[simp] theorem Blk.setTask_tb (e t : Nat) (x : TaskCtx) : (b.setTask e t x).tb = b.tb := rfl
@[simp] theorem Blk.setTask_sys (e t : Nat) (x : TaskCtx) : (b.setTask e t x).sys = b.sys := rfl
@[simp] theorem Blk.setTask_trc (e t : Nat) (x : TaskCtx) : (b.setTask e t x).trc = b.trc := rfl
@[simp] theorem Blk.setTask_cwq (e t : Nat) (x : TaskCtx) : (b.setTask e t x).cwq = b.cwq := rfl
@[simp] theorem Blk.setTask_mp (e t : Nat) (x : TaskCtx) : (b.setTask e t x).mp = b.mp := rfl
@[simp] theorem Blk.setTask_mpRst (e t : Nat) (x : TaskCtx) : (b.setTask e t x).mpRst = b.mpRst := rfl
@[simp] theorem Blk.setTask_free (e t : Nat) (x : TaskCtx) : (b.setTask e t x).free = b.free := rfl
@[simp] theorem Blk.setTask_stamp (e t : Nat) (x : TaskCtx) : (b.setTask e t x).stamp = b.stamp := rfl
@[simp] theorem Blk.setTask_out (e t : Nat) (x : TaskCtx) : (b.setTask e t x).out = b.out := rfl

@[simp] theorem Blk.setPair_regs (p : Nat) (x : Pair) : (b.setPair p x).regs = b.regs := rfl
@[simp] theorem Blk.setPair_mem (p : Nat) (x : Pair) : (b.setPair p x).mem = b.mem := rfl
@[simp] theorem Blk.setPair_ecc (p : Nat) (x : Pair) : (b.setPair p x).ecc = b.ecc := rfl
@[simp] theorem Blk.setPair_banks (p : Nat) (x : Pair) : (b.setPair p x).banks = b.banks := rfl
@[simp] theorem Blk.setPair_copying (p : Nat) (x : Pair) : (b.setPair p x).copying = b.copying := rfl
@[simp] theorem Blk.setPair_engines (p : Nat) (x : Pair) : (b.setPair p x).engines = b.engines := rfl
@[simp] theorem Blk.setPair_tasks (p : Nat) (x : Pair) : (b.setPair p x).tasks = b.tasks := rfl
@[simp] theorem Blk.setPair_router (p : Nat) (x : Pair) : (b.setPair p x).router = b.router := rfl
@[simp] theorem Blk.setPair_drive (p : Nat) (x : Pair) : (b.setPair p x).drive = b.drive := rfl
@[simp] theorem Blk.setPair_chans (p : Nat) (x : Pair) : (b.setPair p x).chans = b.chans := rfl
@[simp] theorem Blk.setPair_paths (p : Nat) (x : Pair) : (b.setPair p x).paths = b.paths := rfl
@[simp] theorem Blk.setPair_fab (p : Nat) (x : Pair) : (b.setPair p x).fab = b.fab := rfl
@[simp] theorem Blk.setPair_sw (p : Nat) (x : Pair) : (b.setPair p x).sw = b.sw := rfl
@[simp] theorem Blk.setPair_lanes (p : Nat) (x : Pair) : (b.setPair p x).lanes = b.lanes := rfl
@[simp] theorem Blk.setPair_mir (p : Nat) (x : Pair) : (b.setPair p x).mir = b.mir := rfl
@[simp] theorem Blk.setPair_sec (p : Nat) (x : Pair) : (b.setPair p x).sec = b.sec := rfl
@[simp] theorem Blk.setPair_pow (p : Nat) (x : Pair) : (b.setPair p x).pow = b.pow := rfl
@[simp] theorem Blk.setPair_hst (p : Nat) (x : Pair) : (b.setPair p x).hst = b.hst := rfl
@[simp] theorem Blk.setPair_tap (p : Nat) (x : Pair) : (b.setPair p x).tap = b.tap := rfl
@[simp] theorem Blk.setPair_mfr (p : Nat) (x : Pair) : (b.setPair p x).mfr = b.mfr := rfl
@[simp] theorem Blk.setPair_keys (p : Nat) (x : Pair) : (b.setPair p x).keys = b.keys := rfl
@[simp] theorem Blk.setPair_jobs (p : Nat) (x : Pair) : (b.setPair p x).jobs = b.jobs := rfl
@[simp] theorem Blk.setPair_jobNext (p : Nat) (x : Pair) : (b.setPair p x).jobNext = b.jobNext := rfl
@[simp] theorem Blk.setPair_tb (p : Nat) (x : Pair) : (b.setPair p x).tb = b.tb := rfl
@[simp] theorem Blk.setPair_sys (p : Nat) (x : Pair) : (b.setPair p x).sys = b.sys := rfl
@[simp] theorem Blk.setPair_trc (p : Nat) (x : Pair) : (b.setPair p x).trc = b.trc := rfl
@[simp] theorem Blk.setPair_cwq (p : Nat) (x : Pair) : (b.setPair p x).cwq = b.cwq := rfl
@[simp] theorem Blk.setPair_mp (p : Nat) (x : Pair) : (b.setPair p x).mp = b.mp := rfl
@[simp] theorem Blk.setPair_mpRst (p : Nat) (x : Pair) : (b.setPair p x).mpRst = b.mpRst := rfl
@[simp] theorem Blk.setPair_free (p : Nat) (x : Pair) : (b.setPair p x).free = b.free := rfl
@[simp] theorem Blk.setPair_stamp (p : Nat) (x : Pair) : (b.setPair p x).stamp = b.stamp := rfl
@[simp] theorem Blk.setPair_out (p : Nat) (x : Pair) : (b.setPair p x).out = b.out := rfl

@[simp] theorem Blk.setBank_regs (k : Nat) (x : Bank) : (b.setBank k x).regs = b.regs := rfl
@[simp] theorem Blk.setBank_mem (k : Nat) (x : Bank) : (b.setBank k x).mem = b.mem := rfl
@[simp] theorem Blk.setBank_ecc (k : Nat) (x : Bank) : (b.setBank k x).ecc = b.ecc := rfl
@[simp] theorem Blk.setBank_copying (k : Nat) (x : Bank) : (b.setBank k x).copying = b.copying := rfl
@[simp] theorem Blk.setBank_engines (k : Nat) (x : Bank) : (b.setBank k x).engines = b.engines := rfl
@[simp] theorem Blk.setBank_tasks (k : Nat) (x : Bank) : (b.setBank k x).tasks = b.tasks := rfl
@[simp] theorem Blk.setBank_pairs (k : Nat) (x : Bank) : (b.setBank k x).pairs = b.pairs := rfl
@[simp] theorem Blk.setBank_router (k : Nat) (x : Bank) : (b.setBank k x).router = b.router := rfl
@[simp] theorem Blk.setBank_drive (k : Nat) (x : Bank) : (b.setBank k x).drive = b.drive := rfl
@[simp] theorem Blk.setBank_chans (k : Nat) (x : Bank) : (b.setBank k x).chans = b.chans := rfl
@[simp] theorem Blk.setBank_paths (k : Nat) (x : Bank) : (b.setBank k x).paths = b.paths := rfl
@[simp] theorem Blk.setBank_fab (k : Nat) (x : Bank) : (b.setBank k x).fab = b.fab := rfl
@[simp] theorem Blk.setBank_sw (k : Nat) (x : Bank) : (b.setBank k x).sw = b.sw := rfl
@[simp] theorem Blk.setBank_lanes (k : Nat) (x : Bank) : (b.setBank k x).lanes = b.lanes := rfl
@[simp] theorem Blk.setBank_mir (k : Nat) (x : Bank) : (b.setBank k x).mir = b.mir := rfl
@[simp] theorem Blk.setBank_sec (k : Nat) (x : Bank) : (b.setBank k x).sec = b.sec := rfl
@[simp] theorem Blk.setBank_pow (k : Nat) (x : Bank) : (b.setBank k x).pow = b.pow := rfl
@[simp] theorem Blk.setBank_hst (k : Nat) (x : Bank) : (b.setBank k x).hst = b.hst := rfl
@[simp] theorem Blk.setBank_tap (k : Nat) (x : Bank) : (b.setBank k x).tap = b.tap := rfl
@[simp] theorem Blk.setBank_mfr (k : Nat) (x : Bank) : (b.setBank k x).mfr = b.mfr := rfl
@[simp] theorem Blk.setBank_keys (k : Nat) (x : Bank) : (b.setBank k x).keys = b.keys := rfl
@[simp] theorem Blk.setBank_jobs (k : Nat) (x : Bank) : (b.setBank k x).jobs = b.jobs := rfl
@[simp] theorem Blk.setBank_jobNext (k : Nat) (x : Bank) : (b.setBank k x).jobNext = b.jobNext := rfl
@[simp] theorem Blk.setBank_tb (k : Nat) (x : Bank) : (b.setBank k x).tb = b.tb := rfl
@[simp] theorem Blk.setBank_sys (k : Nat) (x : Bank) : (b.setBank k x).sys = b.sys := rfl
@[simp] theorem Blk.setBank_trc (k : Nat) (x : Bank) : (b.setBank k x).trc = b.trc := rfl
@[simp] theorem Blk.setBank_cwq (k : Nat) (x : Bank) : (b.setBank k x).cwq = b.cwq := rfl
@[simp] theorem Blk.setBank_mp (k : Nat) (x : Bank) : (b.setBank k x).mp = b.mp := rfl
@[simp] theorem Blk.setBank_mpRst (k : Nat) (x : Bank) : (b.setBank k x).mpRst = b.mpRst := rfl
@[simp] theorem Blk.setBank_free (k : Nat) (x : Bank) : (b.setBank k x).free = b.free := rfl
@[simp] theorem Blk.setBank_stamp (k : Nat) (x : Bank) : (b.setBank k x).stamp = b.stamp := rfl
@[simp] theorem Blk.setBank_out (k : Nat) (x : Bank) : (b.setBank k x).out = b.out := rfl

@[simp] theorem Blk.setChan_regs (c : Nat) (x : MpChan) : (b.setChan c x).regs = b.regs := rfl
@[simp] theorem Blk.setChan_mem (c : Nat) (x : MpChan) : (b.setChan c x).mem = b.mem := rfl
@[simp] theorem Blk.setChan_ecc (c : Nat) (x : MpChan) : (b.setChan c x).ecc = b.ecc := rfl
@[simp] theorem Blk.setChan_banks (c : Nat) (x : MpChan) : (b.setChan c x).banks = b.banks := rfl
@[simp] theorem Blk.setChan_copying (c : Nat) (x : MpChan) : (b.setChan c x).copying = b.copying := rfl
@[simp] theorem Blk.setChan_engines (c : Nat) (x : MpChan) : (b.setChan c x).engines = b.engines := rfl
@[simp] theorem Blk.setChan_tasks (c : Nat) (x : MpChan) : (b.setChan c x).tasks = b.tasks := rfl
@[simp] theorem Blk.setChan_pairs (c : Nat) (x : MpChan) : (b.setChan c x).pairs = b.pairs := rfl
@[simp] theorem Blk.setChan_router (c : Nat) (x : MpChan) : (b.setChan c x).router = b.router := rfl
@[simp] theorem Blk.setChan_drive (c : Nat) (x : MpChan) : (b.setChan c x).drive = b.drive := rfl
@[simp] theorem Blk.setChan_chans (c : Nat) (x : MpChan) : (b.setChan c x).chans = b.chans := rfl
@[simp] theorem Blk.setChan_paths (c : Nat) (x : MpChan) : (b.setChan c x).paths = b.paths := rfl
@[simp] theorem Blk.setChan_fab (c : Nat) (x : MpChan) : (b.setChan c x).fab = b.fab := rfl
@[simp] theorem Blk.setChan_sw (c : Nat) (x : MpChan) : (b.setChan c x).sw = b.sw := rfl
@[simp] theorem Blk.setChan_lanes (c : Nat) (x : MpChan) : (b.setChan c x).lanes = b.lanes := rfl
@[simp] theorem Blk.setChan_mir (c : Nat) (x : MpChan) : (b.setChan c x).mir = b.mir := rfl
@[simp] theorem Blk.setChan_sec (c : Nat) (x : MpChan) : (b.setChan c x).sec = b.sec := rfl
@[simp] theorem Blk.setChan_pow (c : Nat) (x : MpChan) : (b.setChan c x).pow = b.pow := rfl
@[simp] theorem Blk.setChan_hst (c : Nat) (x : MpChan) : (b.setChan c x).hst = b.hst := rfl
@[simp] theorem Blk.setChan_tap (c : Nat) (x : MpChan) : (b.setChan c x).tap = b.tap := rfl
@[simp] theorem Blk.setChan_mfr (c : Nat) (x : MpChan) : (b.setChan c x).mfr = b.mfr := rfl
@[simp] theorem Blk.setChan_keys (c : Nat) (x : MpChan) : (b.setChan c x).keys = b.keys := rfl
@[simp] theorem Blk.setChan_jobs (c : Nat) (x : MpChan) : (b.setChan c x).jobs = b.jobs := rfl
@[simp] theorem Blk.setChan_jobNext (c : Nat) (x : MpChan) : (b.setChan c x).jobNext = b.jobNext := rfl
@[simp] theorem Blk.setChan_tb (c : Nat) (x : MpChan) : (b.setChan c x).tb = b.tb := rfl
@[simp] theorem Blk.setChan_sys (c : Nat) (x : MpChan) : (b.setChan c x).sys = b.sys := rfl
@[simp] theorem Blk.setChan_trc (c : Nat) (x : MpChan) : (b.setChan c x).trc = b.trc := rfl
@[simp] theorem Blk.setChan_cwq (c : Nat) (x : MpChan) : (b.setChan c x).cwq = b.cwq := rfl
@[simp] theorem Blk.setChan_mpRst (c : Nat) (x : MpChan) : (b.setChan c x).mpRst = b.mpRst := rfl
@[simp] theorem Blk.setChan_free (c : Nat) (x : MpChan) : (b.setChan c x).free = b.free := rfl
@[simp] theorem Blk.setChan_stamp (c : Nat) (x : MpChan) : (b.setChan c x).stamp = b.stamp := rfl
@[simp] theorem Blk.setChan_out (c : Nat) (x : MpChan) : (b.setChan c x).out = b.out := rfl

@[simp] theorem Blk.emit_regs (o : OutEvent) : (b.emit o).regs = b.regs := rfl
@[simp] theorem Blk.emit_mem (o : OutEvent) : (b.emit o).mem = b.mem := rfl
@[simp] theorem Blk.emit_ecc (o : OutEvent) : (b.emit o).ecc = b.ecc := rfl
@[simp] theorem Blk.emit_banks (o : OutEvent) : (b.emit o).banks = b.banks := rfl
@[simp] theorem Blk.emit_copying (o : OutEvent) : (b.emit o).copying = b.copying := rfl
@[simp] theorem Blk.emit_engines (o : OutEvent) : (b.emit o).engines = b.engines := rfl
@[simp] theorem Blk.emit_tasks (o : OutEvent) : (b.emit o).tasks = b.tasks := rfl
@[simp] theorem Blk.emit_pairs (o : OutEvent) : (b.emit o).pairs = b.pairs := rfl
@[simp] theorem Blk.emit_router (o : OutEvent) : (b.emit o).router = b.router := rfl
@[simp] theorem Blk.emit_drive (o : OutEvent) : (b.emit o).drive = b.drive := rfl
@[simp] theorem Blk.emit_chans (o : OutEvent) : (b.emit o).chans = b.chans := rfl
@[simp] theorem Blk.emit_paths (o : OutEvent) : (b.emit o).paths = b.paths := rfl
@[simp] theorem Blk.emit_fab (o : OutEvent) : (b.emit o).fab = b.fab := rfl
@[simp] theorem Blk.emit_sw (o : OutEvent) : (b.emit o).sw = b.sw := rfl
@[simp] theorem Blk.emit_lanes (o : OutEvent) : (b.emit o).lanes = b.lanes := rfl
@[simp] theorem Blk.emit_mir (o : OutEvent) : (b.emit o).mir = b.mir := rfl
@[simp] theorem Blk.emit_sec (o : OutEvent) : (b.emit o).sec = b.sec := rfl
@[simp] theorem Blk.emit_pow (o : OutEvent) : (b.emit o).pow = b.pow := rfl
@[simp] theorem Blk.emit_hst (o : OutEvent) : (b.emit o).hst = b.hst := rfl
@[simp] theorem Blk.emit_tap (o : OutEvent) : (b.emit o).tap = b.tap := rfl
@[simp] theorem Blk.emit_mfr (o : OutEvent) : (b.emit o).mfr = b.mfr := rfl
@[simp] theorem Blk.emit_keys (o : OutEvent) : (b.emit o).keys = b.keys := rfl
@[simp] theorem Blk.emit_jobs (o : OutEvent) : (b.emit o).jobs = b.jobs := rfl
@[simp] theorem Blk.emit_jobNext (o : OutEvent) : (b.emit o).jobNext = b.jobNext := rfl
@[simp] theorem Blk.emit_tb (o : OutEvent) : (b.emit o).tb = b.tb := rfl
@[simp] theorem Blk.emit_sys (o : OutEvent) : (b.emit o).sys = b.sys := rfl
@[simp] theorem Blk.emit_trc (o : OutEvent) : (b.emit o).trc = b.trc := rfl
@[simp] theorem Blk.emit_cwq (o : OutEvent) : (b.emit o).cwq = b.cwq := rfl
@[simp] theorem Blk.emit_mp (o : OutEvent) : (b.emit o).mp = b.mp := rfl
@[simp] theorem Blk.emit_mpRst (o : OutEvent) : (b.emit o).mpRst = b.mpRst := rfl
@[simp] theorem Blk.emit_free (o : OutEvent) : (b.emit o).free = b.free := rfl
@[simp] theorem Blk.emit_stamp (o : OutEvent) : (b.emit o).stamp = b.stamp := rfl

@[simp] theorem Blk.freeNext_regs : (b.freeNext).regs = b.regs := rfl
@[simp] theorem Blk.freeNext_mem : (b.freeNext).mem = b.mem := rfl
@[simp] theorem Blk.freeNext_ecc : (b.freeNext).ecc = b.ecc := rfl
@[simp] theorem Blk.freeNext_banks : (b.freeNext).banks = b.banks := rfl
@[simp] theorem Blk.freeNext_copying : (b.freeNext).copying = b.copying := rfl
@[simp] theorem Blk.freeNext_engines : (b.freeNext).engines = b.engines := rfl
@[simp] theorem Blk.freeNext_tasks : (b.freeNext).tasks = b.tasks := rfl
@[simp] theorem Blk.freeNext_pairs : (b.freeNext).pairs = b.pairs := rfl
@[simp] theorem Blk.freeNext_router : (b.freeNext).router = b.router := rfl
@[simp] theorem Blk.freeNext_drive : (b.freeNext).drive = b.drive := rfl
@[simp] theorem Blk.freeNext_chans : (b.freeNext).chans = b.chans := rfl
@[simp] theorem Blk.freeNext_paths : (b.freeNext).paths = b.paths := rfl
@[simp] theorem Blk.freeNext_fab : (b.freeNext).fab = b.fab := rfl
@[simp] theorem Blk.freeNext_sw : (b.freeNext).sw = b.sw := rfl
@[simp] theorem Blk.freeNext_lanes : (b.freeNext).lanes = b.lanes := rfl
@[simp] theorem Blk.freeNext_mir : (b.freeNext).mir = b.mir := rfl
@[simp] theorem Blk.freeNext_sec : (b.freeNext).sec = b.sec := rfl
@[simp] theorem Blk.freeNext_pow : (b.freeNext).pow = b.pow := rfl
@[simp] theorem Blk.freeNext_hst : (b.freeNext).hst = b.hst := rfl
@[simp] theorem Blk.freeNext_tap : (b.freeNext).tap = b.tap := rfl
@[simp] theorem Blk.freeNext_mfr : (b.freeNext).mfr = b.mfr := rfl
@[simp] theorem Blk.freeNext_keys : (b.freeNext).keys = b.keys := rfl
@[simp] theorem Blk.freeNext_jobs : (b.freeNext).jobs = b.jobs := rfl
@[simp] theorem Blk.freeNext_jobNext : (b.freeNext).jobNext = b.jobNext := rfl
@[simp] theorem Blk.freeNext_tb : (b.freeNext).tb = b.tb := rfl
@[simp] theorem Blk.freeNext_sys : (b.freeNext).sys = b.sys := rfl
@[simp] theorem Blk.freeNext_trc : (b.freeNext).trc = b.trc := rfl
@[simp] theorem Blk.freeNext_cwq : (b.freeNext).cwq = b.cwq := rfl
@[simp] theorem Blk.freeNext_mp : (b.freeNext).mp = b.mp := rfl
@[simp] theorem Blk.freeNext_mpRst : (b.freeNext).mpRst = b.mpRst := rfl
@[simp] theorem Blk.freeNext_stamp : (b.freeNext).stamp = b.stamp := rfl
@[simp] theorem Blk.freeNext_out : (b.freeNext).out = b.out := rfl

/-! Counting saturates: it writes at most one register. -/

theorem Blk.count_or (k lo n : Nat) : b.count k lo n = b.setF k lo n (b.rf k lo n + 1) ∨ b.count k lo n = b := by
  unfold Blk.count
  split
  · exact .inl rfl
  · exact .inr rfl

@[simp] theorem Blk.count_mem (k lo n : Nat) : (b.count k lo n).mem = b.mem := by
  obtain h | h := b.count_or k lo n <;> simp [h]
@[simp] theorem Blk.count_ecc (k lo n : Nat) : (b.count k lo n).ecc = b.ecc := by
  obtain h | h := b.count_or k lo n <;> simp [h]
@[simp] theorem Blk.count_banks (k lo n : Nat) : (b.count k lo n).banks = b.banks := by
  obtain h | h := b.count_or k lo n <;> simp [h]
@[simp] theorem Blk.count_copying (k lo n : Nat) : (b.count k lo n).copying = b.copying := by
  obtain h | h := b.count_or k lo n <;> simp [h]
@[simp] theorem Blk.count_engines (k lo n : Nat) : (b.count k lo n).engines = b.engines := by
  obtain h | h := b.count_or k lo n <;> simp [h]
@[simp] theorem Blk.count_tasks (k lo n : Nat) : (b.count k lo n).tasks = b.tasks := by
  obtain h | h := b.count_or k lo n <;> simp [h]
@[simp] theorem Blk.count_pairs (k lo n : Nat) : (b.count k lo n).pairs = b.pairs := by
  obtain h | h := b.count_or k lo n <;> simp [h]
@[simp] theorem Blk.count_router (k lo n : Nat) : (b.count k lo n).router = b.router := by
  obtain h | h := b.count_or k lo n <;> simp [h]
@[simp] theorem Blk.count_drive (k lo n : Nat) : (b.count k lo n).drive = b.drive := by
  obtain h | h := b.count_or k lo n <;> simp [h]
@[simp] theorem Blk.count_chans (k lo n : Nat) : (b.count k lo n).chans = b.chans := by
  obtain h | h := b.count_or k lo n <;> simp [h]
@[simp] theorem Blk.count_paths (k lo n : Nat) : (b.count k lo n).paths = b.paths := by
  obtain h | h := b.count_or k lo n <;> simp [h]
@[simp] theorem Blk.count_fab (k lo n : Nat) : (b.count k lo n).fab = b.fab := by
  obtain h | h := b.count_or k lo n <;> simp [h]
@[simp] theorem Blk.count_sw (k lo n : Nat) : (b.count k lo n).sw = b.sw := by
  obtain h | h := b.count_or k lo n <;> simp [h]
@[simp] theorem Blk.count_lanes (k lo n : Nat) : (b.count k lo n).lanes = b.lanes := by
  obtain h | h := b.count_or k lo n <;> simp [h]
@[simp] theorem Blk.count_mir (k lo n : Nat) : (b.count k lo n).mir = b.mir := by
  obtain h | h := b.count_or k lo n <;> simp [h]
@[simp] theorem Blk.count_sec (k lo n : Nat) : (b.count k lo n).sec = b.sec := by
  obtain h | h := b.count_or k lo n <;> simp [h]
@[simp] theorem Blk.count_pow (k lo n : Nat) : (b.count k lo n).pow = b.pow := by
  obtain h | h := b.count_or k lo n <;> simp [h]
@[simp] theorem Blk.count_hst (k lo n : Nat) : (b.count k lo n).hst = b.hst := by
  obtain h | h := b.count_or k lo n <;> simp [h]
@[simp] theorem Blk.count_tap (k lo n : Nat) : (b.count k lo n).tap = b.tap := by
  obtain h | h := b.count_or k lo n <;> simp [h]
@[simp] theorem Blk.count_mfr (k lo n : Nat) : (b.count k lo n).mfr = b.mfr := by
  obtain h | h := b.count_or k lo n <;> simp [h]
@[simp] theorem Blk.count_keys (k lo n : Nat) : (b.count k lo n).keys = b.keys := by
  obtain h | h := b.count_or k lo n <;> simp [h]
@[simp] theorem Blk.count_jobs (k lo n : Nat) : (b.count k lo n).jobs = b.jobs := by
  obtain h | h := b.count_or k lo n <;> simp [h]
@[simp] theorem Blk.count_jobNext (k lo n : Nat) : (b.count k lo n).jobNext = b.jobNext := by
  obtain h | h := b.count_or k lo n <;> simp [h]
@[simp] theorem Blk.count_tb (k lo n : Nat) : (b.count k lo n).tb = b.tb := by
  obtain h | h := b.count_or k lo n <;> simp [h]
@[simp] theorem Blk.count_sys (k lo n : Nat) : (b.count k lo n).sys = b.sys := by
  obtain h | h := b.count_or k lo n <;> simp [h]
@[simp] theorem Blk.count_trc (k lo n : Nat) : (b.count k lo n).trc = b.trc := by
  obtain h | h := b.count_or k lo n <;> simp [h]
@[simp] theorem Blk.count_cwq (k lo n : Nat) : (b.count k lo n).cwq = b.cwq := by
  obtain h | h := b.count_or k lo n <;> simp [h]
@[simp] theorem Blk.count_mp (k lo n : Nat) : (b.count k lo n).mp = b.mp := by
  obtain h | h := b.count_or k lo n <;> simp [h]
@[simp] theorem Blk.count_mpRst (k lo n : Nat) : (b.count k lo n).mpRst = b.mpRst := by
  obtain h | h := b.count_or k lo n <;> simp [h]
@[simp] theorem Blk.count_free (k lo n : Nat) : (b.count k lo n).free = b.free := by
  obtain h | h := b.count_or k lo n <;> simp [h]
@[simp] theorem Blk.count_stamp (k lo n : Nat) : (b.count k lo n).stamp = b.stamp := by
  obtain h | h := b.count_or k lo n <;> simp [h]
@[simp] theorem Blk.count_out (k lo n : Nat) : (b.count k lo n).out = b.out := by
  obtain h | h := b.count_or k lo n <;> simp [h]

/-! Reading back. -/

theorem Blk.reg_setReg (k j : Nat) (v : Word) : (b.setReg k v).reg j = if k = j then v else b.reg j := Tab.get_set ..

@[simp] theorem Blk.reg_setReg_self (k : Nat) (v : Word) : (b.setReg k v).reg k = v := Tab.get_set_self ..

theorem Blk.reg_setReg_ne {k j : Nat} (v : Word) (h : k ≠ j) : (b.setReg k v).reg j = b.reg j := Tab.get_set_ne _ _ _ h

theorem Blk.byte_setByte (a j : Nat) (v : Byte) : (b.setByte a v).byte j = if a = j then v else b.byte j := Tab.get_set ..

@[simp] theorem Blk.eng_setEng (e : Nat) (x : Engine) : (b.setEng e x).eng e = x := Tab.get_put_self ..

theorem Blk.eng_setEng_ne {e j : Nat} (x : Engine) (h : e ≠ j) : (b.setEng e x).eng j = b.eng j := Tab.get_put_ne _ _ _ h

@[simp] theorem Blk.task_setTask (e t : Nat) (x : TaskCtx) : (b.setTask e t x).task e t = x := Tab.get_put_self ..

theorem Blk.task_setTask_ne {e t j u : Nat} (x : TaskCtx) (h : e * 64 + t ≠ j * 64 + u) : (b.setTask e t x).task j u = b.task j u :=
  Tab.get_put_ne _ _ _ h

@[simp] theorem Blk.pair_setPair (p : Nat) (x : Pair) : (b.setPair p x).pair p = x := Tab.get_put_self ..

theorem Blk.pair_setPair_ne {p j : Nat} (x : Pair) (h : p ≠ j) : (b.setPair p x).pair j = b.pair j := Tab.get_put_ne _ _ _ h

@[simp] theorem Blk.bank_setBank (k : Nat) (x : Bank) : (b.setBank k x).bank k = x := Tab.get_put_self ..

@[simp] theorem Blk.chan_setChan (c : Nat) (x : MpChan) : (b.setChan c x).chan c = x := Tab.get_put_self ..

/-! Derived reads that an update of another field leaves alone. -/

@[simp] theorem Blk.byte_of_setReg (k : Nat) (v : Word) (a' : Nat) : (b.setReg k v).byte a' = b.byte a' := rfl
@[simp] theorem Blk.eng_of_setReg (k : Nat) (v : Word) (q : Nat) : (b.setReg k v).eng q = b.eng q := rfl
@[simp] theorem Blk.anyHalted_of_setReg (k : Nat) (v : Word) : (b.setReg k v).anyHalted = b.anyHalted := rfl
@[simp] theorem Blk.task_of_setReg (k : Nat) (v : Word) (q u : Nat) : (b.setReg k v).task q u = b.task q u := rfl
@[simp] theorem Blk.pair_of_setReg (k : Nat) (v : Word) (q : Nat) : (b.setReg k v).pair q = b.pair q := rfl
@[simp] theorem Blk.bank_of_setReg (k : Nat) (v : Word) (q : Nat) : (b.setReg k v).bank q = b.bank q := rfl
@[simp] theorem Blk.chan_of_setReg (k : Nat) (v : Word) (q : Nat) : (b.setReg k v).chan q = b.chan q := rfl
@[simp] theorem Blk.byte_of_setF (k lo n v : Nat) (a' : Nat) : (b.setF k lo n v).byte a' = b.byte a' := rfl
@[simp] theorem Blk.eng_of_setF (k lo n v : Nat) (q : Nat) : (b.setF k lo n v).eng q = b.eng q := rfl
@[simp] theorem Blk.anyHalted_of_setF (k lo n v : Nat) : (b.setF k lo n v).anyHalted = b.anyHalted := rfl
@[simp] theorem Blk.task_of_setF (k lo n v : Nat) (q u : Nat) : (b.setF k lo n v).task q u = b.task q u := rfl
@[simp] theorem Blk.pair_of_setF (k lo n v : Nat) (q : Nat) : (b.setF k lo n v).pair q = b.pair q := rfl
@[simp] theorem Blk.bank_of_setF (k lo n v : Nat) (q : Nat) : (b.setF k lo n v).bank q = b.bank q := rfl
@[simp] theorem Blk.chan_of_setF (k lo n v : Nat) (q : Nat) : (b.setF k lo n v).chan q = b.chan q := rfl
@[simp] theorem Blk.byte_of_setBit (k i : Nat) (a' : Nat) : (b.setBit k i).byte a' = b.byte a' := rfl
@[simp] theorem Blk.eng_of_setBit (k i : Nat) (q : Nat) : (b.setBit k i).eng q = b.eng q := rfl
@[simp] theorem Blk.anyHalted_of_setBit (k i : Nat) : (b.setBit k i).anyHalted = b.anyHalted := rfl
@[simp] theorem Blk.task_of_setBit (k i : Nat) (q u : Nat) : (b.setBit k i).task q u = b.task q u := rfl
@[simp] theorem Blk.pair_of_setBit (k i : Nat) (q : Nat) : (b.setBit k i).pair q = b.pair q := rfl
@[simp] theorem Blk.bank_of_setBit (k i : Nat) (q : Nat) : (b.setBit k i).bank q = b.bank q := rfl
@[simp] theorem Blk.chan_of_setBit (k i : Nat) (q : Nat) : (b.setBit k i).chan q = b.chan q := rfl
@[simp] theorem Blk.byte_of_clrBit (k i : Nat) (a' : Nat) : (b.clrBit k i).byte a' = b.byte a' := rfl
@[simp] theorem Blk.eng_of_clrBit (k i : Nat) (q : Nat) : (b.clrBit k i).eng q = b.eng q := rfl
@[simp] theorem Blk.anyHalted_of_clrBit (k i : Nat) : (b.clrBit k i).anyHalted = b.anyHalted := rfl
@[simp] theorem Blk.task_of_clrBit (k i : Nat) (q u : Nat) : (b.clrBit k i).task q u = b.task q u := rfl
@[simp] theorem Blk.pair_of_clrBit (k i : Nat) (q : Nat) : (b.clrBit k i).pair q = b.pair q := rfl
@[simp] theorem Blk.bank_of_clrBit (k i : Nat) (q : Nat) : (b.clrBit k i).bank q = b.bank q := rfl
@[simp] theorem Blk.chan_of_clrBit (k i : Nat) (q : Nat) : (b.clrBit k i).chan q = b.chan q := rfl
@[simp] theorem Blk.byte_of_event (p i : Nat) (a' : Nat) : (b.event p i).byte a' = b.byte a' := Blk.byte_of_setBit b _ i a'
@[simp] theorem Blk.eng_of_event (p i : Nat) (q : Nat) : (b.event p i).eng q = b.eng q := Blk.eng_of_setBit b _ i q
@[simp] theorem Blk.anyHalted_of_event (p i : Nat) : (b.event p i).anyHalted = b.anyHalted := Blk.anyHalted_of_setBit b _ i
@[simp] theorem Blk.task_of_event (p i : Nat) (q u : Nat) : (b.event p i).task q u = b.task q u := Blk.task_of_setBit b _ i q u
@[simp] theorem Blk.pair_of_event (p i : Nat) (q : Nat) : (b.event p i).pair q = b.pair q := Blk.pair_of_setBit b _ i q
@[simp] theorem Blk.bank_of_event (p i : Nat) (q : Nat) : (b.event p i).bank q = b.bank q := Blk.bank_of_setBit b _ i q
@[simp] theorem Blk.chan_of_event (p i : Nat) (q : Nat) : (b.event p i).chan q = b.chan q := Blk.chan_of_setBit b _ i q
@[simp] theorem Blk.byte_of_flt (p i : Nat) (a' : Nat) : (b.flt p i).byte a' = b.byte a' := Blk.byte_of_setBit b _ i a'
@[simp] theorem Blk.eng_of_flt (p i : Nat) (q : Nat) : (b.flt p i).eng q = b.eng q := Blk.eng_of_setBit b _ i q
@[simp] theorem Blk.anyHalted_of_flt (p i : Nat) : (b.flt p i).anyHalted = b.anyHalted := Blk.anyHalted_of_setBit b _ i
@[simp] theorem Blk.task_of_flt (p i : Nat) (q u : Nat) : (b.flt p i).task q u = b.task q u := Blk.task_of_setBit b _ i q u
@[simp] theorem Blk.pair_of_flt (p i : Nat) (q : Nat) : (b.flt p i).pair q = b.pair q := Blk.pair_of_setBit b _ i q
@[simp] theorem Blk.bank_of_flt (p i : Nat) (q : Nat) : (b.flt p i).bank q = b.bank q := Blk.bank_of_setBit b _ i q
@[simp] theorem Blk.chan_of_flt (p i : Nat) (q : Nat) : (b.flt p i).chan q = b.chan q := Blk.chan_of_setBit b _ i q
@[simp] theorem Blk.reg_of_setByte (a : Nat) (v : Byte) (k' : Nat) : (b.setByte a v).reg k' = b.reg k' := rfl
@[simp] theorem Blk.rf_of_setByte (a : Nat) (v : Byte) (k' lo' n' : Nat) : (b.setByte a v).rf k' lo' n' = b.rf k' lo' n' := rfl
@[simp] theorem Blk.rb_of_setByte (a : Nat) (v : Byte) (k' i' : Nat) : (b.setByte a v).rb k' i' = b.rb k' i' := rfl
@[simp] theorem Blk.twin_of_setByte (a : Nat) (v : Byte) (q : Nat) : (b.setByte a v).twin q = b.twin q := rfl
@[simp] theorem Blk.broken_of_setByte (a : Nat) (v : Byte) (q : Nat) : (b.setByte a v).broken q = b.broken q := rfl
@[simp] theorem Blk.joined_of_setByte (a : Nat) (v : Byte) (q : Nat) : (b.setByte a v).joined q = b.joined q := rfl
@[simp] theorem Blk.lead_of_setByte (a : Nat) (v : Byte) (q : Nat) : (b.setByte a v).lead q = b.lead q := rfl
@[simp] theorem Blk.degraded_of_setByte (a : Nat) (v : Byte) : (b.setByte a v).degraded = b.degraded := rfl
@[simp] theorem Blk.anyRecovering_of_setByte (a : Nat) (v : Byte) : (b.setByte a v).anyRecovering = b.anyRecovering := rfl
@[simp] theorem Blk.eng_of_setByte (a : Nat) (v : Byte) (q : Nat) : (b.setByte a v).eng q = b.eng q := rfl
@[simp] theorem Blk.anyHalted_of_setByte (a : Nat) (v : Byte) : (b.setByte a v).anyHalted = b.anyHalted := rfl
@[simp] theorem Blk.task_of_setByte (a : Nat) (v : Byte) (q u : Nat) : (b.setByte a v).task q u = b.task q u := rfl
@[simp] theorem Blk.pair_of_setByte (a : Nat) (v : Byte) (q : Nat) : (b.setByte a v).pair q = b.pair q := rfl
@[simp] theorem Blk.bank_of_setByte (a : Nat) (v : Byte) (q : Nat) : (b.setByte a v).bank q = b.bank q := rfl
@[simp] theorem Blk.chan_of_setByte (a : Nat) (v : Byte) (q : Nat) : (b.setByte a v).chan q = b.chan q := rfl
@[simp] theorem Blk.reg_of_setEng (e : Nat) (x : Engine) (k' : Nat) : (b.setEng e x).reg k' = b.reg k' := rfl
@[simp] theorem Blk.rf_of_setEng (e : Nat) (x : Engine) (k' lo' n' : Nat) : (b.setEng e x).rf k' lo' n' = b.rf k' lo' n' := rfl
@[simp] theorem Blk.rb_of_setEng (e : Nat) (x : Engine) (k' i' : Nat) : (b.setEng e x).rb k' i' = b.rb k' i' := rfl
@[simp] theorem Blk.twin_of_setEng (e : Nat) (x : Engine) (q : Nat) : (b.setEng e x).twin q = b.twin q := rfl
@[simp] theorem Blk.broken_of_setEng (e : Nat) (x : Engine) (q : Nat) : (b.setEng e x).broken q = b.broken q := rfl
@[simp] theorem Blk.joined_of_setEng (e : Nat) (x : Engine) (q : Nat) : (b.setEng e x).joined q = b.joined q := rfl
@[simp] theorem Blk.lead_of_setEng (e : Nat) (x : Engine) (q : Nat) : (b.setEng e x).lead q = b.lead q := rfl
@[simp] theorem Blk.degraded_of_setEng (e : Nat) (x : Engine) : (b.setEng e x).degraded = b.degraded := rfl
@[simp] theorem Blk.anyRecovering_of_setEng (e : Nat) (x : Engine) : (b.setEng e x).anyRecovering = b.anyRecovering := rfl
@[simp] theorem Blk.byte_of_setEng (e : Nat) (x : Engine) (a' : Nat) : (b.setEng e x).byte a' = b.byte a' := rfl
@[simp] theorem Blk.task_of_setEng (e : Nat) (x : Engine) (q u : Nat) : (b.setEng e x).task q u = b.task q u := rfl
@[simp] theorem Blk.pair_of_setEng (e : Nat) (x : Engine) (q : Nat) : (b.setEng e x).pair q = b.pair q := rfl
@[simp] theorem Blk.bank_of_setEng (e : Nat) (x : Engine) (q : Nat) : (b.setEng e x).bank q = b.bank q := rfl
@[simp] theorem Blk.chan_of_setEng (e : Nat) (x : Engine) (q : Nat) : (b.setEng e x).chan q = b.chan q := rfl
@[simp] theorem Blk.reg_of_setTask (e t : Nat) (x : TaskCtx) (k' : Nat) : (b.setTask e t x).reg k' = b.reg k' := rfl
@[simp] theorem Blk.rf_of_setTask (e t : Nat) (x : TaskCtx) (k' lo' n' : Nat) : (b.setTask e t x).rf k' lo' n' = b.rf k' lo' n' := rfl
@[simp] theorem Blk.rb_of_setTask (e t : Nat) (x : TaskCtx) (k' i' : Nat) : (b.setTask e t x).rb k' i' = b.rb k' i' := rfl
@[simp] theorem Blk.twin_of_setTask (e t : Nat) (x : TaskCtx) (q : Nat) : (b.setTask e t x).twin q = b.twin q := rfl
@[simp] theorem Blk.broken_of_setTask (e t : Nat) (x : TaskCtx) (q : Nat) : (b.setTask e t x).broken q = b.broken q := rfl
@[simp] theorem Blk.joined_of_setTask (e t : Nat) (x : TaskCtx) (q : Nat) : (b.setTask e t x).joined q = b.joined q := rfl
@[simp] theorem Blk.lead_of_setTask (e t : Nat) (x : TaskCtx) (q : Nat) : (b.setTask e t x).lead q = b.lead q := rfl
@[simp] theorem Blk.degraded_of_setTask (e t : Nat) (x : TaskCtx) : (b.setTask e t x).degraded = b.degraded := rfl
@[simp] theorem Blk.anyRecovering_of_setTask (e t : Nat) (x : TaskCtx) : (b.setTask e t x).anyRecovering = b.anyRecovering := rfl
@[simp] theorem Blk.byte_of_setTask (e t : Nat) (x : TaskCtx) (a' : Nat) : (b.setTask e t x).byte a' = b.byte a' := rfl
@[simp] theorem Blk.eng_of_setTask (e t : Nat) (x : TaskCtx) (q : Nat) : (b.setTask e t x).eng q = b.eng q := rfl
@[simp] theorem Blk.anyHalted_of_setTask (e t : Nat) (x : TaskCtx) : (b.setTask e t x).anyHalted = b.anyHalted := rfl
@[simp] theorem Blk.pair_of_setTask (e t : Nat) (x : TaskCtx) (q : Nat) : (b.setTask e t x).pair q = b.pair q := rfl
@[simp] theorem Blk.bank_of_setTask (e t : Nat) (x : TaskCtx) (q : Nat) : (b.setTask e t x).bank q = b.bank q := rfl
@[simp] theorem Blk.chan_of_setTask (e t : Nat) (x : TaskCtx) (q : Nat) : (b.setTask e t x).chan q = b.chan q := rfl
@[simp] theorem Blk.reg_of_setPair (p : Nat) (x : Pair) (k' : Nat) : (b.setPair p x).reg k' = b.reg k' := rfl
@[simp] theorem Blk.rf_of_setPair (p : Nat) (x : Pair) (k' lo' n' : Nat) : (b.setPair p x).rf k' lo' n' = b.rf k' lo' n' := rfl
@[simp] theorem Blk.rb_of_setPair (p : Nat) (x : Pair) (k' i' : Nat) : (b.setPair p x).rb k' i' = b.rb k' i' := rfl
@[simp] theorem Blk.twin_of_setPair (p : Nat) (x : Pair) (q : Nat) : (b.setPair p x).twin q = b.twin q := rfl
@[simp] theorem Blk.broken_of_setPair (p : Nat) (x : Pair) (q : Nat) : (b.setPair p x).broken q = b.broken q := rfl
@[simp] theorem Blk.joined_of_setPair (p : Nat) (x : Pair) (q : Nat) : (b.setPair p x).joined q = b.joined q := rfl
@[simp] theorem Blk.lead_of_setPair (p : Nat) (x : Pair) (q : Nat) : (b.setPair p x).lead q = b.lead q := rfl
@[simp] theorem Blk.degraded_of_setPair (p : Nat) (x : Pair) : (b.setPair p x).degraded = b.degraded := rfl
@[simp] theorem Blk.anyRecovering_of_setPair (p : Nat) (x : Pair) : (b.setPair p x).anyRecovering = b.anyRecovering := rfl
@[simp] theorem Blk.byte_of_setPair (p : Nat) (x : Pair) (a' : Nat) : (b.setPair p x).byte a' = b.byte a' := rfl
@[simp] theorem Blk.eng_of_setPair (p : Nat) (x : Pair) (q : Nat) : (b.setPair p x).eng q = b.eng q := rfl
@[simp] theorem Blk.anyHalted_of_setPair (p : Nat) (x : Pair) : (b.setPair p x).anyHalted = b.anyHalted := rfl
@[simp] theorem Blk.task_of_setPair (p : Nat) (x : Pair) (q u : Nat) : (b.setPair p x).task q u = b.task q u := rfl
@[simp] theorem Blk.bank_of_setPair (p : Nat) (x : Pair) (q : Nat) : (b.setPair p x).bank q = b.bank q := rfl
@[simp] theorem Blk.chan_of_setPair (p : Nat) (x : Pair) (q : Nat) : (b.setPair p x).chan q = b.chan q := rfl
@[simp] theorem Blk.reg_of_setBank (k : Nat) (x : Bank) (k' : Nat) : (b.setBank k x).reg k' = b.reg k' := rfl
@[simp] theorem Blk.rf_of_setBank (k : Nat) (x : Bank) (k' lo' n' : Nat) : (b.setBank k x).rf k' lo' n' = b.rf k' lo' n' := rfl
@[simp] theorem Blk.rb_of_setBank (k : Nat) (x : Bank) (k' i' : Nat) : (b.setBank k x).rb k' i' = b.rb k' i' := rfl
@[simp] theorem Blk.twin_of_setBank (k : Nat) (x : Bank) (q : Nat) : (b.setBank k x).twin q = b.twin q := rfl
@[simp] theorem Blk.broken_of_setBank (k : Nat) (x : Bank) (q : Nat) : (b.setBank k x).broken q = b.broken q := rfl
@[simp] theorem Blk.joined_of_setBank (k : Nat) (x : Bank) (q : Nat) : (b.setBank k x).joined q = b.joined q := rfl
@[simp] theorem Blk.lead_of_setBank (k : Nat) (x : Bank) (q : Nat) : (b.setBank k x).lead q = b.lead q := rfl
@[simp] theorem Blk.degraded_of_setBank (k : Nat) (x : Bank) : (b.setBank k x).degraded = b.degraded := rfl
@[simp] theorem Blk.anyRecovering_of_setBank (k : Nat) (x : Bank) : (b.setBank k x).anyRecovering = b.anyRecovering := rfl
@[simp] theorem Blk.byte_of_setBank (k : Nat) (x : Bank) (a' : Nat) : (b.setBank k x).byte a' = b.byte a' := rfl
@[simp] theorem Blk.eng_of_setBank (k : Nat) (x : Bank) (q : Nat) : (b.setBank k x).eng q = b.eng q := rfl
@[simp] theorem Blk.anyHalted_of_setBank (k : Nat) (x : Bank) : (b.setBank k x).anyHalted = b.anyHalted := rfl
@[simp] theorem Blk.task_of_setBank (k : Nat) (x : Bank) (q u : Nat) : (b.setBank k x).task q u = b.task q u := rfl
@[simp] theorem Blk.pair_of_setBank (k : Nat) (x : Bank) (q : Nat) : (b.setBank k x).pair q = b.pair q := rfl
@[simp] theorem Blk.chan_of_setBank (k : Nat) (x : Bank) (q : Nat) : (b.setBank k x).chan q = b.chan q := rfl
@[simp] theorem Blk.reg_of_setChan (c : Nat) (x : MpChan) (k' : Nat) : (b.setChan c x).reg k' = b.reg k' := rfl
@[simp] theorem Blk.rf_of_setChan (c : Nat) (x : MpChan) (k' lo' n' : Nat) : (b.setChan c x).rf k' lo' n' = b.rf k' lo' n' := rfl
@[simp] theorem Blk.rb_of_setChan (c : Nat) (x : MpChan) (k' i' : Nat) : (b.setChan c x).rb k' i' = b.rb k' i' := rfl
@[simp] theorem Blk.twin_of_setChan (c : Nat) (x : MpChan) (q : Nat) : (b.setChan c x).twin q = b.twin q := rfl
@[simp] theorem Blk.broken_of_setChan (c : Nat) (x : MpChan) (q : Nat) : (b.setChan c x).broken q = b.broken q := rfl
@[simp] theorem Blk.joined_of_setChan (c : Nat) (x : MpChan) (q : Nat) : (b.setChan c x).joined q = b.joined q := rfl
@[simp] theorem Blk.lead_of_setChan (c : Nat) (x : MpChan) (q : Nat) : (b.setChan c x).lead q = b.lead q := rfl
@[simp] theorem Blk.degraded_of_setChan (c : Nat) (x : MpChan) : (b.setChan c x).degraded = b.degraded := rfl
@[simp] theorem Blk.anyRecovering_of_setChan (c : Nat) (x : MpChan) : (b.setChan c x).anyRecovering = b.anyRecovering := rfl
@[simp] theorem Blk.byte_of_setChan (c : Nat) (x : MpChan) (a' : Nat) : (b.setChan c x).byte a' = b.byte a' := rfl
@[simp] theorem Blk.eng_of_setChan (c : Nat) (x : MpChan) (q : Nat) : (b.setChan c x).eng q = b.eng q := rfl
@[simp] theorem Blk.anyHalted_of_setChan (c : Nat) (x : MpChan) : (b.setChan c x).anyHalted = b.anyHalted := rfl
@[simp] theorem Blk.task_of_setChan (c : Nat) (x : MpChan) (q u : Nat) : (b.setChan c x).task q u = b.task q u := rfl
@[simp] theorem Blk.pair_of_setChan (c : Nat) (x : MpChan) (q : Nat) : (b.setChan c x).pair q = b.pair q := rfl
@[simp] theorem Blk.bank_of_setChan (c : Nat) (x : MpChan) (q : Nat) : (b.setChan c x).bank q = b.bank q := rfl
@[simp] theorem Blk.reg_of_emit (o : OutEvent) (k' : Nat) : (b.emit o).reg k' = b.reg k' := rfl
@[simp] theorem Blk.rf_of_emit (o : OutEvent) (k' lo' n' : Nat) : (b.emit o).rf k' lo' n' = b.rf k' lo' n' := rfl
@[simp] theorem Blk.rb_of_emit (o : OutEvent) (k' i' : Nat) : (b.emit o).rb k' i' = b.rb k' i' := rfl
@[simp] theorem Blk.twin_of_emit (o : OutEvent) (q : Nat) : (b.emit o).twin q = b.twin q := rfl
@[simp] theorem Blk.broken_of_emit (o : OutEvent) (q : Nat) : (b.emit o).broken q = b.broken q := rfl
@[simp] theorem Blk.joined_of_emit (o : OutEvent) (q : Nat) : (b.emit o).joined q = b.joined q := rfl
@[simp] theorem Blk.lead_of_emit (o : OutEvent) (q : Nat) : (b.emit o).lead q = b.lead q := rfl
@[simp] theorem Blk.degraded_of_emit (o : OutEvent) : (b.emit o).degraded = b.degraded := rfl
@[simp] theorem Blk.anyRecovering_of_emit (o : OutEvent) : (b.emit o).anyRecovering = b.anyRecovering := rfl
@[simp] theorem Blk.byte_of_emit (o : OutEvent) (a' : Nat) : (b.emit o).byte a' = b.byte a' := rfl
@[simp] theorem Blk.eng_of_emit (o : OutEvent) (q : Nat) : (b.emit o).eng q = b.eng q := rfl
@[simp] theorem Blk.anyHalted_of_emit (o : OutEvent) : (b.emit o).anyHalted = b.anyHalted := rfl
@[simp] theorem Blk.task_of_emit (o : OutEvent) (q u : Nat) : (b.emit o).task q u = b.task q u := rfl
@[simp] theorem Blk.pair_of_emit (o : OutEvent) (q : Nat) : (b.emit o).pair q = b.pair q := rfl
@[simp] theorem Blk.bank_of_emit (o : OutEvent) (q : Nat) : (b.emit o).bank q = b.bank q := rfl
@[simp] theorem Blk.chan_of_emit (o : OutEvent) (q : Nat) : (b.emit o).chan q = b.chan q := rfl
@[simp] theorem Blk.reg_of_freeNext (k' : Nat) : (b.freeNext).reg k' = b.reg k' := rfl
@[simp] theorem Blk.rf_of_freeNext (k' lo' n' : Nat) : (b.freeNext).rf k' lo' n' = b.rf k' lo' n' := rfl
@[simp] theorem Blk.rb_of_freeNext (k' i' : Nat) : (b.freeNext).rb k' i' = b.rb k' i' := rfl
@[simp] theorem Blk.twin_of_freeNext (q : Nat) : (b.freeNext).twin q = b.twin q := rfl
@[simp] theorem Blk.broken_of_freeNext (q : Nat) : (b.freeNext).broken q = b.broken q := rfl
@[simp] theorem Blk.joined_of_freeNext (q : Nat) : (b.freeNext).joined q = b.joined q := rfl
@[simp] theorem Blk.lead_of_freeNext (q : Nat) : (b.freeNext).lead q = b.lead q := rfl
@[simp] theorem Blk.degraded_of_freeNext : (b.freeNext).degraded = b.degraded := rfl
@[simp] theorem Blk.anyRecovering_of_freeNext : (b.freeNext).anyRecovering = b.anyRecovering := rfl
@[simp] theorem Blk.byte_of_freeNext (a' : Nat) : (b.freeNext).byte a' = b.byte a' := rfl
@[simp] theorem Blk.eng_of_freeNext (q : Nat) : (b.freeNext).eng q = b.eng q := rfl
@[simp] theorem Blk.anyHalted_of_freeNext : (b.freeNext).anyHalted = b.anyHalted := rfl
@[simp] theorem Blk.task_of_freeNext (q u : Nat) : (b.freeNext).task q u = b.task q u := rfl
@[simp] theorem Blk.pair_of_freeNext (q : Nat) : (b.freeNext).pair q = b.pair q := rfl
@[simp] theorem Blk.bank_of_freeNext (q : Nat) : (b.freeNext).bank q = b.bank q := rfl
@[simp] theorem Blk.chan_of_freeNext (q : Nat) : (b.freeNext).chan q = b.chan q := rfl

end Sys2Proof.Machine
end

