-- ==== Sys2Proof/Laws/Issue.lean ====
section
/-! SUPPORT. What performance counting, the stacks, the PC and the switch point leave, and the law of one instruction with nothing
else due. -/
namespace Sys2Proof.Machine

/-! Counting writes registers of a set and draws free values, and nothing else. -/

/-- `b'` differs from `b` only in registers of the set `K` and in the free values' counter. -/
structure Blk.Counts (K : Nat → Bool) (b b' : Blk) : Prop where
  rest : b' = { b with regs := b'.regs, free := b'.free }
  regs : ∀ k, K k = false → b'.reg k = b.reg k

variable {K : Nat → Bool} {b b' b'' : Blk}

theorem Blk.Counts.refl (b : Blk) : b.Counts K b := ⟨rfl, fun _ _ => rfl⟩

theorem Blk.Counts.trans (h : b.Counts K b') (g : b'.Counts K b'') : b.Counts K b'' :=
  ⟨by rw [g.rest, h.rest], fun k hk => (g.regs k hk).trans (h.regs k hk)⟩

theorem Blk.Counts.setReg (h : b.Counts K b') (k : Nat) (v : Word) (hk : K k = true) : b.Counts K (b'.setReg k v) :=
  h.trans ⟨rfl, fun j hj => reg_setReg_ne _ _ (by rintro rfl; simp [hk] at hj)⟩

theorem Blk.Counts.freeNext (h : b.Counts K b') : b.Counts K b'.freeNext := h.trans ⟨rfl, fun _ _ => rfl⟩

theorem Blk.Counts.fold {α : Type} (f : Blk → α → Blk) (l : List α) (hf : ∀ b : Blk, ∀ a ∈ l, b.Counts K (f b a)) (b : Blk) :
    b.Counts K (l.foldl f b) := by
  induction l generalizing b with
  | nil => exact .refl b
  | cons a t ih => exact (hf b a (by simp)).trans (ih (fun b a ha => hf b a (by simp [ha])) (f b a))

/-! Fields and reads that counting leaves. -/

theorem Blk.Counts.tasks (h : b.Counts K b') : b'.tasks = b.tasks := by rw [h.rest]
theorem Blk.Counts.engines (h : b.Counts K b') : b'.engines = b.engines := by rw [h.rest]
theorem Blk.Counts.pairs (h : b.Counts K b') : b'.pairs = b.pairs := by rw [h.rest]
theorem Blk.Counts.task (h : b.Counts K b') (e t : Nat) : b'.task e t = b.task e t := by unfold Blk.task; rw [h.tasks]
theorem Blk.Counts.eng (h : b.Counts K b') (e : Nat) : b'.eng e = b.eng e := by unfold Blk.eng; rw [h.engines]
theorem Blk.Counts.pair (h : b.Counts K b') (p : Nat) : b'.pair p = b.pair p := by unfold Blk.pair; rw [h.pairs]

/-! Performance counting (R493, R494). -/

theorem isPm_cnt (e c : Nat) (h : c < 8) : isPm e (Reg.pmCnt e c) = true := by
  simp only [isPm, Bool.or_eq_true, List.any_eq_true, List.mem_range, beq_iff_eq]
  exact .inl (.inl ⟨c, h, rfl⟩)

theorem isPm_ovf (e : Nat) : isPm e (Reg.pmOvf e) = true := by simp [isPm]

theorem isPm_evt (e : Nat) : isPm e (regKey (0x20 + e) Reg.hEvtRaw) = true := by simp [isPm]

theorem Blk.pmOne_counts (b : Blk) (e pl sel amt c : Nat) (h : c < 8) : b.Counts (isPm e) (b.pmOne e pl sel amt c) := by
  unfold Blk.pmOne
  dsimp only
  split
  · unfold Blk.pmBump
    dsimp only
    split
    · exact (((Blk.Counts.refl b).setReg _ _ (isPm_cnt e c h)).setReg _ _ (isPm_ovf e)).setReg _ _ (isPm_evt e)
    · exact (Blk.Counts.refl b).setReg _ _ (isPm_cnt e c h)
  · exact .refl b

theorem Blk.pmEng_counts (b : Blk) (e pl sel amt : Nat) : b.Counts (isPm e) (b.pmEng e pl sel amt) := by
  unfold Blk.pmEng
  split
  · exact Blk.Counts.fold _ _ (fun b c hc => b.pmOne_counts e pl sel amt c (List.mem_range.1 hc)) b
  · exact .refl b

theorem Blk.Counts.mono {L : Nat → Bool} (h : b.Counts K b') (hk : ∀ k, K k = true → L k = true) : b.Counts L b' :=
  ⟨h.rest, fun k hl => h.regs k (by
    cases hh : K k
    · rfl
    · simp [hk k hh] at hl)⟩

theorem Blk.pm_counts (b : Blk) (l pl sel amt : Nat) : b.Counts (b.pmKey l) (b.pm l pl sel amt) := by
  unfold Blk.pm
  split
  · rename_i hj
    refine ((b.pmEng_counts l pl sel amt).mono ?_).trans ((Blk.pmEng_counts _ (l + 1) pl sel amt).mono ?_) <;>
      · intro k hk
        simp [Blk.pmKey, hj, hk]
  · exact (b.pmEng_counts l pl sel amt).mono fun k hk => by simp [Blk.pmKey, hk]

theorem Blk.pmFreeOne_counts (b : Blk) (u c : Nat) (h : c < 8) :
    b.Counts (isPm u) (b.pmFreeOne (Reg.pmCnt u c) (Reg.pmOvf u) c (0x20 + u) 0) := by
  unfold Blk.pmFreeOne
  dsimp only
  have h1 := ((Blk.Counts.refl b).setReg _ (b.freeVal.setWidth 32) (isPm_cnt u c h)).freeNext
  split
  · exact (h1.setReg _ _ (isPm_ovf u)).setReg _ _ (isPm_evt u)
  · exact h1

theorem Blk.pmFreeUnit_counts (b : Blk) (u : Nat) (hu : u < 16) : b.Counts (isPm u) (b.pmFreeUnit u) := by
  unfold Blk.pmFreeUnit
  rw [if_pos hu]
  split
  · refine Blk.Counts.fold _ _ (fun b c hc => ?_) b
    dsimp only
    split
    · exact b.pmFreeOne_counts u c (List.mem_range.1 hc)
    · exact .refl b
  · exact .refl b

/-- The timing counters of an engine, and of its partner where a pair runs as one. -/
theorem Blk.pmFree_counts (b : Blk) (l : Nat) (hl : l < 16) (hj : b.joined (l / 2) = true → l % 2 = 0) : b.Counts (b.pmKey l) (b.pmFree l) := by
  unfold Blk.pmFree
  split
  · rename_i hj'
    have := hj hj'
    refine ((b.pmFreeUnit_counts l (by omega)).mono ?_).trans ((Blk.pmFreeUnit_counts _ (l + 1) (by omega)).mono ?_) <;>
      · intro k hk
        simp [Blk.pmKey, hj', hk]
  · exact (b.pmFreeUnit_counts l (by omega)).mono fun k hk => by simp [Blk.pmKey, hk]

/-! What the quiet of an engine rests on is left by counting and by an update of the engine that keeps its region values. -/

theorem isPm_low (e k : Nat) (h : k < 0x20 * 0x4000) : isPm e k = false := by
  simp only [isPm, Bool.or_eq_false_iff, List.any_eq_false, beq_iff_eq, beq_eq_false_iff_ne, List.mem_range, regKey, Reg.pmCnt, Reg.pmOvf, Reg.hEvtRaw]
  refine ⟨⟨fun c hc => ?_, ?_⟩, ?_⟩ <;> omega

theorem isPm_high (e k : Nat) (he : e < 17) (h : 0x31 * 0x4000 ≤ k) : isPm e k = false := by
  simp only [isPm, Bool.or_eq_false_iff, List.any_eq_false, beq_iff_eq, beq_eq_false_iff_ne, List.mem_range, regKey, Reg.pmCnt, Reg.pmOvf, Reg.hEvtRaw]
  refine ⟨⟨fun c hc => ?_, ?_⟩, ?_⟩ <;> omega

theorem Blk.pmKey_low (b : Blk) (l k : Nat) (h : k < 0x20 * 0x4000) : b.pmKey l k = false := by
  simp [Blk.pmKey, isPm_low _ _ h]

theorem Blk.Counts.twin {l : Nat} (h : b.Counts (b''.pmKey l) b') (p : Nat) : b'.twin p = b.twin p := by
  unfold Blk.twin Blk.rb
  rw [h.regs _ (b''.pmKey_low _ _ (by decide))]

theorem Blk.Counts.joined {l : Nat} (h : b.Counts (b''.pmKey l) b') (p : Nat) : b'.joined p = b.joined p := by
  unfold Blk.joined Blk.broken Blk.rb
  rw [h.twin, h.regs _ (b''.pmKey_low _ _ (by decide))]

theorem Blk.joined_eq (h : b'.regs = b.regs) (p : Nat) : b'.joined p = b.joined p := by
  unfold Blk.joined Blk.broken Blk.twin Blk.rb Blk.reg
  rw [h]

theorem Blk.lead_eq (h : b'.regs = b.regs) (e : Nat) : b'.lead e = b.lead e := by
  unfold Blk.lead
  rw [Blk.joined_eq h]

/-! What governs a fetch: the engines' region values and what is no engine's. -/

theorem Blk.regionReg_engines (g : Tab Engine) (hg : ∀ j, ({ b with engines := g }.eng j).regOld = (b.eng j).regOld) (m k : Nat) :
    { b with engines := g }.regionReg m k = b.regionReg m k := by
  unfold Blk.regionReg
  rw [hg]
  rfl

theorem Blk.fetchExc_engines (g : Tab Engine) (hg : ∀ j, ({ b with engines := g }.eng j).regOld = (b.eng j).regOld) (m pl a : Nat) :
    { b with engines := g }.fetchExc m pl a = b.fetchExc m pl a := by
  simp only [Blk.fetchExc, Blk.admits, Blk.granted, Blk.regionGrants, Blk.regionReg_engines g hg]
  rfl

theorem Blk.fetchExcN_engines (g : Tab Engine) (hg : ∀ j, ({ b with engines := g }.eng j).regOld = (b.eng j).regOld) (m pl a n : Nat) :
    { b with engines := g }.fetchExcN m pl a n = b.fetchExcN m pl a n := by
  unfold Blk.fetchExcN
  simp only [Blk.fetchExc_engines g hg]

theorem Blk.fetchN_engines (g : Tab Engine) (hg : ∀ j, ({ b with engines := g }.eng j).regOld = (b.eng j).regOld) (m pl a n : Nat) :
    { b with engines := g }.fetchN m pl a n = b.fetchN m pl a n := by
  induction n generalizing a with
  | zero => rfl
  | succ n ih =>
    simp only [Blk.fetchN, Blk.fetchByte, Blk.fetchExc_engines g hg, ih]
    rfl

/-- Where no word waits for its correction, no word's condition is that. -/
theorem Blk.eccAt_sound (h : b.ecc.all (fun w => decide (w.2 ≠ 1)) = true) (a : Nat) : b.eccAt a ≠ 1 := by
  unfold Blk.eccAt
  generalize b.ecc = t at h ⊢
  induction t with
  | nil => exact (by decide : (0 : BitVec 2) ≠ 1)
  | cons x t ih =>
    simp only [List.all_cons, Bool.and_eq_true, decide_eq_true_eq] at h
    unfold Tab.get
    split
    · exact h.1
    · exact ih h.2

theorem Blk.fetchNotes_sound (h : b.ecc.all (fun w => decide (w.2 ≠ 1)) = true) (l pl a n : Nat) : b.fetchNotes l pl a n = b := by
  unfold Blk.fetchNotes
  split
  · rfl
  · generalize List.range n = is
    induction is with
    | nil => rfl
    | cons i is ih =>
      rw [List.foldl_cons, if_neg (fun c => b.eccAt_sound h _ c.2.1)]
      exact ih

/-! Only the executing task and engine `l` itself, with the counts, move. -/

/-- `b'` differs from `b` only in engine `l` and its executing task, in the counts of its pair and in counting registers. -/
structure Blk.Near (l : Nat) (b b' : Blk) : Prop where
  rest  : b' = { b with tasks := b'.tasks, engines := b'.engines, pairs := b'.pairs, regs := b'.regs, free := b'.free, stamp := b'.stamp }
  cur   : (b'.eng l).cur = (b.eng l).cur
  tasks : ∀ n, n ≠ l * 64 + (b.eng l).cur → Tab.get taskReset b'.tasks n = Tab.get taskReset b.tasks n
  engs  : ∀ j, j ≠ l → b'.eng j = b.eng j
  pairs : ∀ p, { b'.pair p with spc := 0, steps := 0 } = { b.pair p with spc := 0, steps := 0 }
  regs  : ∀ k, b.pmKey l k = false → b'.reg k = b.reg k

theorem Blk.Near.joined {l : Nat} (h : b.Near l b') (p : Nat) : b'.joined p = b.joined p := by
  unfold Blk.joined Blk.broken Blk.twin Blk.rb
  rw [h.regs _ (b.pmKey_low _ _ (by decide)), h.regs _ (b.pmKey_low _ _ (by decide))]

theorem Blk.Near.pmKey {l : Nat} (h : b.Near l b') (k : Nat) : b'.pmKey l k = b.pmKey l k := by
  unfold Blk.pmKey
  rw [h.joined]

theorem Blk.Near.refl (l : Nat) (b : Blk) : b.Near l b := ⟨rfl, rfl, fun _ _ => rfl, fun _ _ => rfl, fun _ => rfl, fun _ _ => rfl⟩

theorem Blk.Near.trans {l : Nat} (h : b.Near l b') (g : b'.Near l b'') : b.Near l b'' :=
  ⟨by rw [g.rest, h.rest], g.cur.trans h.cur, fun n hn => (g.tasks n (by rw [h.cur]; exact hn)).trans (h.tasks n hn),
   fun j hj => (g.engs j hj).trans (h.engs j hj), fun p => (g.pairs p).trans (h.pairs p),
   fun k hk => (g.regs k (by rw [h.pmKey]; exact hk)).trans (h.regs k hk)⟩

theorem Blk.Near.counts {l : Nat} (h : b.Counts (b.pmKey l) b') : b.Near l b' :=
  ⟨by conv => lhs; rw [h.rest]
      rw [h.tasks, h.engines, h.pairs, show b'.stamp = b.stamp by rw [h.rest]], by rw [h.eng], fun _ _ => by rw [h.tasks], fun j _ => h.eng j, fun p => by rw [h.pair], h.regs⟩

theorem Blk.Near.setEng (l : Nat) (b : Blk) (x : Engine) (hx : x.cur = (b.eng l).cur) : b.Near l (b.setEng l x) :=
  ⟨rfl, by simp [hx], fun _ _ => rfl, fun j hj => Blk.eng_setEng_ne b x (fun h => hj h.symm), fun _ => rfl, fun _ _ => rfl⟩

theorem Blk.Near.setTask (l : Nat) (b : Blk) (c : TaskCtx) : b.Near l (b.setTask l (b.eng l).cur c) :=
  ⟨rfl, rfl, fun _ hn => Tab.get_put_ne taskReset b.tasks c (fun h => hn h.symm), fun _ _ => rfl, fun _ => rfl, fun _ _ => rfl⟩

theorem Blk.Near.curTask_setTask (l t : Nat) (b : Blk) (c : TaskCtx) (ht : t = (b.eng l).cur) : (b.setTask l t c).curTask l = c := by
  subst ht
  simp [Blk.curTask]

/-- The level of execution follows the task's status word. -/
theorem Blk.pl_cur (b : Blk) (l : Nat) : b.pl l = fld (b.curTask l).tstat 0 2 := rfl

/-! A stack written back. -/

/-- A plan without spills or fills. -/
theorem Blk.plan_fits (b : Blk) (l t pl : Nat) (ret : Bool) (need made : Nat) (h : (b.stk l t pl ret).fits need made = true) :
    b.plan l t pl ret need made = .ok ⟨b.stk l t pl ret, [], 0⟩ := by
  simp only [Blk.plan]
  generalize b.stk l t pl ret = v at h ⊢
  simp only [StkView.fits, Bool.and_eq_true, decide_eq_true_eq] at h
  have h1 : need - v.cache.length = 0 := by omega
  have h2 : v.cache.length - need + made - v.depth = 0 := by omega
  simp only [h1, Blk.fillN, List.append_nil, h2, Blk.spillN, spillPtrs, List.range_zero, List.map_nil, List.findSome?_nil]

/-- Such a plan only replaces the operands by the results in the cache. -/
theorem Blk.putStack_fits (b : Blk) (l t pl : Nat) (v : StkView) (need : Nat) (out : List Entry128) :
    b.putStack l t pl ⟨v, [], 0⟩ need out = b.setStk l t { v with cache := out ++ v.cache.drop need } := by
  simp [Blk.putStack, Blk.doSpills, List.take_of_length_le]

/-- The engine after its stack of machine level is written back with its pointer kept. -/
theorem Blk.setStk_mach (b : Blk) (l t : Nat) (ret : Bool) (w : List Entry128) :
    b.setStk l t { b.stk l t 3 ret with cache := w } =
      b.setEng l (if ret then { b.eng l with mrs := w } else { b.eng l with mds := w }) := by
  cases ret <;> simp [Blk.setStk, Blk.stk]

theorem Blk.setStk_task (b : Blk) (l t pl : Nat) (h : pl ≠ 3) (ret : Bool) (w : List Entry128) :
    b.setStk l t { b.stk l t pl ret with cache := w } =
      b.setTask l t (if ret then { b.task l t with rs := w } else { b.task l t with ds := w }) := by
  cases ret <;> simp [Blk.setStk, Blk.stk, h]

/-- The stack in use, read off the executing task and the engine. -/
theorem Blk.stackOf_def (b : Blk) (l : Nat) (ret : Bool) :
    b.stackOf l ret =
      if fld (b.curTask l).tstat 0 2 = 3 then
        if ret then ⟨(b.eng l).mrs, (b.eng l).mstk.toNat + (b.eng l).mrsp.toNat, (b.eng l).mstk.toNat + 0x800, (b.eng l).mstk.toNat, 4, true, true⟩
        else ⟨(b.eng l).mds, (b.eng l).mstk.toNat + (b.eng l).mdsp.toNat, (b.eng l).mstk.toNat + 0x1000, (b.eng l).mstk.toNat + 0x800, 4, true, false⟩
      else
        if ret then ⟨(b.curTask l).rs, (b.curTask l).rsp.toNat, (b.curTask l).rsbase.toNat, (b.curTask l).rslim.toNat, 12, false, true⟩
        else ⟨(b.curTask l).ds, (b.curTask l).dsp.toNat, (b.curTask l).dsbase.toNat, (b.curTask l).dslim.toNat, 12, false, false⟩ := rfl

/-! Before the operation. -/

/-- `b1` is `b` as the operation of an instruction on engine `l` meets it: only what belongs to fetching and breakpoints differs. -/
structure Blk.Primed (l : Nat) (b b1 : Blk) : Prop where
  rest : b1 = { b with engines := b1.engines }
  engs : ∀ j, j ≠ l → b1.eng j = b.eng j
  eng  : (b1.eng l).bare = (b.eng l).bare

theorem Blk.Primed.refl (l : Nat) (b : Blk) : b.Primed l b := ⟨rfl, fun _ _ => rfl, rfl⟩

theorem Blk.Primed.setEng {l : Nat} (h : b.Primed l b') (x : Engine) (hx : x.bare = (b'.eng l).bare) : b.Primed l (b'.setEng l x) :=
  ⟨by rw [h.rest]; rfl, fun j hj => (Blk.eng_setEng_ne b' x (fun e => hj e.symm)).trans (h.engs j hj),
   by rw [Blk.eng_setEng, hx, h.eng]⟩

/-- A field that is no part of fetching is read off the bare record. -/
theorem Engine.bare_field {α : Type} (f : Engine → α) (hf : ∀ x, f x.bare = f x) {x y : Engine} (h : x.bare = y.bare) : f x = f y := by
  rw [← hf x, ← hf y, h]

theorem Blk.Primed.cur {l : Nat} (h : b.Primed l b') : (b'.eng l).cur = (b.eng l).cur := Engine.bare_field Engine.cur (fun _ => rfl) h.eng
theorem Blk.Primed.arith {l : Nat} (h : b.Primed l b') : (b'.eng l).arith = (b.eng l).arith := Engine.bare_field Engine.arith (fun _ => rfl) h.eng
theorem Blk.Primed.task {l : Nat} (h : b.Primed l b') (e t : Nat) : b'.task e t = b.task e t := by
  unfold Blk.task; rw [h.rest]
theorem Blk.Primed.curTask {l : Nat} (h : b.Primed l b') : b'.curTask l = b.curTask l := by
  unfold Blk.curTask; rw [h.task, h.cur]
theorem Blk.Primed.pl {l : Nat} (h : b.Primed l b') : b'.pl l = b.pl l := by
  rw [Blk.pl_cur, Blk.pl_cur, h.curTask]
theorem Blk.Primed.stackOf {l : Nat} (h : b.Primed l b') (r : Bool) : b'.stackOf l r = b.stackOf l r := by
  have e1 : (b'.eng l).mstk = (b.eng l).mstk := Engine.bare_field Engine.mstk (fun _ => rfl) h.eng
  have e2 : (b'.eng l).mds = (b.eng l).mds := Engine.bare_field Engine.mds (fun _ => rfl) h.eng
  have e3 : (b'.eng l).mrs = (b.eng l).mrs := Engine.bare_field Engine.mrs (fun _ => rfl) h.eng
  have e4 : (b'.eng l).mdsp = (b.eng l).mdsp := Engine.bare_field Engine.mdsp (fun _ => rfl) h.eng
  have e5 : (b'.eng l).mrsp = (b.eng l).mrsp := Engine.bare_field Engine.mrsp (fun _ => rfl) h.eng
  have e6 : b'.task l (b'.eng l).cur = b.task l (b.eng l).cur := h.curTask
  simp only [Blk.stackOf, Blk.stk, h.pl, e1, e2, e3, e4, e5, e6]
theorem Blk.Primed.regOld {l : Nat} (h : b.Primed l b') (j : Nat) : (b'.eng j).regOld = (b.eng j).regOld := by
  by_cases hj : j = l
  · subst hj; exact Engine.bare_field Engine.regOld (fun _ => rfl) h.eng
  · rw [h.engs j hj]
theorem Blk.Primed.fetchExcN {l : Nat} (h : b.Primed l b') (m pl a n : Nat) : b'.fetchExcN m pl a n = b.fetchExcN m pl a n := by
  have := Blk.fetchExcN_engines (b := b) b'.engines (fun j => h.regOld j) m pl a n
  rw [← this, ← h.rest]
theorem Blk.Primed.fetchN {l : Nat} (h : b.Primed l b') (m pl a n : Nat) : b'.fetchN m pl a n = b.fetchN m pl a n := by
  have := Blk.fetchN_engines (b := b) b'.engines (fun j => h.regOld j) m pl a n
  rw [← this, ← h.rest]
theorem Blk.Primed.ecc {l : Nat} (h : b.Primed l b') : b'.ecc = b.ecc := by rw [h.rest]
theorem Blk.Primed.bpHits {l : Nat} (h : b.Primed l b') (tys as : List Nat) : b'.bpHits l tys as = b.bpHits l tys as := by
  have e : b'.regs = b.regs := by rw [h.rest]
  have r : ∀ k, b'.reg k = b.reg k := fun k => by unfold Blk.reg; rw [e]
  have c : b'.cfgEng l = b.cfgEng l := by unfold Blk.cfgEng Blk.twin Blk.rb Blk.reg; rw [e]
  simp only [Blk.bpHits, Blk.pmAny, Blk.bpArmed, Blk.bpRange, Blk.rf, e, r, c, h.cur, h.pl]
  rfl
theorem Blk.Primed.mustPause {l : Nat} (h : b.Primed l b') (p : Nat) : b'.mustPause p = b.mustPause p := by
  rw [h.rest]; rfl
theorem Blk.Primed.near {l : Nat} (h : b.Primed l b') : b.Near l b' :=
  ⟨by rw [h.rest], h.cur, fun n _ => by rw [h.rest], h.engs, fun p => by unfold Blk.pair; rw [h.rest], fun k _ => by unfold Blk.reg; rw [h.rest]⟩

/-- The parts of `quiet`. -/
structure Blk.Quiet (b : Blk) (l len : Nat) : Prop where
  can   : b.canIssue l = true
  wait  : (b.eng l).waitM = none
  mid   : (b.eng l).mid = false
  bytes : b.spells l len = true
  sound : b.ecc.all (fun w => decide (w.2 ≠ 1)) = true
  arith : (b.eng l).arith = none
  req   : (b.eng l).haltReq = false
  step  : (b.eng l).stepping = false
  hit   : (b.eng l).bpHit = none
  stop  : (b.curTask l).req = none
  bp    : (b.eng l).bpSkip = true ∨ b.bpHits l [0] [(b.curTask l).pc.toNat] = []
  pause : b.mustPause (l / 2) = false
  fetch : b.fetchExcN l (b.pl l) (b.curTask l).pc.toNat len = none
  phase : (b.pair (l / 2)).phase = .live
  held  : (b.pair (l / 2)).heldIn = []
  mir   : b.mirrored (l / 2) = false

theorem Blk.quiet_parts {e len : Nat} (h : b.quiet e len = true) : b.Quiet (b.lead e) len := by
  simp only [Blk.quiet, Bool.and_eq_true, Bool.not_eq_true', decide_eq_true_eq, Option.isNone_iff_eq_none, Bool.or_eq_true,
    List.isEmpty_iff] at h
  obtain ⟨⟨⟨⟨⟨⟨⟨⟨⟨⟨⟨⟨⟨⟨⟨h1, h2⟩, g1⟩, g2⟩, g3⟩, h3⟩, h4⟩, h5⟩, h6⟩, h7⟩, h8⟩, h9⟩, h10⟩, h11⟩, h12⟩, h13⟩ := h
  exact ⟨h1, h2, g1, g2, g3, h3, h4, h5, h6, h7, h8, h9, h10, h11, h12, h13⟩

/-- The bytes in the buffer after it is filled are those that `spells` judges. -/
theorem Blk.fillBuf_quiet {l len : Nat} (h : b.Quiet l len) (hp : b.Primed l b') (h1 : (b'.eng l).fpc = (b.eng l).fpc)
    (h2 : (b'.eng l).fbuf = (b.eng l).fbuf) : b.Primed l (b'.fillBuf l len) ∧ (b'.fillBuf l len).badBytes l = false := by
  have hc : b'.task l (b'.eng l).cur = b.curTask l := hp.curTask
  have hb := h.bytes
  simp only [Blk.spells] at hb
  have judge : ∀ c, b.Primed l c → ∀ buf, (c.eng l).fbuf = buf →
      (place (b.curTask l).pc.toNat ≠ .scratch ∨ (encDecode buf).isSome = true ∨
        (b.fetchExcN l (b.pl l) (b.curTask l).pc.toNat 12).isSome = true) → c.badBytes l = false := by
    intro c hpc buf hbuf ho
    have hct : c.task l (c.eng l).cur = b.curTask l := hpc.curTask
    unfold Blk.badBytes
    simp only [hct, hpc.pl, hpc.fetchExcN, hbuf]
    obtain ho | ho | ho := ho
    · simp [ho]
    · obtain ⟨x, hx⟩ := Option.isSome_iff_exists.1 ho
      simp [hx]
    · obtain ⟨x, hx⟩ := Option.isSome_iff_exists.1 ho
      simp [hx]
  simp only [Bool.or_eq_true, decide_eq_true_eq, or_assoc] at hb
  unfold Blk.fillBuf
  simp only [hc, h1, h2, hp.fetchN, hp.pl]
  have ho : (if (b.eng l).fpc = (b.curTask l).pc.toNat then (b.eng l).fbuf else []) = (b.eng l).fbuf ∨
      (if (b.eng l).fpc = (b.curTask l).pc.toNat then (b.eng l).fbuf else []) = [] := by
    split <;> simp
  generalize (if (b.eng l).fpc = (b.curTask l).pc.toNat then (b.eng l).fbuf else []) = old at hb ho ⊢
  split
  · rename_i hn
    refine ⟨hp, judge b' hp _ h2 ?_⟩
    rw [hn] at hb
    obtain rfl | rfl := ho
    · simpa [Blk.fetchN] using hb
    · simp at hn
  · rw [Blk.fetchNotes_sound (by simpa [hp.ecc] using h.sound)]
    refine ⟨hp.setEng _ rfl, judge _ (hp.setEng _ rfl) _ (by rw [Blk.eng_setEng]) hb⟩

theorem Blk.payFetch_primed {l len : Nat} (h : b.Primed l b') :
    b.Primed l (b'.payFetch l len) ∧ ((b'.payFetch l len).eng l).fpc = (b'.eng l).fpc ∧ ((b'.payFetch l len).eng l).fbuf = (b'.eng l).fbuf := by
  unfold Blk.payFetch
  dsimp only
  split
  · exact ⟨h, rfl, rfl⟩
  · exact ⟨h.setEng _ rfl, by rw [Blk.eng_setEng], by rw [Blk.eng_setEng]⟩

/-- With nothing else due, an instruction passes every check before its operation. -/
theorem Blk.before_quiet {l len : Nat} (h : b.Quiet l len) (op : Op) (hop : op.len = len) (hp : b.Primed l b')
    (h1 : (b'.eng l).fpc = (b.eng l).fpc) (h2 : (b'.eng l).fbuf = (b.eng l).fbuf) (h3 : (b'.eng l).bpSkip = (b.eng l).bpSkip) :
    ∃ b1, b'.before l op = .ok b1 ∧ b.Primed l b1 ∧ b1.badBytes l = false := by
  have hc : b'.task l (b'.eng l).cur = b.curTask l := hp.curTask
  have hits : (if (b'.eng l).bpSkip = true then [] else b'.bpHits l [0] [(b'.task l (b'.eng l).cur).pc.toNat]) = [] := by
    rw [h3, hc, hp.bpHits]
    obtain h4 | h4 := h.bp <;> simp [h4]
  obtain ⟨b1, hb1, hp1, f1, g1⟩ : ∃ b1, (if (b'.eng l).bpSkip = true then b'.setEng l { b'.eng l with bpSkip := false } else b') = b1 ∧
      b.Primed l b1 ∧ (b1.eng l).fpc = (b.eng l).fpc ∧ (b1.eng l).fbuf = (b.eng l).fbuf := by
    split
    · exact ⟨_, rfl, hp.setEng _ rfl, by rw [Blk.eng_setEng]; exact h1, by rw [Blk.eng_setEng]; exact h2⟩
    · exact ⟨_, rfl, hp, h1, h2⟩
  have hm : b1.mustPause (l / 2) = false := by rw [hp1.mustPause]; exact h.pause
  unfold Blk.before
  simp only [hits, List.filter_nil, List.foldl_nil, hb1, hm]
  have ha : (b1.eng l).arith = none := hp1.arith.trans h.arith
  have hf : b1.fetchExcN l (b1.pl l) (b1.task l (b1.eng l).cur).pc.toNat len = none := by
    rw [hp1.fetchExcN, hp1.pl, show b1.task l (b1.eng l).cur = b.curTask l from hp1.curTask]; exact h.fetch
  obtain ⟨b2, hb2, hp2, f2, g2⟩ : ∃ b2, (if (b1.eng l).vecFetch.isSome = true then b1.setEng l { b1.eng l with vecFetch := none } else b1) = b2 ∧
      b.Primed l b2 ∧ (b2.eng l).fpc = (b.eng l).fpc ∧ (b2.eng l).fbuf = (b.eng l).fbuf := by
    split
    · exact ⟨_, rfl, hp1.setEng _ rfl, by rw [Blk.eng_setEng]; exact f1, by rw [Blk.eng_setEng]; exact g1⟩
    · exact ⟨_, rfl, hp1, f1, g1⟩
  obtain ⟨hp3, f3, g3⟩ := Blk.payFetch_primed (len := len) hp2
  obtain ⟨hp4, hbad⟩ := Blk.fillBuf_quiet h hp3 (f3.trans f2) (g3.trans g2)
  refine ⟨_, ?_, hp4, hbad⟩
  unfold Blk.beforeFetch
  simp only [ha, hop, hf, Bool.false_eq_true, if_false]
  rw [← hb2]
  simp only [ha]

/-- With nothing else due, an instruction issues. -/
theorem Blk.begin_quiet {l len : Nat} (h : b.Quiet l len) (op : Op) (hop : op.len = len) :
    ∃ b1, b.begin l op = .ok b1 ∧ b.Primed l b1 ∧ b1.badBytes l = false := by
  unfold Blk.begin
  rw [if_neg (by simp [h.mid])]
  split
  · exact Blk.before_quiet h op hop (.refl l b) rfl rfl rfl
  · exact Blk.before_quiet h op hop ((Blk.Primed.refl l b).setEng _ rfl) (by rw [Blk.eng_setEng]) (by rw [Blk.eng_setEng])
      (by rw [Blk.eng_setEng])

theorem Blk.holdArea_primed {l : Nat} (h : b.Primed l b') : b.Primed l (b'.holdArea l) := by
  unfold Blk.holdArea
  split
  · exact h
  · exact h.setEng _ rfl

theorem Blk.holdArea_bad {l : Nat} (h : b.Primed l b') (hb : b'.badBytes l = false) : (b'.holdArea l).badBytes l = false := by
  unfold Blk.holdArea
  split
  · exact hb
  · have hq : b'.Primed l (b'.setEng l { b'.eng l with area := some (b'.eng l).mstk.toNat }) := (Blk.Primed.refl l b').setEng _ rfl
    unfold Blk.badBytes at hb ⊢
    rw [show ∀ c : Blk, (c.task l (c.eng l).cur) = c.curTask l from fun _ => rfl] at hb ⊢
    simp only [hq.curTask, hq.pl, hq.fetchExcN, Blk.eng_setEng]
    exact hb

/-- Adders that an instruction meets change only its engine's counts. -/
theorem Blk.pay_primed {l : Nat} (h : b.Primed l b') (r u : Nat) : b.Primed l (b'.pay l r u) := by
  unfold Blk.pay
  dsimp only
  split
  · exact h
  · exact h.setEng _ rfl

/-! After the operation. -/

/-- What an operation does last writes only the vector and predicate registers of the executing task, if anything. -/
structure Blk.LastTo (l : Nat) (v : Tab Entry128) (p : Tab (BitVec 16)) (b b' : Blk) : Prop where
  near : b.Near l b'
  task : b'.curTask l = { b.curTask l with v := v, p := p }
  eng  : b'.eng l = b.eng l
  pair : b'.pairs = b.pairs

/-- The data stack written back, as the reads see it. -/
theorem Blk.setData_reads (b b' : Blk) (l : Nat) (w : List Entry128)
    (hb : b' = b.setStk l (b.eng l).cur { b.stackOf l false with cache := w }) :
    b.Near l b' ∧ b'.curTask l = (if b.pl l = 3 then b.curTask l else { b.curTask l with ds := w }) ∧
    b'.eng l = (if b.pl l = 3 then { b.eng l with mds := w } else b.eng l) := by
  subst hb
  by_cases h : b.pl l = 3
  · have e := b.setStk_mach l (b.eng l).cur false w
    simp only [Blk.stackOf, h, e]
    exact ⟨.setEng l b _ rfl, by simp [Blk.curTask], by simp⟩
  · have e := b.setStk_task l (b.eng l).cur (b.pl l) h false w
    simp only [Blk.stackOf, h, e]
    exact ⟨.setTask l b _, by simp [Blk.curTask], by simp⟩

/-- The return stack written back, as the reads see it. -/
theorem Blk.setRet_reads (b b' : Blk) (l : Nat) (w : List Entry128)
    (hb : b' = b.setStk l (b.eng l).cur { b.stackOf l true with cache := w }) :
    b.Near l b' ∧ b'.curTask l = (if b.pl l = 3 then b.curTask l else { b.curTask l with rs := w }) ∧
    b'.eng l = (if b.pl l = 3 then { b.eng l with mrs := w } else b.eng l) := by
  subst hb
  by_cases h : b.pl l = 3
  · have e := b.setStk_mach l (b.eng l).cur true w
    simp only [Blk.stackOf, h, e]
    exact ⟨.setEng l b _ rfl, by simp [Blk.curTask], by simp⟩
  · have e := b.setStk_task l (b.eng l).cur (b.pl l) h true w
    simp only [Blk.stackOf, h, e]
    exact ⟨.setTask l b _, by simp [Blk.curTask], by simp⟩

/-- Both stacks written back in turn. -/
theorem Blk.setBoth_reads (b b' : Blk) (l : Nat) (ds rs : List Entry128)
    (hb : b' = (b.setStk l (b.eng l).cur { b.stackOf l false with cache := ds }).setStk l (b.eng l).cur
      { b.stackOf l true with cache := rs }) :
    b.Near l b' ∧ b'.curTask l = (if b.pl l = 3 then b.curTask l else { b.curTask l with ds := ds, rs := rs }) ∧
    b'.eng l = (if b.pl l = 3 then { b.eng l with mds := ds, mrs := rs } else b.eng l) := by
  obtain ⟨c, hc⟩ : ∃ c, c = b.setStk l (b.eng l).cur { b.stackOf l false with cache := ds } := ⟨_, rfl⟩
  obtain ⟨n, t, e⟩ := b.setData_reads c l ds hc
  have s : c.stackOf l true = b.stackOf l true := by
    simp only [Blk.stackOf_def, t, e, Blk.pl_cur]
    by_cases h : fld (b.curTask l).tstat 0 2 = 3 <;> simp [h]
  rw [← hc, ← s, ← n.cur] at hb
  obtain ⟨n', t', e'⟩ := c.setRet_reads b' l rs hb
  have p : c.pl l = b.pl l := by
    rw [Blk.pl_cur, Blk.pl_cur, t]
    split <;> rfl
  refine ⟨n.trans n', ?_, ?_⟩
  · rw [t', t, p]
    split <;> rfl
  · rw [e', e, p]
    split <;> rfl

/-- Nothing falls due at the switch point of a quiet engine. -/
theorem Blk.atPoint_quiet (b : Blk) (l : Nat) (hp : (b.pair (l / 2)).phase = .live) (hh : (b.pair (l / 2)).heldIn = [])
    (hm : b.mirrored (l / 2) = false) (h1 : (b.eng l).bpHit = none) (h2 : (b.eng l).haltReq = false) (h3 : (b.eng l).stepping = false)
    (h4 : (b.curTask l).req = none) : b.atPoint l = b := by
  have r : b.replayIn (l / 2) 8 = b := by
    unfold Blk.replayIn
    dsimp only
    split
    · rfl
    · simp [Blk.inputDue, hp]
  have t : b.takeHeld l = b := by simp [Blk.takeHeld, Blk.applyHeld, hh]
  have c : b.lagCheck (l / 2) = b := by simp [Blk.lagCheck, hm]
  have h4' : (b.task l (b.eng l).cur).req = none := h4
  unfold Blk.atPoint
  simp [r, t, c, h1, h2, h3, Blk.settle, h4']

/-- The switch-point count of the pair moves on. -/
theorem Blk.tickSpc_near (b : Blk) (l n : Nat) (hm : b.mirrored (l / 2) = false) :
    b.Near l (b.tickSpc l n) ∧ (b.tickSpc l n).tasks = b.tasks ∧ (b.tickSpc l n).engines = b.engines := by
  unfold Blk.tickSpc
  split
  · simp only [hm, Bool.false_and, Bool.false_eq_true, if_false]
    refine ⟨⟨rfl, rfl, fun _ _ => rfl, fun _ _ => rfl, fun p => ?_, fun _ _ => rfl⟩, rfl, rfl⟩
    by_cases h : l / 2 = p
    · subst h
      simp
    · rw [Blk.pair_setPair_ne _ _ h]
  · exact ⟨.refl l b, rfl, rfl⟩

theorem Blk.Near.field {l : Nat} (h : b.Near l b') {α : Type} (f : Pair → α) (hf : ∀ x : Pair, f { x with spc := 0, steps := 0 } = f x)
    (p : Nat) : f (b'.pair p) = f (b.pair p) := by
  rw [← hf (b'.pair p), ← hf (b.pair p), h.pairs]

theorem Blk.Near.mirrored {l : Nat} (h : b.Near l b') (p : Nat) : b'.mirrored p = b.mirrored p := by
  have e : b'.sys = b.sys := by rw [h.rest]
  have j : (b'.pair p).join = (b.pair p).join := h.field Pair.join (fun _ => rfl) p
  have r : ∀ k, k < 0x20 * 0x4000 → b'.reg k = b.reg k := fun k hk => h.regs _ (b.pmKey_low _ _ hk)
  have n : b'.mirName = b.mirName := by
    funext q
    unfold Blk.mirName Blk.rb Blk.rf
    rw [r _ (by decide), r _ (by decide)]
  have m : b'.mirHome = b.mirHome := by
    funext q
    unfold Blk.mirHome Blk.rb Blk.rf
    rw [r _ (by decide), r _ (by decide)]
  unfold Blk.mirrored Blk.mirPair Blk.rb
  rw [r _ (by decide), h.joined, e, j, n, m]

/-- The PC moves, and the fetch buffer with it. -/
theorem Blk.movePc_reads (b : Blk) (l len : Nat) (pc : Option Nat) (hs : b.ecc.all (fun w => decide (w.2 ≠ 1)) = true) :
    b.Near l (b.movePc l len pc) ∧ (b.movePc l len pc).pairs = b.pairs ∧
    (b.movePc l len pc).curTask l = { b.curTask l with pc := pcAfter (b.curTask l).pc len pc } ∧
    ((b.movePc l len pc).eng l).bare = (b.eng l).bare := by
  have nt : ∀ c, b.Near l (b.setTask l (b.eng l).cur c) := fun c => .setTask l b c
  cases pc with
  | some a =>
    simp only [Blk.movePc, Blk.refetch]
    rw [Blk.fetchNotes_sound (by exact hs)]
    refine ⟨(nt _).trans (.setEng l _ _ rfl), rfl, by simp [Blk.curTask, pcAfter], by simp [Engine.bare]⟩
  | none =>
    simp only [Blk.movePc]
    refine ⟨(nt _).trans (.setEng l _ _ rfl), rfl, by simp [Blk.curTask, pcAfter], by simp [Engine.bare]⟩

/-- `b'` is `b` after counting: what moves is near, no task is touched, and of engine `l` only counts are. -/
structure Blk.Counted (l : Nat) (b b' : Blk) : Prop where
  near  : b.Near l b'
  tasks : b'.tasks = b.tasks
  eng   : (b'.eng l).bare = (b.eng l).bare

theorem Blk.Counted.refl (l : Nat) (b : Blk) : b.Counted l b := ⟨.refl l b, rfl, rfl⟩

theorem Blk.Counted.trans {l : Nat} (h : b.Counted l b') (g : b'.Counted l b'') : b.Counted l b'' :=
  ⟨h.near.trans g.near, g.tasks.trans h.tasks, g.eng.trans h.eng⟩

theorem Blk.Counted.counts {l : Nat} (h : b.Counts (b.pmKey l) b') : b.Counted l b' := ⟨.counts h, h.tasks, by rw [h.eng]⟩

theorem Blk.Counted.setEng (l : Nat) (b : Blk) (x : Engine) (hx : x.bare = (b.eng l).bare) : b.Counted l (b.setEng l x) :=
  ⟨.setEng l b x (Engine.bare_field Engine.cur (fun _ => rfl) hx), rfl, by rw [Blk.eng_setEng, hx]⟩

theorem Blk.Counted.curTask {l : Nat} (h : b.Counted l b') : b'.curTask l = b.curTask l := by
  unfold Blk.curTask Blk.task
  rw [h.tasks, Engine.bare_field Engine.cur (fun _ => rfl) h.eng]

theorem Blk.paid_counted (b : Blk) (l pl : Nat) : b.Counted l (b.paid l pl) := by
  unfold Blk.paid
  dsimp only
  split
  · exact .refl l b
  · split
    · exact .setEng l b _ rfl
    · exact (Blk.Counted.counts (b.pm_counts l pl 0x04 _)).trans (.setEng l _ _ rfl)

theorem Blk.stepOn_counted (b : Blk) (l : Nat) : b.Counted l (b.stepOn l) := by
  have h := Blk.Counted.setEng l b { b.eng l with now := b.stamp + 1 } rfl
  exact ⟨⟨by unfold Blk.stepOn; rfl, h.near.cur, h.near.tasks, h.near.engs, h.near.pairs, h.near.regs⟩, h.tasks, h.eng⟩

/-- Counting an instruction's issue, its steps and its events moves only counts. -/
theorem Blk.counted_reads (b : Blk) (l : Nat) (op : Op) (pl : Nat) (pending : Bool) (ha : (b.eng l).arith = none)
    (hm : b.mirrored (l / 2) = false) (hl : l < 16) (hj : b.joined (l / 2) = true → l % 2 = 0) :
    b.Counted l (b.counted l op pl pending) := by
  unfold Blk.counted Blk.countBase
  simp only [ha]
  generalize op.steps _ + _ = n
  obtain ⟨n1, t1, e1⟩ := b.tickSpc_near l n hm
  have h1 : b.Counted l (b.tickSpc l n) := ⟨n1, t1, by unfold Blk.eng; rw [e1]⟩
  have h2 := ((h1.trans (Blk.paid_counted _ l pl)).trans (Blk.stepOn_counted _ l)).trans (.counts (Blk.pm_counts _ l pl 0x02 1))
  have fin : ∀ c : Blk, b.Counted l c → b.Counted l (c.pmFree l) := fun c hc =>
    hc.trans (.counts (c.pmFree_counts l hl (by rw [hc.near.joined]; exact hj)))
  split
  · exact fin _ (h2.trans (.counts (Blk.pm_counts _ l pl 0x0C 1)))
  · exact fin _ h2

theorem Blk.pmKey_trc (b : Blk) (l : Nat) (hl : l < 16) : b.pmKey l Reg.trcCtrl = false := by
  simp only [Blk.pmKey, isPm_high l _ (by omega) (by decide : 0x31 * 0x4000 ≤ Reg.trcCtrl),
    isPm_high (l + 1) _ (by omega) (by decide : 0x31 * 0x4000 ≤ Reg.trcCtrl), Bool.and_false, Bool.or_false]

/-- A taken branch with tracing off is only counted. -/
theorem Blk.noteFlow_reads (b : Blk) (l : Nat) (op : Op) (pl : Nat) (pc : Option Nat) (hl : l < 16) (ht : pc.isSome = true → b.rb Reg.trcCtrl 0 = false) :
    b.Counted l (b.noteFlow l op pl pc) := by
  cases pc with
  | none => exact .refl l b
  | some a =>
    simp only [Blk.noteFlow]
    split
    · exact .refl l b
    · have hc := b.pm_counts l pl 0x0D 1
      have : (b.pm l pl 0x0D 1).rb Reg.trcCtrl 0 = false := by
        have h0 := ht rfl
        unfold Blk.rb at h0 ⊢
        rw [hc.regs _ (b.pmKey_trc l hl)]
        exact h0
      simp only [Blk.trace, this]
      exact .counts hc

theorem Blk.curTask_eq {l : Nat} (ht : b'.tasks = b.tasks) (he : b'.engines = b.engines) : b'.curTask l = b.curTask l := by
  unfold Blk.curTask Blk.task Blk.eng
  rw [ht, he]

theorem Blk.eng_eq {l : Nat} (he : b'.engines = b.engines) : b'.eng l = b.eng l := by
  unfold Blk.eng
  rw [he]

/-- **One instruction with nothing else due.** Its operation answers results for both stacks, conditions whose traps are not enabled,
a next PC or none, and vector and predicate registers; nothing else changes. -/
theorem Blk.issue_quiet (b : Blk) (e : Nat) (op : Op) (act : Blk → Nat → List Entry128 → List Entry128 → Res)
    (len : Nat) (hq : b.quiet e len = true) (hlen : op.len = len) (hill : op.illegal = false) (hpl : op.minPl ≤ b.pl (b.lead e))
    (hlatch : op.latch = false) (hret : op.sysRet = false)
    (hd : (b.stackOf (b.lead e) false).fits op.din op.dout = true) (hr : (b.stackOf (b.lead e) true).fits op.rin op.rout = true)
    (ds rs : List Entry128) (pc : Option Nat) (conds : BitVec 6) (last : Blk → Blk) (v : Tab Entry128) (p : Tab (BitVec 16))
    (hact : ∀ b1, b.Primed (b.lead e) b1 →
      act b1 (b.lead e) ((b.stackOf (b.lead e) false).cache.take op.din) ((b.stackOf (b.lead e) true).cache.take op.rin) =
        .done b1 ds rs pc conds none last)
    (hlast : ∀ b2, (b2.curTask (b.lead e)).v = (b.curTask (b.lead e)).v → (b2.curTask (b.lead e)).p = (b.curTask (b.lead e)).p →
      Blk.LastTo (b.lead e) v p b2 (last b2))
    (hen : enabledConds (b.curTask (b.lead e)).astat conds = 0) (hpc : ∀ a, pc = some a → a < 2 ^ 32)
    (htrc : pc.isSome = true → b.rb Reg.trcCtrl 0 = false) :
    b.Ran (b.issue e op act) e
      { b.curTask (b.lead e) with
        astat := setFlags (b.curTask (b.lead e)).astat conds, v := v, p := p, pc := pcAfter (b.curTask (b.lead e)).pc len pc }
      (ds ++ (b.stackOf (b.lead e) false).cache.drop op.din) (rs ++ (b.stackOf (b.lead e) true).cache.drop op.rin) := by
  have Q := b.quiet_parts hq
  generalize hl : b.lead e = l at *
  obtain ⟨b0, hb0, hp0, bad0⟩ := b.begin_quiet Q op hlen
  have hp1 := Blk.holdArea_primed hp0
  have bad1 := Blk.holdArea_bad hp0 bad0
  generalize hb1 : b0.holdArea l = b1 at hp1 bad1
  have hrun : b.mayRun l = true := by
    have := Q.can
    simp only [Blk.canIssue, Bool.and_eq_true] at this
    exact this.1.1.1.1
  have hl16 : l < 16 := by
    simp only [Blk.mayRun, Bool.and_eq_true, decide_eq_true_eq] at hrun
    exact hrun.1.1.1.1.1.1.1.1
  have heven : b.joined (l / 2) = true → l % 2 = 0 := by
    intro hj
    unfold Blk.lead at hl
    split at hl
    · omega
    · rename_i hn; rw [show e / 2 = l / 2 by rw [hl]] at hn; exact absurd hj hn
  have hmir1 : b1.mirrored (l / 2) = false := (hp1.near.mirrored _).trans Q.mir
  -- the operation
  obtain ⟨bp, hbp, hpp⟩ : ∃ bp, b1.payOn l (StkPlan.parts ⟨b1.stk l (b1.eng l).cur (b1.pl l) false, [], 0⟩ ++
      StkPlan.parts ⟨b1.stk l (b1.eng l).cur (b1.pl l) true, [], 0⟩) = bp ∧ b.Primed l bp := ⟨_, rfl, Blk.pay_primed hp1 _ _⟩
  have s1 : ∀ r, b1.stk l (b1.eng l).cur (b1.pl l) r = bp.stackOf l r := fun r => by
    rw [hpp.stackOf, ← hp1.stackOf]
    rfl
  have hrun : b1.runOp l op act =
      bp.finish l op ⟨bp.stackOf l false, [], 0⟩ ⟨bp.stackOf l true, [], 0⟩ ds rs pc conds none last := by
    have hd1 : (b1.stk l (b1.eng l).cur (b1.pl l) false).fits op.din op.dout = true := by
      rw [s1, hpp.stackOf]; exact hd
    have hr1 : (b1.stk l (b1.eng l).cur (b1.pl l) true).fits op.rin op.rout = true := by
      rw [s1, hpp.stackOf]; exact hr
    have ha := hact bp hpp
    rw [← hpp.stackOf, ← hpp.stackOf, ← s1, ← s1] at ha
    have hb : badTarget pc = false := by
      cases pc with
      | none => rfl
      | some a =>
        have := hpc a rfl
        simp only [badTarget, decide_eq_false_iff_not]
        omega
    have hm : ¬ b1.pl l < op.minPl := by rw [hp1.pl]; omega
    unfold Blk.runOp
    simp only [hill, bad1, Bool.or_self, Bool.false_eq_true, if_false, hm, Blk.plan_fits _ _ _ _ _ _ _ hd1, Blk.plan_fits _ _ _ _ _ _ _ hr1,
      List.append_nil, List.any_nil, hbp, ha, hb, Bool.false_and]
    rw [s1, s1]
  -- the flags and the stacks
  obtain ⟨b2, hb2, n2, c2, e2⟩ : ∃ b2, (if conds = 0 then bp else bp.setTask l (bp.eng l).cur
        { bp.task l (bp.eng l).cur with astat := setFlags (bp.task l (bp.eng l).cur).astat conds }) = b2 ∧ bp.Near l b2 ∧
        b2.curTask l = { bp.curTask l with astat := setFlags (bp.curTask l).astat conds } ∧ b2.eng l = bp.eng l := by
    by_cases h : conds = 0
    · refine ⟨bp, if_pos h, .refl l bp, ?_, rfl⟩
      subst h
      simp [setFlags]
    · exact ⟨_, if_neg h, .setTask l bp _, by simp [Blk.curTask], rfl⟩
  have s2 : ∀ r, b2.stackOf l r = bp.stackOf l r := fun r => by
    simp only [Blk.stackOf_def, c2, e2]
  obtain ⟨b4, hb4⟩ : ∃ b4, b4 = (b2.setStk l (b2.eng l).cur { b2.stackOf l false with cache := ds ++ (b.stackOf l false).cache.drop op.din }).setStk
      l (b2.eng l).cur { b2.stackOf l true with cache := rs ++ (b.stackOf l true).cache.drop op.rin } := ⟨_, rfl⟩
  obtain ⟨n4, c4, e4⟩ := b2.setBoth_reads b4 l _ _ hb4
  have hfin : b1.runOp l op act = .fin (last b4) pc none := by
    rw [hrun]
    have hen1 : enabledConds (bp.task l (bp.eng l).cur).astat conds = 0 := by
      have : bp.task l (bp.eng l).cur = b.curTask l := hpp.curTask
      rw [this]; exact hen
    unfold Blk.finish
    simp only [hen1, ne_eq, not_true_eq_false, false_and, if_false, if_true, Blk.putStack_fits, hb2]
    rw [hb4, s2, s2, e2, hpp.stackOf, hpp.stackOf]
  have p2 : b2.pl l = b.pl l := by rw [Blk.pl_cur, c2, Blk.pl_cur, hpp.curTask]
  rw [p2, c2, hpp.curTask] at c4
  rw [p2, e2] at e4
  have v4 : (b4.curTask l).v = (b.curTask l).v ∧ (b4.curTask l).p = (b.curTask l).p := by
    rw [c4]
    split <;> exact ⟨rfl, rfl⟩
  have hlst := hlast b4 v4.1 v4.2
  generalize hb5 : last b4 = b5 at hlst
  have n5 : b.Near l b5 := ((hpp.near.trans n2).trans n4).trans hlst.near
  have c5 : b5.curTask l = if b.pl l = 3 then { b.curTask l with astat := setFlags (b.curTask l).astat conds, v := v, p := p }
      else { b.curTask l with astat := setFlags (b.curTask l).astat conds, v := v, p := p, ds := ds ++ (b.stackOf l false).cache.drop op.din, rs := rs ++ (b.stackOf l true).cache.drop op.rin } := by
    rw [hlst.task, c4]
    split <;> rfl
  have e5 : (b5.eng l).bare = if b.pl l = 3 then { (b.eng l).bare with mds := ds ++ (b.stackOf l false).cache.drop op.din, mrs := rs ++ (b.stackOf l true).cache.drop op.rin } else (b.eng l).bare := by
    rw [hlst.eng, e4]
    split
    · rw [← hpp.eng]; rfl
    · exact hpp.eng
  have a5 : (b5.eng l).arith = none := by
    have h : (b5.eng l).bare.arith = none := by
      rw [e5]
      split <;> exact Q.arith
    exact h
  have m5 : b5.mirrored (l / 2) = false := (n5.mirrored _).trans Q.mir
  -- retiring
  have hissue : b.issue e op act = b5.retire l op (b1.pl l) (b1.eng l).arith.isSome pc none := by
    unfold Blk.issue
    simp only [hl, Q.can, Q.wait, Option.isNone_none, Bool.and_true, if_true, hb0, hb1, hfin, hb5]
  have h56 := b5.counted_reads l op (b1.pl l) (b1.eng l).arith.isSome a5 m5 hl16 (by rw [n5.joined]; exact heven)
  generalize hb6 : b5.counted l op (b1.pl l) (b1.eng l).arith.isSome = b6 at h56
  have n06 := n5.trans h56.near
  have ht6 : pc.isSome = true → b6.rb Reg.trcCtrl 0 = false := by
    intro h
    have h0 := htrc h
    unfold Blk.rb at h0 ⊢
    rw [n06.regs _ (b.pmKey_trc l hl16)]
    exact h0
  have h57 := h56.trans (b6.noteFlow_reads l op (b1.pl l) pc hl16 ht6)
  generalize hb7 : b6.noteFlow l op (b1.pl l) pc = b7 at h57
  have n07 := n5.trans h57.near
  obtain ⟨n8, -, c8, e8⟩ := b7.movePc_reads l op.len pc (by rw [show b7.ecc = b.ecc by rw [n07.rest]]; exact Q.sound)
  have hnext : b7.nextPc l op pc = b7.movePc l op.len pc := by
    unfold Blk.nextPc
    cases pc with
    | none => rfl
    | some a =>
      have : ¬ 2 ^ 32 ≤ a := by have := hpc a rfl; omega
      simp only [this, if_false, hret, Bool.false_eq_true]
  generalize hb8 : b7.movePc l op.len pc = b8 at n8 c8 e8 hnext
  obtain ⟨b9, hb9, n9, c9, e9⟩ : ∃ b9, (if (b8.eng l).bpSkip = true then b8.setEng l { b8.eng l with bpSkip := false } else b8) = b9 ∧
      b8.Near l b9 ∧ b9.curTask l = b8.curTask l ∧ (b9.eng l).bare = (b8.eng l).bare := by
    split
    · exact ⟨_, rfl, .setEng l b8 _ rfl, by simp [Blk.curTask, pcAfter], by simp [Engine.bare]⟩
    · exact ⟨_, rfl, .refl l b8, rfl, rfl⟩
  have c7 : b7.curTask l = b5.curTask l := h57.curTask
  have E9 : (b9.eng l).bare = (b5.eng l).bare := by rw [e9, e8, h57.eng]
  have C9 : b9.curTask l = { b5.curTask l with pc := pcAfter (b5.curTask l).pc op.len pc } := by rw [c9, c8, c7]
  have N9 : b.Near l b9 := (n07.trans n8).trans n9
  have F9 : ∀ {α : Type} (f : Engine → α), (∀ x, f x.bare = f x) → (∀ x u w, f { x with mds := u, mrs := w } = f x) → f (b9.eng l) = f (b.eng l) := by
    intro α f hf hm
    rw [← hf (b9.eng l), E9, e5, ← hf (b.eng l)]
    split
    · exact hm _ _ _
    · rfl
  have hpoint : b9.atPoint l = b9 := by
    refine b9.atPoint_quiet l ?_ ?_ ((N9.mirrored _).trans Q.mir) ?_ ?_ ?_ ?_
    · rw [N9.field Pair.phase fun _ => rfl]; exact Q.phase
    · rw [N9.field Pair.heldIn fun _ => rfl]; exact Q.held
    · rw [F9 Engine.bpHit (fun _ => rfl) fun _ _ _ => rfl]; exact Q.hit
    · rw [F9 Engine.haltReq (fun _ => rfl) fun _ _ _ => rfl]; exact Q.req
    · rw [F9 Engine.stepping (fun _ => rfl) fun _ _ _ => rfl]; exact Q.step
    · rw [C9, c5]
      split <;> exact Q.stop
  have hfinal : b.issue e op act = b9 := by
    rw [hissue]
    unfold Blk.retire
    simp only [hb6, hlatch, Bool.false_and, Bool.false_eq_true, if_false, hb7, hnext, hb9, hpoint]
  rw [hfinal]
  refine ⟨N9.rest, ?_, ?_, ?_, ?_, N9.pairs, ?_⟩
  · rw [hl]
    have : b9.task l (b.eng l).cur = b9.curTask l := by rw [← N9.cur]; rfl
    rw [this, C9, c5, hlen]
    split <;> rfl
  · rw [hl]; exact N9.tasks
  · rw [hl, E9, e5]
  · rw [hl]; exact N9.engs
  · rw [hl]; exact N9.regs

/-- The law in the words of the statements: the operands in front of what lies under them. -/
theorem Does.intro {s : State} {e len : Nat} {i : Instr} {f : Effect} (op : Op) (act : Blk → Nat → List Entry128 → List Entry128 → Res)
    (last : Blk → Blk) (hexec : exec i s = s.done (s.blk.issue e op act)) (hlen : op.len = len) (hill : op.illegal = false)
    (hpl : op.minPl ≤ s.blk.pl (s.blk.lead e)) (hlatch : op.latch = false) (hret : op.sysRet = false)
    (hdin : op.din = f.dops.length) (hdout : op.dout = f.dres.length) (hrin : op.rin = f.rops.length) (hrout : op.rout = f.rres.length)
    (hact : ∀ b1, s.blk.Primed (s.blk.lead e) b1 →
      act b1 (s.blk.lead e) f.dops f.rops = .done b1 f.dres f.rres f.tgt f.conds none last)
    (hlast : ∀ b2, (b2.curTask (s.blk.lead e)).v = (s.blk.curTask (s.blk.lead e)).v →
      (b2.curTask (s.blk.lead e)).p = (s.blk.curTask (s.blk.lead e)).p → Blk.LastTo (s.blk.lead e) f.v f.p b2 (last b2)) :
    Does s e i len f := by
  intro under runder hq hd hd' hr hr' hen ht
  refine ⟨_, hexec, ?_⟩
  have td : (s.blk.stackOf (s.blk.lead e) false).cache.take op.din = f.dops := by rw [hd, hdin]; simp
  have tr : (s.blk.stackOf (s.blk.lead e) true).cache.take op.rin = f.rops := by rw [hr, hrin]; simp
  have dd : (s.blk.stackOf (s.blk.lead e) false).cache.drop op.din = under := by rw [hd, hdin]; simp
  have dr : (s.blk.stackOf (s.blk.lead e) true).cache.drop op.rin = runder := by rw [hr, hrin]; simp
  have fd : (s.blk.stackOf (s.blk.lead e) false).fits op.din op.dout = true := by
    simp only [StkView.fits, hd, hdin, hdout, List.length_append, Bool.and_eq_true, decide_eq_true_eq]
    omega
  have fr : (s.blk.stackOf (s.blk.lead e) true).fits op.rin op.rout = true := by
    simp only [StkView.fits, hr, hrin, hrout, List.length_append, Bool.and_eq_true, decide_eq_true_eq]
    omega
  have h := s.blk.issue_quiet e op act len hq hlen hill hpl hlatch hret fd fr f.dres f.rres f.tgt f.conds last f.v f.p
    (by rw [td, tr]; exact hact) hlast hen (fun a ha => (ht a ha).1)
    (fun h => by
      obtain ⟨a, ha⟩ := Option.isSome_iff_exists.1 h
      exact (ht a ha).2)
  rw [dd, dr] at h
  exact h

theorem Blk.LastTo.same (l : Nat) (b b2 : Blk) (hv : (b2.curTask l).v = (b.curTask l).v) (hp : (b2.curTask l).p = (b.curTask l).p) :
    Blk.LastTo l (b.curTask l).v (b.curTask l).p b2 b2 := by
  refine ⟨.refl l b2, ?_, rfl, rfl⟩
  rw [← hv, ← hp]

/-- An instruction that only calculates with its operands. -/
theorem Calc.cond {s : State} {e len : Nat} {i : Instr} {ops res : List Entry128} {conds : BitVec 6} (op : Op)
    (f : List Entry128 → List Entry128 × BitVec 6) (hexec : exec i s = s.run e (condIns op f)) (hlen : op.len = len)
    (hill : op.illegal = false) (hmin : op.minPl = 0) (hlatch : op.latch = false) (hret : op.sysRet = false)
    (hdin : op.din = ops.length) (hdout : op.dout = res.length) (hrin : op.rin = 0) (hrout : op.rout = 0) (hf : f ops = (res, conds)) :
    Calc s e i len ops res conds := by
  refine Does.intro op _ id hexec hlen hill (by omega) hlatch hret hdin hdout hrin hrout (fun b1 _ => ?_)
    (fun b2 hv hp => .same _ s.blk b2 hv hp)
  simp only [condIns, hf]

theorem Calc.pure {s : State} {e len : Nat} {i : Instr} {ops res : List Entry128} (op : Op)
    (f : List Entry128 → List Entry128) (hexec : exec i s = s.run e (pureIns op f)) (hlen : op.len = len)
    (hill : op.illegal = false) (hmin : op.minPl = 0) (hlatch : op.latch = false) (hret : op.sysRet = false)
    (hdin : op.din = ops.length) (hdout : op.dout = res.length) (hrin : op.rin = 0) (hrout : op.rout = 0) (hf : f ops = res) :
    Calc s e i len ops res := by
  refine Does.intro op _ id hexec hlen hill (by omega) hlatch hret hdin hdout hrin hrout (fun b1 _ => ?_)
    (fun b2 hv hp => .same _ s.blk b2 hv hp)
  simp only [pureIns, hf]

end Sys2Proof.Machine
end

