-- ==== Sys2Proof/Laws/Memory.lean ====
section
/-! SUPPORT. Memory: reading after a write, and every operation that writes memory or a register keeps the canonical form. -/
namespace Sys2Proof.Machine

variable {b : Blk}

/-! Bytes. -/

@[simp] theorem Blk.byte_setByte_self (b : Blk) (a : Nat) (v : Byte) : (b.setByte a v).byte a = v := by simp [Blk.byte_setByte]

theorem Blk.byte_setByte_ne (b : Blk) {a j : Nat} (v : Byte) (h : a ≠ j) : (b.setByte a v).byte j = b.byte j := by
  simp [Blk.byte_setByte, h]

/-- A byte string written at `a` is read back at its places, and every other place is left alone. -/
theorem Blk.byte_setBytes (l : List Byte) (b : Blk) (a j : Nat) :
    (b.setBytes a l).byte j = if a ≤ j ∧ j < a + l.length then l.getD (j - a) 0 else b.byte j := by
  induction l generalizing b a with
  | nil => simp only [Blk.setBytes, List.length_nil]; rw [if_neg (by omega)]
  | cons v t ih =>
    simp only [Blk.setBytes, List.length_cons, ih, Blk.byte_setByte]
    by_cases h : a = j
    · subst h; rw [if_neg (by omega), if_pos (by omega)]; simp
    · by_cases h2 : a + 1 ≤ j ∧ j < a + 1 + t.length
      · obtain ⟨k, rfl⟩ : ∃ k, j = a + 1 + k := ⟨j - (a + 1), by omega⟩
        rw [if_pos h2, if_pos (by omega)]
        simp [show a + 1 + k - (a + 1) = k by omega, show a + 1 + k - a = k + 1 by omega]
      · rw [if_neg h2, if_neg h, if_neg (by omega)]

/-! The canonical form of memory. -/

theorem Blk.wf_setByte (h : Memory.wf b.mem = true) (a : Nat) (v : Byte) : Memory.wf (b.setByte a v).mem = true :=
  Tab.wf_set _ _ _ _ h

theorem Blk.wf_setBytes (l : List Byte) (h : Memory.wf b.mem = true) (a : Nat) : Memory.wf (b.setBytes a l).mem = true := by
  induction l generalizing b a with
  | nil => exact h
  | cons v t ih => exact ih (b.wf_setByte h a v) (a + 1)

theorem Blk.wf_mergeBytes (l : List Byte) (h : Memory.wf b.mem = true) (a : Nat) : Memory.wf (b.mergeBytes a l).mem = true := by
  induction l generalizing b a with
  | nil => exact h
  | cons v t ih => exact ih (b.wf_setByte h _ _) (a + 1)

theorem Tab.above_filter {α : Type} (f : Nat × α → Bool) (t : Tab α) (k : Nat) (h : Tab.above k t = true) :
    Tab.above k (t.filter f) = true := by
  induction t with
  | nil => rfl
  | cons x t ih =>
    simp only [Tab.above, Bool.and_eq_true] at h
    by_cases hf : f x = true
    · simp [hf, Tab.above, h.1, ih h.2]
    · simp [hf, ih h.2]

theorem Tab.wf_filter {α : Type} [DecidableEq α] (d : Nat → α) (f : Nat × α → Bool) (t : Tab α) (h : Tab.wf d t = true) :
    Tab.wf d (t.filter f) = true := by
  induction t with
  | nil => rfl
  | cons x t ih =>
    simp only [Tab.wf, Bool.and_eq_true] at h
    by_cases hf : f x = true
    · simp only [List.filter_cons, hf, if_true, Tab.wf, Bool.and_eq_true]
      exact ⟨⟨h.1.1, Tab.above_filter f t _ h.1.2⟩, ih h.2⟩
    · simp [hf, ih h.2]

theorem Blk.wf_bankZero (h : Memory.wf b.mem = true) (k : Nat) : Memory.wf (b.bankZero k).mem = true := Tab.wf_filter _ _ _ h

/-! Blocks whose memory and register pages are in canonical form: what keeps them. -/

/-- The memory and the register pages of a block are in canonical form. -/
def Blk.Inv (b : Blk) : Prop := Memory.wf b.mem = true ∧ Pages.wf b.regs = true

theorem State.inv_iff (s : State) : s.Inv ↔ s.blk.Inv := Iff.rfl

/-- What leaves memory and register pages alone keeps their form. -/
theorem Blk.Inv.same {b' : Blk} (h : b.Inv) (hm : b'.mem = b.mem) (hr : b'.regs = b.regs) : b'.Inv := by
  unfold Blk.Inv; rw [hm, hr]; exact h

theorem Blk.Inv.fold {α : Type} (f : Blk → α → Blk) (l : List α) (hf : ∀ b : Blk, b.Inv → ∀ a ∈ l, (f b a).Inv) (h : b.Inv) :
    (l.foldl f b).Inv := by
  induction l generalizing b with
  | nil => exact h
  | cons a t ih => exact ih (fun b hb a ha => hf b hb a (by simp [ha])) (hf b h a (by simp))

/-- A block written out field by field. -/
theorem Blk.inv_mk (r : Tab Word) (m : Tab Byte) (ec) (ba) (co) (en) (ta) (pa) (ro) (dr) (ch) (pt) (fa) (sw) (la) (mi) (se) (po) (hs) (tp) (mf)
    (ke) (jo) (jn) (tb) (sy) (tr) (cw) (mp) (mr) (fr) (st) (ou) :
    Blk.Inv ⟨r, m, ec, ba, co, en, ta, pa, ro, dr, ch, pt, fa, sw, la, mi, se, po, hs, tp, mf, ke, jo, jn, tb, sy, tr, cw, mp, mr, fr, st, ou⟩ ↔
      Memory.wf m = true ∧ Pages.wf r = true := Iff.rfl

theorem Blk.inv_ite (c : Prop) [Decidable c] (a b : Blk) : (if c then a else b).Inv ↔ (c → a.Inv) ∧ (¬ c → b.Inv) := by
  by_cases h : c <;> simp [h]

theorem Blk.Inv.wfMem (h : b.Inv) : Memory.wf b.mem = true := h.1
theorem Blk.Inv.wfRegs (h : b.Inv) : Pages.wf b.regs = true := h.2

variable (h : b.Inv)
include h

@[simp] theorem Blk.inv_setReg (k : Nat) (v : Word) : (b.setReg k v).Inv := ⟨h.1, Tab.wf_set _ _ _ _ h.2⟩
@[simp] theorem Blk.inv_setF (k lo n v : Nat) : (b.setF k lo n v).Inv := Blk.inv_setReg h _ _
@[simp] theorem Blk.inv_setBit (k i : Nat) : (b.setBit k i).Inv := Blk.inv_setReg h _ _
@[simp] theorem Blk.inv_clrBit (k i : Nat) : (b.clrBit k i).Inv := Blk.inv_setReg h _ _
@[simp] theorem Blk.inv_event (p i : Nat) : (b.event p i).Inv := Blk.inv_setBit h _ _
@[simp] theorem Blk.inv_flt (p i : Nat) : (b.flt p i).Inv := Blk.inv_setBit h _ _
@[simp] theorem Blk.inv_count (k lo n : Nat) : (b.count k lo n).Inv := by
  unfold Blk.count; split
  · exact Blk.inv_setF h _ _ _ _
  · exact h
@[simp] theorem Blk.inv_emit (o : OutEvent) : (b.emit o).Inv := h
@[simp] theorem Blk.inv_freeNext : b.freeNext.Inv := h
@[simp] theorem Blk.inv_setByte (a : Nat) (v : Byte) : (b.setByte a v).Inv := ⟨b.wf_setByte h.1 a v, h.2⟩
@[simp] theorem Blk.inv_setEng (e : Nat) (x : Engine) : (b.setEng e x).Inv := h
@[simp] theorem Blk.inv_setTask (e t : Nat) (x : TaskCtx) : (b.setTask e t x).Inv := h
@[simp] theorem Blk.inv_setPair (p : Nat) (x : Pair) : (b.setPair p x).Inv := h
@[simp] theorem Blk.inv_setBank (k : Nat) (x : Bank) : (b.setBank k x).Inv := h
@[simp] theorem Blk.inv_setChan (c : Nat) (x : MpChan) : (b.setChan c x).Inv := h
@[simp] theorem Blk.inv_bankZero (k : Nat) : (b.bankZero k).Inv := ⟨b.wf_bankZero h.1 k, h.2⟩

@[simp] theorem Blk.inv_setBytes (a : Nat) (l : List Byte) : (b.setBytes a l).Inv := by
  induction l generalizing b a with
  | nil => exact h
  | cons v t ih => exact ih (Blk.inv_setByte h a v) (a + 1)

@[simp] theorem Blk.inv_mergeBytes (a : Nat) (l : List Byte) : (b.mergeBytes a l).Inv := by
  induction l generalizing b a with
  | nil => exact h
  | cons v t ih => exact ih (Blk.inv_setByte h _ _) (a + 1)

omit h in
theorem Tab.wf_setMany (l : List (Byte × Nat)) (m : Tab Byte) (hm : Memory.wf m = true) (a : Nat) :
    Memory.wf (l.foldl (fun m x => Tab.set (fun _ => (0 : Byte)) m (a + x.2) x.1) m) = true := by
  induction l generalizing m with
  | nil => exact hm
  | cons v t ih => exact ih _ (Tab.wf_set _ _ _ _ hm)

/-! The reserved area. -/

@[simp] theorem Blk.inv_areaPut (a : Nat) (l : List Byte) : (b.areaPut a l).Inv := ⟨Tab.wf_setMany _ _ h.1 _, h.2⟩

@[simp] theorem Blk.inv_ringPut (a size k : Nat) (l : List (List Byte)) : (b.ringPut a size k l).Inv :=
  h.fold _ _ fun _ hb _ _ => Blk.inv_areaPut hb _ _

@[simp] theorem Blk.inv_imagePut (p off : Nat) (l : List Byte) : (b.imagePut p off l).Inv := Blk.inv_areaPut h _ _

@[simp] theorem Blk.inv_logsPut (p u r i : Nat) : (b.logsPut p u r i).Inv :=
  Blk.inv_ringPut (Blk.inv_ringPut (Blk.inv_ringPut h _ _ _ _) _ _ _ _) _ _ _ _

@[simp] theorem Blk.inv_logsLeave (p u r i : Nat) : (b.logsLeave p u r i).Inv := Blk.inv_logsPut h p u r i

@[simp] theorem Blk.inv_logsOut (p : Nat) : (b.logsOut p).Inv := Blk.inv_logsLeave h _ _ _ _

@[simp] theorem Blk.inv_areaLeave : b.areaLeave.Inv := by
  refine h.fold _ _ fun c hc p _ => ?_
  dsimp only
  split
  · exact hc
  · exact Blk.inv_setPair (Blk.inv_logsPut hc _ _ _ _) _ _

omit h in
/-- Reset lists nothing, so it is in canonical form (that `State.reset` is well kept is a statement of its own). -/
theorem reset_memory_wf : Memory.wf State.reset.blk.mem = true := rfl

end Sys2Proof.Machine
end

