-- ==== Sys2Proof/Laws/Operands.lean ====
section
/-! SUPPORT. Operands and results of a width as bit vectors of that width. -/
namespace Sys2Proof.Machine

/-- Bits of a width are at least 8 and at most 128. -/
theorem wq_bounds (w : Option Width) : 8 ≤ wq w ∧ wq w ≤ 128 := by
  cases w with
  | none => decide
  | some w => cases w <;> decide

theorem low_eq (n : Nat) (a : Entry128) : low n a = (a.setWidth n).toNat := by simp [low]

theorem low_lt (n : Nat) (a : Entry128) : low n a < 2 ^ n := Nat.mod_lt _ (Nat.two_pow_pos n)

/-- The signed value of a bit vector. -/
theorem sgn_toNat (n : Nat) (hn : 0 < n) (x : BitVec n) : sgn n x.toNat = x.toInt := by
  obtain ⟨k, rfl⟩ : ∃ k, n = k + 1 := ⟨n - 1, by omega⟩
  have hx := x.isLt
  unfold sgn
  rw [BitVec.toInt_eq_toNat_cond]
  simp only [Nat.add_sub_cancel, Nat.pow_succ]
  have e : (2 * x.toNat < 2 ^ k * 2) = (x.toNat < 2 ^ k) := by
    apply propext
    constructor <;> intro h <;> omega
  simp only [e]

theorem sgn_low (n : Nat) (hn : 0 < n) (a : Entry128) : sgn n (low n a) = (a.setWidth n).toInt := by
  rw [low_eq, sgn_toNat n hn]

/-- A sign-extended result. -/
theorem sx_eq (n : Nat) (hn : 0 < n) (v : Int) : sx n v = (BitVec.ofInt n v).signExtend 128 := by
  unfold sx BitVec.signExtend
  rw [← sgn_toNat n hn]
  simp [BitVec.toNat_ofInt]

/-- A zero-extended result. -/
theorem zx_eq (n : Nat) (v : Nat) : zx n v = (BitVec.ofNat n v).setWidth 128 := by
  apply BitVec.eq_of_toNat_eq
  simp [zx]

end Sys2Proof.Machine
end

