-- ==== Sys2Proof/Machine/Pins.lean ====
section
/-! DEFINITION. The output pins that the state decides, as functions of the block (R249, R264, R357, R379, R403, R412, R426, R430, R441,
R457, R474, R503 to R509). In Off every output is undriven (`Blk.driven`) and a pin's value means nothing. Pulses stand in `Blk.out`. -/
namespace Sys2Proof.Machine

/-- Are the outputs driven (R520)? -/
def Blk.driven (b : Blk) : Bool := decide (b.sys.base ≠ 0)

/-- Is the block beyond Reset, so that outputs follow their units (R520)? -/
def Blk.upNow (b : Blk) : Bool := decide (2 ≤ b.sys.base)

/-! Clock, reset and mode (R503). -/

/-- `rst_stat_n`. -/
def Blk.pinRstStat (b : Blk) : Bool := b.upNow
/-- `rst_int_o`: an internal source holds Reset (R453). -/
def Blk.pinRstInt (b : Blk) : Bool := decide (b.sys.base = 1) && decide (b.sec.phase = 0) && decide (b.rf Reg.rstCause 2 6 ≠ 0)
/-- `tb_clk_ok`. -/
def Blk.pinTbClkOk (b : Blk) : Bool := !b.tb.lost
/-- `mode_cur` and `hp_mode`: 0x1 in Reset and in test mode (R503, R510, R520). -/
def Blk.pinMode (b : Blk) : Nat := if b.upNow then b.mode else 1
/-- `mode_flags`. -/
def Blk.pinFlags (b : Blk) : Nat := if b.upNow then fld b.modeFlags 0 6 else 0
/-- `perm_fault`: every permanent fault leaves a resource retired until reset (R337). (DEDUCED, log 134). -/
def Blk.pinPermFault (b : Blk) : Bool := b.upNow && b.degraded
/-- `pair_twin`, `pair_ret`, `pair_recov` of pair `p`. -/
def Blk.pinPairTwin (b : Blk) (p : Nat) : Bool := b.upNow && b.twin p
def Blk.pinPairRet (b : Blk) (p : Nat) : Bool := b.upNow && b.retired p
def Blk.pinPairRecov (b : Blk) (p : Nat) : Bool := b.upNow && b.recovering p
/-- `blk_ver` and `blk_tasks`: constants. -/
def pinBlkVer : Nat := 0x0203
def pinBlkTasks : Nat := 64
/-- `rsv_out0` to `rsv_out3` (R511). -/
def pinRsvOut : Nat := 0

/-! Drive outputs (R249, R264, R504). -/

/-- `drv_pwm[2n]` and `drv_pwm[2n+1]`: on and off through the polarity of the leg (R249). -/
def Blk.pinPwmHi (b : Blk) (n : Nat) : Bool := (b.leg n).hi != b.rb (Reg.legcfg (n / 3)) (8 + 2 * (n % 3))
def Blk.pinPwmLo (b : Blk) (n : Nat) : Bool := (b.leg n).lo != b.rb (Reg.legcfg (n / 3)) (9 + 2 * (n % 3))
/-- `drv_pwm_oe`: low while `por_n` is low (R504, R520). -/
def Blk.pinPwmOe (b : Blk) : Bool := !b.sec.porLow
/-- `drv_safe_n`: low in Reset, Boot, Configure, Safe Hold and Mirror Follower (R264). -/
def Blk.pinSafeN (b : Blk) : Bool := decide (4 ≤ b.sys.base) && !b.sys.hold && decide (b.mode ≠ 7)
/-- `drv_clk_ok`. -/
def Blk.pinDrvClkOk (b : Blk) : Bool := !b.drive.lost
/-- `clk_req_drv` (R515). -/
def Blk.pinClkReqDrv (b : Blk) : Bool := b.upNow && b.clkReq
/-- `drv_gstate` and `drv_trip` of group `g`. -/
def Blk.pinGstate (b : Blk) (g : Nat) : Nat := b.gState g
def Blk.pinDrvTrip (b : Blk) (g : Nat) : Bool := b.rb (Reg.gstat g) 2

/-! Sample, trip and capture ports (R505, R506). -/

/-- `sp_ack` of port `n`, and `sp_busy` (R266). -/
def Blk.pinSpAck (b : Blk) (n : Nat) : Bool := b.spAck n
def Blk.pinSpBusy (b : Blk) : Bool := !b.drive.req.isEmpty

/-- `sp_full`, `sp_ovr`, `sp_en`, `sp_byp`, `sp_ret` of port `n`. -/
def Blk.pinSpFull (b : Blk) (n : Nat) : Bool := b.rb (Reg.last n) 31
def Blk.pinSpOvr (b : Blk) (n : Nat) : Bool := b.rb Reg.ovrFlags n
def Blk.pinSpEn (b : Blk) (n : Nat) : Bool := b.rb (Reg.spCfg n) 0
def Blk.pinSpByp (b : Blk) (n : Nat) : Bool := b.rb (Reg.spCfg n) 1
def Blk.pinSpRet (b : Blk) (n : Nat) : Bool := b.rb Reg.retSp n
/-- `trip_lvl`, `trip_lat` of input `k`, and `trip_any`. -/
def Blk.pinTripLvl (b : Blk) (k : Nat) : Bool := b.rb Reg.tlevel k
def Blk.pinTripLat (b : Blk) (k : Nat) : Bool := b.rb Reg.tlatch k
def Blk.pinTripAny (b : Blk) : Bool := decide (b.reg Reg.tlatch ≠ 0)

/-! External event sources (R507). -/

/-- `evt_pend`, `evt_active`, `evt_en`, `evt_quar` of bit `k`, and `evt_wake`. -/
def Blk.pinEvtPend (b : Blk) (k : Nat) : Bool := b.isPending (256 + k)
def Blk.pinEvtActive (b : Blk) (k : Nat) : Bool := b.isActive (256 + k)
def Blk.pinEvtEn (b : Blk) (k : Nat) : Bool := b.srcBit Reg.srcEn (256 + k)
def Blk.pinEvtQuar (b : Blk) (k : Nat) : Bool := b.srcBit Reg.quar (256 + k)
def Blk.pinEvtWake (b : Blk) : Bool := decide (b.sys.base = 0xA) && b.wakeSource.isSome

/-! Timebase and time sync (R508). -/

/-- `tb_ns`, `tb_slewing`, `tb_rate_low`, `as_slave`, `as_gm`. -/
def Blk.pinTbNs (b : Blk) : BitVec 64 := b.tb.cnt
def Blk.pinSlewing (b : Blk) : Bool := decide (b.tb.slew ≠ 0)
def Blk.pinRateLow (b : Blk) : Bool := b.rb Reg.stepmeter 15 && decide (b.rf Reg.stepmeter 0 12 < 1500)
def Blk.pinAsSlave (b : Blk) : Bool := b.sw.slave
def Blk.pinAsGm (b : Blk) : Bool := b.sw.gm

/-! Debug (R474), security (R457), mirror sidebands (R357). -/

/-- `dbg_halt_o`, `dbg_active_o`, `dbg_lost_o`. -/
def Blk.pinDbgHalt (b : Blk) : Bool := b.anyHalted
def Blk.pinDbgActive (b : Blk) : Bool := b.upNow && decide (b.mode = 0xB)
def Blk.pinDbgLost (b : Blk) : Bool := decide (b.rf Reg.trcLost 0 16 ≠ 0)
/-- `sec_lc`, `sec_debug_en`: 0 until the fuse load completes (R520); `sec_boot_done`. -/
def Blk.pinLc (b : Blk) : Nat := if b.sec.phase = 2 then b.lifecycle else 0
def Blk.pinDebugEn (b : Blk) : Bool := decide (b.sec.phase = 2) && b.dbgOpen
def Blk.pinBootDone (b : Blk) : Bool := b.rb Reg.bootStat 12
/-- `mir_hb_o`, `mir_role_o`, `mir_tko_o`. -/
def Blk.pinMirHb (b : Blk) : Bool := b.mir.hb
def Blk.pinMirRole (b : Blk) : Bool := b.upNow && decide (b.mode = 6)
def Blk.pinMirTko (b : Blk) : Bool := b.mir.taking
/-- `mir_fail_o_n`: high in Mirror Primary and Mirror Follower, and in Recovery or Debug with mirroring configured. -/
def Blk.pinMirFailN (b : Blk) : Bool :=
  b.upNow && (decide (b.mode = 6) || decide (b.mode = 7) || ((decide (b.mode = 8) || decide (b.mode = 0xB)) && b.rb Reg.mcfgReg 0))

/-! Host port (R426, R430). -/

/-- The condition that `hp_rdy_cause` shows (R430). -/
def Blk.pinRdyCause (b : Blk) : Nat :=
  if !b.upNow || decide (b.sys.base = 0xA) || b.hst.low then 0
  else if ((List.range 16).any fun m => b.rb (Reg.mbOutstat m) 31 && b.rb (Reg.mbCtrl m) 0) || decide (b.rf Reg.hattn 0 3 ≠ 0) then 3
  else if b.rb Reg.hres 0 then 2
  else if b.hst.cmd.isNone then 1 else 0
/-- `hp_rdy`. -/
def Blk.pinRdy (b : Blk) : Bool := decide (b.pinRdyCause ≠ 0)
/-- `hp_idle`: no accepted request is outstanding. -/
def Blk.pinHpIdle (b : Blk) : Bool := b.hst.q.isEmpty && !b.hostBusy
/-- `hp_mbx_pend` of mailbox `m`, `hp_sleep`. -/
def Blk.pinMbxPend (b : Blk) (m : Nat) : Bool := b.rb (Reg.mbOutstat m) 31
def Blk.pinSleep (b : Blk) : Bool := decide (b.sys.base = 0xA)

/-! Power (R441, R445, R447). -/

/-- `pwr_vreq`: 1 RETAIN in Sleep until the wake event. -/
def Blk.pinVreq (b : Blk) : Nat := bit (decide (b.sys.base = 0xA) && decide (b.pow.phase = 1))
/-- `pwr_pace`. -/
def Blk.pinPace (b : Blk) : Nat := b.rf Reg.pwrStat 0 3
/-- `pwr_sw_net_en` and `pwr_iso_net_n`: low in Sleep with NET_OFF until the wake event, and until its 4.5 µs row. -/
def Blk.pinSwNet (b : Blk) : Bool := b.upNow && !(decide (b.pinVreq = 1) && b.rb Reg.pcfg 2)
def Blk.pinIsoNetN (b : Blk) : Bool := b.upNow && !(decide (b.sys.base = 0xA) && decide (b.pow.phase ≤ 2) && b.rb Reg.pcfg 2)

/-! Lanes (R379), memory port (R412), edge ports (R403), test (R509). -/

/-- `phy_rst_n`, `tx_en`, `tr_req`, `tr_cmd` (0 while none is placed), `sublane` and `lpbk` of lane `k`. -/
def Blk.pinPhyRstN (b : Blk) (k : Nat) : Bool := decide (2 ≤ (b.lane k).step) && decide ((b.lane k).step ≤ 8)
def Blk.pinTxEn (b : Blk) (k : Nat) : Bool := decide (4 ≤ (b.lane k).step) && decide ((b.lane k).step ≤ 8)
def Blk.pinTrReq (b : Blk) (k : Nat) : Bool := decide ((b.lane k).tr ≠ 0)
def Blk.pinTrCmd (b : Blk) (k : Nat) : Nat := (b.lane k).tr
def Blk.pinSublane (b : Blk) (k : Nat) : Bool := b.rb (Reg.lctrlReg k) 1
def Blk.pinLpbk (b : Blk) (k : Nat) : Nat := if b.rf (Reg.lctrlReg k) 2 2 = 2 then 2 else 0
/-- `mp_rst_n`, and `ch_en` of memory channel `c`. -/
def Blk.pinMpRstN (b : Blk) : Bool := !b.mpRst
def Blk.pinChEn (b : Blk) (c : Nat) : Bool := (b.chan c).en && decide (b.sys.base ≠ 0xA)
/-- `mode` of edge port `n`. -/
def Blk.pinEdgeMode (b : Blk) (n : Nat) : Nat := b.rf (Reg.ecfgReg n) 1 2
/-- `tst_allowed`, `tst_ready`, `tst_mbist_done`, `tst_mbist_fail`. -/
def Blk.pinTstAllowed (b : Blk) : Bool := b.tstAllowed
def Blk.pinTstReady (b : Blk) : Bool := b.sec.tstOk
def Blk.pinMbistDone (b : Blk) : Bool := b.sec.mbDone.isSome
def Blk.pinMbistFail (b : Blk) : Bool := b.sec.mbDone.getD false

end Sys2Proof.Machine
end

