-- ==== Sys2Proof/Tests/Slice0.lean ====
section
/-! SUPPORT. Small tests of the model, each a named theorem: steps of the spec's worked examples, an ill-formed command for each check,
and, for each statement `X` that presumes something, `Met.X` (what `X` or its `Rules.X` presumes, clause by clause) and `met_X`: states and
operands that meet every clause. A bounded "for all" stands there as a test of a list. That a command answers the block named in a
statement is left out of `Met.DebugPort`, where that block is what the command leaves. -/
namespace Sys2Proof.Tests
open Sys2Proof Sys2Proof.Machine
set_option linter.unusedVariables false
set_option Elab.async false

/-! Sample states. -/

/-- The state after reset, changed by `f`. -/
def onReset (f : Blk → Blk) : State := { State.reset with blk := f State.reset.blk }

/-- Registers set to the words given. -/
def setRegs (l : List (Nat × Word)) (b : Blk) : Blk := l.foldl (fun b x => b.setReg x.1 x.2) b

/-- The stacks of the task that engine `e` runs. -/
def withStk (s : State) (e : Nat) (twoReady rs : List Entry128) : State :=
  let b := s.blk
  let l := b.lead e
  if b.pl l = 3 then { s with blk := b.setEng l { b.eng l with mds := twoReady, mrs := rs } }
  else { s with blk := b.setTask l (b.eng l).cur { b.curTask l with ds := twoReady, rs := rs } }

/-- Engine 0 runs task 1 at level `pl` in Run; pair 0 is in Twin as `tw` says. -/
def engState (tw : Bool) (pl : Nat) (f : Blk → Blk := id) (g : TaskCtx → TaskCtx := id) : State := onReset fun b =>
  let b := (b.setReg (Reg.regLo 0 0) 0x10000000).setReg (Reg.regHi 0 0) (0x70000000 + 0x17FF)
  let b := if tw then b else b.setReg Reg.pairCfg 0xFE
  let b := { b with sys := { base := 4, ran := true } }
  let b := b.setReg Reg.mode 0x34
  let b := b.setTask 0 0 { (b.task 0 0) with st := .idle }
  let b := b.setTask 0 1 (g { (b.task 0 1) with st := .running, pc := 0x1000, tstat := BitVec.ofNat 32 (pl + 4 + 64*64*16) })
  let b := b.setEng 0 { b.eng 0 with cur := 1, run := true, mdsp := 0x8000, mrsp := 0x9000 }
  f b

/-- In Split or in Twin, at PL 0 or PL 3. -/
def split0 := engState false 0
def split3 := engState false 3
def twin0 := engState true 0
def twin3 := engState true 3

/-- Engine 0 runs the boot ROM at PL 3, in base mode `n`. -/
def romState (n : Nat) (f : Blk → Blk := id) : State := onReset fun b => f (({ b with sys := { b.sys with base := n, ran := decide (4 ≤ n) } }).setReg Reg.mode (BitVec.ofNat 32 n))

/-- 24 bytes of data at 0x20000. -/
def fillData (b : Blk) : Blk := (List.range 24).foldl (fun b i => b.setByte (0x20000 + i) (BitVec.ofNat 8 (i * 37 + 129))) b

/-- Vectors enabled with group code `g` and width code `ew`, all vector and predicate registers filled. -/
def vecState (s : State) (g ew rest : Nat) : State :=
  let b := s.blk
  let t := (b.eng 0).cur
  let w := BitVec.ofNat 32 (g + 4 * ew + rest)
  let c := b.task 0 t
  let rgs : Tab Entry128 := (List.range 16).map fun i => (i,
      BitVec.ofNat 128 ((i+1) * 0x0123456789ABCDEF7FC03F80FF808000 + i * 0x3F8000007F))
  let ps : Tab (BitVec 16) := (List.range 8).map fun i => (i, BitVec.ofNat 16 (0x9A57 * (i+3)))
  { s with blk := b.setTask 0 t { c with tstat := c.tstat ||| 0x100, vcfg := w, vcfgLive := w, v := rgs, p := ps, vix := 0 } }

/-- Engine 2 has task 5 selected, in state `st`. -/
def withTask (st : TaskSt) (b : Blk) : Blk := (b.setTask 2 5 { b.task 2 5 with st := st, pc := 0x1234, ds := [1,2], rs := [3], v := [(3, 0x77)], astat := 0x11 }).setReg (Reg.taskSel 2) 5

/-- Source `n` is enabled for engine `e` with priority `pr`, bound to task `t`. -/
def withSource (n pr e t : Nat) (lim cnt : Nat) (sw : Bool) (run : Option Nat) (b : Blk) : Blk :=
  let b := setRegs [(Reg.srcEn (n/32), BitVec.ofNat 32 (2^(n%32))), (Reg.srcCfg n, BitVec.ofNat 32 (2^e + pr*65536)), (Reg.srcStorm n,
      BitVec.ofNat 32 lim), (Reg.lvlmap e (pr/4), BitVec.ofNat 32 ((128+t) <<< (8*(pr%4)))), (Reg.pairCfg, 0)] b
  let b := if sw then b.setBit (Reg.swpend (n/32)) (n%32) else b
  let b := { b with router := { b.router with storm := [(n,cnt)] } }
  match run with | none => b | some u => (b.setEng e { b.eng e with run := true, cur := u }).setTask e u { b.task e u with st := .running }

/-- Engine 3 in Split has two ready tasks of different priority. -/
def twoReady (r : Option Nat) (b : Blk) : Blk :=
  let b := b.setReg Reg.pairCfg 0
  let b := b.setTask 3 5 { b.task 3 5 with st := .ready, pc := 0x1000, ds := [4], tstat := 0x90008, vcfg := 9, readyAt := 3 }
  let b := b.setTask 3 7 { b.task 3 7 with st := .ready, pc := 0x1000, tstat := 0x20000 }
  match r with | none => b | some u => (b.setEng 3 { b.eng 3 with run := true, cur := u }).setTask 3 u { b.task 3 u with st := .running, tstat := 0x30000 }

/-- Task 5 of engine 3 waits as `k` says until time 500, at time 1000. -/
def waitingTask (f : Blk → Blk) (k : WaitKind) (b : Blk) : Blk := f (({ b with tb := {b.tb with cnt := 1000} }.setReg Reg.pairCfg 0).setTask 3 5 { b.task 3 5 with st := .waiting, wait := some k, ds := [500] })

/-- Sample port 2 holds a sample bound to task 5 of engine 3. -/
def samplePort (dep : Bool) (b : Blk) : Blk := setRegs [(Reg.spCfg 2, BitVec.ofNat 32 (1+2+(if dep then 8 else 0) + 3*16)), (Reg.last 2,
    0x80051234), (Reg.bypmap 3 0, 0x850000)] b

/-- A boot image in the staging area. -/
def withImage (ver : Nat) (b : Blk) : Blk := (b.setBytes 0 (toLe 4 0x4F583132 ++ [1,0,0,3] ++ toLe 4 0x20 ++ toLe 4 0x208 ++
    toLe 4 ver)).setBytes 0x200 [1,2,3,4]

/-- In Reset, at phase `ph` of the release. -/
def inReset (ph nx : Nat) (low : Bool) (b : Blk) : Blk := { b with sys := {base := 1}, sec := { b.sec with phase := ph, next := nx, rstLow := low } }

/-- The boot ROM is ready. -/
def bootState (busy : Bool) (st inb fails : Nat) (im : Bool) (sh : Tab Word) : State := onReset fun b =>
   let b := setRegs [(Reg.mbInstat 0, BitVec.ofNat 32 st), (Reg.inBuf 0 0, BitVec.ofNat 32 inb)] b
   let b := { b with sec := { b.sec with ready := true, busy := busy, fails := fails, shadow := sh } }
   if im then withImage 3 b else b

/-- The host has a region over the scratchpad. -/
def hostRegion (b : Blk) : Blk := setRegs [(Reg.regLo 18 0, 0x10000000), (Reg.regHi 18 0, 0x300002BF)] (withImage 2 b)

/-- Bank 35 in state `cur`, with a transition asked for. -/
def withBank (cur : Nat) (going : Option Nat) (begun : Bool) (b : Blk) : Blk := { b.setBank 35 { cur := cur, going := going, begun := begun } with regs := (setRegs [(Reg.bankPwr 2, BitVec.ofNat 32 (cur*64))] b).regs }

/-- Drive group 1 in RUN. -/
def dutyGroup (upd : Nat) (b : Blk) : Blk := setRegs [(Reg.gctrlReg 1, BitVec.ofNat 32 (1 + 4*upd + 0x1000)), (Reg.gstat 1, 1),
    (Reg.cmpPend 1 0, 0x80000123), (Reg.pcnt 1, 1000)] b

/-- Drive group 1 in state `st`. -/
def driveGroup (going : Bool) (st en cen upd : Nat) (top : Bool) (rdy : Nat) (b : Blk) : Blk :=
  let b := setRegs [(Reg.gctrlReg 1, BitVec.ofNat 32 (en + 2*cen + 4*upd + 0x1000 + 0x30000)), (Reg.gstat 1,
      BitVec.ofNat 32 (st + 256*rdy)), (Reg.cmpPend 1 0, 0x80000123), (Reg.cmpPend 1 2, 0x80000423), (Reg.cmpAct 1 1, 7), (Reg.pcnt 1,
      1000), (Reg.trigReg 1, 0x80000005), (Reg.startLo 1, 100), (Reg.legcfg 1, 0x39)] b;
  let x : Blk := { b with tb := { b.tb with cnt := 5000 }, drive := { b.drive with grps := [(1, { going := going, k := 9, top := top, shown := true, adj := 1, idle := 4 })] } }; x

/-- Channel 9 of the mover runs, its descriptor in memory. -/
def withDesc (lk : Nat) (ph : ChPhase) (ap : Nat) (b : Blk) : Blk :=
  let b := b.setBytes 0x20000 (toLe 8 0x30000 ++ toLe 8 0x30010 ++ toLe 2 100 ++ toLe 2 3 ++ toLe 4 0xFFFFFFF0 ++ toLe 4 200 ++ toLe 4 0 ++
      toLe 4 lk)
  let b := setRegs [(Reg.regLo 16 0, 0x10000000), (Reg.regHi 16 0, 0x300017FF), (Reg.chStat 9, BitVec.ofNat 32 (1 + 8*ap)), (Reg.desc 9,
      0x20000)] b;
  let x : Blk := { b with chans := [(9, { phase := ph })] }; x

/-- A request of engine 3 to the memory port. -/
def portReq (w : Bool) (a t tr : Nat) : MpReq := { mst := 3, write := w, addr := a, be := 0xFF, data := List.replicate 64 5, tries := tr, who := .engine 3, tag := t }

/-- Channel 1 of the memory port is in state `x`. -/
def portState (x : MpChan) (f : Blk → Blk := id) : State := romState 4 (fun b => f ({ b with mp := [(1, x)], mpRst := false }.setEng 3 { b.eng 3 with extReq := [0x2000000040, 0x2000000080] }))

/-- An image of a pair. -/
def snapshot : Snap Chan := { engine := { cur := 3, stack := [⟨5,3,2⟩] }, tasks := (List.range 64).map (fun t => (t, { pc := BitVec.ofNat 32 t })), regs := [], seq := [(1,4)], chans := [], tb := 77, undoN := 1, mvN := 0, relN := 1, insN := 1, pgN := 0, spcAt := 3, stepAt := 4 }

/-- A store that waits for its release. -/
def storeOut (c : OutCls) (a : Nat) (d : List Byte) : Out := { cls := c, act := .store a d, tgt := a / 16 * 16, data := d, spc := 2 }

/-- Pair 2 is in state `x`. -/
def pairState (n : Nat) (x : Pair) (f : Blk → Blk := id) : State := romState n (fun b => f (b.setPair 2 x))

/-- The primary of a mirror with lane 4 up. -/
def mirrorState (m : Mfr) (cw : List CwRec) (n : Nat := 6) : State := romState n (fun b => let b := b.setLane 4 { step := 8 }; { setRegs [(Reg.mcfgReg, 0x40D), (Reg.mfrRetx 0, 0xFFFF), (Reg.macCfg 4, 1536)] b with mfr := m, cwq := cw })

/-- A mirror frame with flags `fl`, number `q` and the bytes `body`. -/
def mirrorBytes (fl : Nat) (q : Nat) (body : List Byte) : List Byte :=
  let f := toBe 12 (2 ^ 96 - 2 ^ 48 + 5) ++ toBe 2 ((mirrorState {} []).blk.rf (Reg.mfrCfg 0) 0 16) ++ toBe 4 q ++ toBe 4 5 ++
      [BitVec.ofNat 8 fl, 1] ++ toBe 2 body.length ++ [0, 0, 0, 0] ++ body
  f ++ List.replicate (60 - f.length) 0

/-- Lane `k` is in state `x`. -/
def laneState (k : Nat) (x : Lane) (l : List (Nat × Word)) : State := romState 4 (fun b => setRegs l (b.setLane k x))

/-- An Ethernet frame with `n` bytes of payload. -/
def frameOf (da sa : Nat) (tag : List Byte) (n : Nat) : List Byte := toBe 6 da ++ toBe 6 sa ++ tag ++ toBe 2 0x1234 ++
    (List.range n).map fun i => BitVec.ofNat 8 i

/-- The switch with its ports and two VLANs. -/
def switchOn (l : List (Nat × Word)) (b : Blk) : Blk :=
  let b := setRegs ([(Reg.swCtrl, 0x1FFFFF), (Reg.cpuMacLo, 0x22334455), (Reg.cpuMacHi, 0x0011), (Reg.cpuBufsz, 3), (Reg.portCfg 1, 1),
      (Reg.portCfg 2, 1), (Reg.regLo 17 0, 0x10010000), (Reg.regHi 17 0, 0x300107FF)] ++
      l) (((b.setLane 0 { step := 8 }).setLane 1 { step := 8 }).setLane 2 { step := 8 });
  { b with sw := { b.sw with vlan := [(1, 0x0000000200000007), (5, 0x0000000200000007)] } }

/-- Receive rings of the CPU port. -/
def rxRings : List (Nat × Word) := (List.range 8).map fun r => (Reg.cpuRing r, 0x01000000 + 0x200)

/-- A marker slot. -/
def markSlot : BitVec 257 := amSlot 1 5

/-- The marker search of a sublane in several states. -/
def lockState (m pos d : Nat) : AmLock :=
  match m with
  | 0 => {}
  | 1 => { cand := [pos - d] }
  | 2 => { lock := true, last := pos - d, amc := 5 }
  | 3 => { lock := true, last := pos - 240, amc := 5 }
  | 4 => { lock := true, last := pos - d*3, amc := 4, miss := 2 }
  | _ => { lock := true, last := pos - d*4, amc := 5, miss := 3 }

/-- A codeword with `e` symbols changed. -/
def wordWith (e : Nat) : List (BitVec 10) :=
  let w := (pcsSend 1 false 0 0 []).1
  (List.range e).foldl (fun w i => w.set (7*i) 3) w

/-- A frame in an egress queue. -/
def queuedFrame (withDesc : Option Nat) : QFrame := ⟨frameOf 0x7766 0x665544 [] 60, withDesc⟩

/-- Port 2 has two frames queued and a gate list. -/
def txState (l : List (Nat × Word)) (g : Gate) (withDesc : Option Nat) (f : Blk → Blk) : State := romState 4 (fun b =>
  let b := switchOn ([(Reg.cpuTxring 3, 0x01000020), (Reg.gclBase, 0x10000)] ++ l) b;
  let b := b.setBytes 0x10000200 (toLe 4 0x1000 ++ toLe 2 60 ++ [0x22, 0x08 + 3]);
  let b := { b with sw := { b.sw with gates := [(2, g)], queues := [(2*8+3, [queuedFrame withDesc, queuedFrame none])], cells := 2 } };
  f b)

/-- The Talloth unit, with node 5 as its peer. -/
def fabState (n : Nat) (hold : Bool) (hi st : Nat) (p : Peer) : State := romState n (fun b =>
  let b := switchOn [(Reg.fabCfg, 0x188B5), (Reg.fabRtoReg, 0x02000010), (Reg.opAddrHi 3, BitVec.ofNat 32 hi), (Reg.opAddrLo 3, 0x20000),
      (Reg.opArg 3 0, 0x11223344), (Reg.opArg 3 2, 0x99), (Reg.opStat 3, BitVec.ofNat 32 st), (Reg.pairCfg, 0xFD), (Reg.regLo 3 0,
      0x10000000), (Reg.regHi 3 0, 0x300017FF), (Reg.regLo 19 0, 0x10000000), (Reg.regHi 19 0, 0x300017FF)] b;
  let b := b.setBytes 0x20000 [1,2,3,4,5,6,7,8,9];
  { b with sys := { b.sys with hold := hold }, fab := { b.fab with peers := [(5, p)], ops := [⟨3,5,1,2,.slot 3⟩, ⟨0x44,5,1,2,.mover 4 7⟩, ⟨0x45,5,2,2,.mover 4 7⟩, ⟨9,5,3,3,.slot 9⟩], db := [(1,2)] }, chans := [(4, { outR := true, xfer := 7 })] })

/-- A Talloth frame. -/
def talFrame (seq ack : Word) (st : Bool) (tag : BitVec 16) (addr : Nat) (w sts : BitVec 4) (pl : List Byte) (len : Nat) : TalFrame := { seq := seq, ack := ack, start := st, tag := tag, addr := BitVec.ofNat _ addr, width := w, status := sts, len := len, payload := pl }

/-- The block that a command leaves. -/
def leftBy (o : Host.Outcome Machine.State Fault Refusal) (s : Machine.State) : Blk := match o with | .next t => t.blk | _ => s.blk

/-- Fuse word 8. -/
def prodFuse (v : Word) : Tab Word := [(8, v)]

/-- Engine 2 under debug. -/
def debugState (halted run req step : Bool) (idle : Bool) (tw : Bool) (f : Blk → Blk := id) : State := romState 4 (fun b =>
  let b := setRegs [(Reg.pairCfg, if tw then 0xFF else 0xFD), (Reg.dbgCtrl, 0xFFFF0001), (Reg.dstat 2,
      BitVec.ofNat 32 (2^31 * bit halted + 128*5 + 64 * bit idle)), (Reg.haltedReg, if halted then 4 else 0)] b;
  let b := b.setEng 2 { b.eng 2 with halted := halted, run := run, haltReq := req, haltWhy := 1, stepping := step, cur := 5 };
  let b := b.setTask 2 5 { b.task 2 5 with st := if halted then .halted else .running, dbgHalt := halted, pc := 0x1000 };
  f b)

/-- Some register. -/
def someRow : RegRow := match pageRows 0 with | r :: _ => r | [] => ⟨0,0,0,0,0,.ro,0,0,0,[]⟩

/-- Operations `o` are in progress. -/
def fabOps (p : Peer) (o : List FabOp) : State := let s := fabState 4 false 0 0 p; { s with blk := { s.blk with fab := { s.blk.fab with ops := o } } }

/-! What the statements presume. -/

/-- What `Does` asks of the state. -/
def asks (s : State) (e len : Nat) (dops rops : List Entry128) (made rmade : Nat) (tgt : Option Nat) : Bool :=
  let b := s.blk
  let l := b.lead e
  let d := b.stackOf l false
  let r := b.stackOf l true
  b.quiet e len && decide (d.cache.take dops.length = dops) && d.fits dops.length made && decide (r.cache.take rops.length = rops) &&
    r.fits rops.length rmade && decide (enabledConds (b.curTask l).astat (BitVec.allOnes 6) = 0) &&
    tgt.all (fun a => decide (a < 2 ^ 32) && !(b.rb Reg.trcCtrl 0))
/-- Every column holds in some row. -/
def covers (rows : List (List Bool)) : Bool :=
  match rows with
  | [] => false
  | r :: t => (t.foldl (List.zipWith (· || ·)) r).all id

def Met.StackInstructions (s : State) (e : Nat) (a b c d : Entry128) : List Bool :=
  [ decide (asks s e 1 [] [] 0 0 none),
    decide (asks s e 1 [a] [] 2 0 none),
    decide (asks s e 1 [a] [] 0 0 none),
    decide (asks s e 1 [b, a] [] 2 0 none),
    decide (asks s e 1 [b, a] [] 3 0 none),
    decide (asks s e 1 [c, b, a] [] 3 0 none),
    decide (asks s e 1 [b, a] [] 1 0 none),
    decide (asks s e 1 [b, a] [] 4 0 none),
    decide (asks s e 1 [b, a] [] 0 0 none),
    decide (asks s e 1 [d, c, b, a] [] 4 0 none),
    decide (asks s e 1 [d, c, b, a] [] 6 0 none),
    (let n := (2 : BitVec 8); let xs := [a, b, c]; decide (n.toNat ≤ 11 ∧ xs.length = n.toNat + 1 ∧
      asks s e 2 xs [] ((xs.getD n.toNat 0 :: xs)).length 0 none)) ]

theorem met_StackInstructions : covers
    [ Met.StackInstructions (withStk split0 0 [5, 5, 5, 5] [5]) 0 5 5 5 5 ] = true := by decide +kernel

def Met.ReturnStackInstructions (s : State) (e : Nat) (a : Entry128) : List Bool :=
  [ decide (asks s e 1 [a] [] 0 1 none),
    decide (asks s e 1 [] [a] 1 0 none),
    decide (asks s e 1 [] [a] 1 1 none),
    decide (asks s e 1 [] [a] 0 0 none) ]

theorem met_ReturnStackInstructions : covers
    [ Met.ReturnStackInstructions (withStk split0 0 [5] [5]) 0 5 ] = true := by decide +kernel

def Met.IntegerArithmetic (s : State) (e : Nat) (w : Option Width) (x y : Entry128) (s8 : BitVec 8) : List Bool :=
  let k := preLen w + 1
  [ decide (asks s e k [y, x] [] 1 0 none),
    decide (asks s e (k + 1) [x] [] 1 0 none) ]

theorem met_IntegerArithmetic : covers
    [ Met.IntegerArithmetic (withStk split0 0 [0x80, 0x80] []) 0 (some .byte) 0x80 0x80 0xFF ] = true := by decide +kernel

def Met.BitInstructions (s : State) (e : Nat) (w : Option Width) (x y : Entry128) (u : BitVec 8) : List Bool :=
  let k := preLen w + 1
  [ decide (asks s e k [y, x] [] 1 0 none),
    decide (asks s e k [x] [] 1 0 none),
    decide (asks s e (k + 1) [x] [] 1 0 none) ]

theorem met_BitInstructions : covers
    [ Met.BitInstructions (withStk twin0 0 [0x8001, 0x8001] []) 0 (some .half) 0x8001 0x8001 200 ] = true := by decide +kernel

def Met.OverflowingArithmetic (s : State) (e : Nat) (w : Option Width) (x y : Entry128) : List Bool :=
  let k := preLen w + 1
  [ decide (asks s e k [x] [] 1 0 none),
    decide (asks s e k [y, x] [] 1 0 none),
    decide (asks s e 1 [y, x] [] 1 0 none) ]

theorem met_OverflowingArithmetic : covers
    [ Met.OverflowingArithmetic (withStk split3 0 [0x80000000, 0x80000000] []) 0 (some .word) 0x80000000 0x80000000 ] = true := by decide +kernel

def Met.Division (s : State) (e : Nat) (w : Option Width) (x y : Entry128) : List Bool :=
  let k := preLen w + 1
  [ decide (asks s e k [y, x] [] 1 0 none),
    decide (asks s e k [y, x] [] 2 0 none) ]

theorem met_Division : covers
    [ Met.Division (withStk split0 0 [0, 0] []) 0 (some .dbl) 0 0 ] = true := by decide +kernel

def Met.Clamping (s : State) (e : Nat) (w : Option Width) (x y f : Entry128) : List Bool :=
  [ decide (asks s e (preLen w + 1) [f, y, x] [] 1 0 none) ]

theorem met_Clamping : covers
    [ Met.Clamping (withStk split0 0 [7, 7, 7] []) 0 (some .quad) 7 7 7 ] = true := by decide +kernel

def Met.TruthValues (s : State) (e : Nat) (w : Option Width) (x y f : Entry128) (sz : OffSize) (off : BitVec 32) : List Bool :=
  let n := wq w
  let a := x.setWidth n
  let b := y.setWidth n
  let c := s.blk.curTask (s.blk.lead e)
  let len := 1 + OffSize.bytes sz
  let t := (((c.pc.toNat + len : Nat) + (off.setWidth (8 * OffSize.bytes sz)).toInt) % 2 ^ 40).toNat
  let cmp_0 := fun (p : Prop) [Decidable p] => decide (asks s e (preLen w + 1) [y, x] [] 1 0 none)
  let z := s.blk.fmode (s.blk.lead e)
  let g := fmtOf w
  let fcmp_0 := fun (r : Bool × BitVec 6) => decide (asks s e (preLen w + 2) [y, x] [] 1 0 none)
  [ decide (cmp_0 (a = b)),
    decide (cmp_0 (a ≠ b)),
    decide (cmp_0 (a.toInt < b.toInt)),
    decide (cmp_0 (a.toInt ≤ b.toInt)),
    decide (cmp_0 (a.toNat < b.toNat)),
    decide (cmp_0 (a.toNat ≤ b.toNat)),
    decide (w ≠ some .byte ∧ w ≠ some .quad ∧ fcmp_0 (Sys2Proof.Machine.fcmp true FVal.same (g.read z (fpIn g x)) (g.read z (fpIn g y)))),
    decide (w ≠ some .byte ∧ w ≠ some .quad ∧ fcmp_0 (Sys2Proof.Machine.fcmp false fLess (g.read z (fpIn g x)) (g.read z (fpIn g y)))),
    decide (w ≠ some .byte ∧ w ≠ some .quad ∧ fcmp_0 (Sys2Proof.Machine.fcmp false fLessEq (g.read z (fpIn g x)) (g.read z (fpIn g y)))),
    decide (asks s e 1 [f, y, x] [] 1 0 none),
    decide (sz ≠ .s32 ∧ asks s e len [f] [] 0 0 (if f = 0 then some t else none)),
    decide (sz ≠ .s32 ∧ asks s e len [f] [] 0 0 (if f = 0 then none else some t)) ]

theorem met_TruthValues : covers
    [ Met.TruthValues (withStk twin0 0 [0, 0, 0] []) 0 none 0 0 0 .s16 0x1234 ] = true := by decide +kernel

def Met.Literals (s : State) (e : Nat) (s8 : BitVec 8) (s16 : BitVec 16) (v : BitVec 64) (x : Entry128) : List Bool :=
  [ decide (asks s e 2 [] [] 1 0 none),
    decide (asks s e 3 [] [] 1 0 none),
    decide (asks s e 5 [] [] 1 0 none),
    decide (asks s e 10 [] [] 1 0 none),
    decide (asks s e 3 [x] [] 1 0 none),
    decide (asks s e 4 [x] [] 1 0 none),
    decide (asks s e 6 [x] [] 1 0 none),
    decide (asks s e 11 [x] [] 1 0 none) ]

theorem met_Literals : covers
    [ Met.Literals (withStk split0 0 [9] []) 0 0x80 0x8000 0x8000000000000000 9 ] = true := by decide +kernel

def Met.FloatingPoint (s : State) (e : Nat) (w : Option Width) (x y u : Entry128) (k : BitVec 8) : List Bool :=
  let z := s.blk.fmode (s.blk.lead e)
  let f := fmtOf w
  let a := fpIn f x
  let b := fpIn f y
  let c := fpIn f u
  let n := preLen w + 2
  let fp_0 := fun (ops : List Entry128) (r : Nat × BitVec 6) => decide (asks s e n ops [] 1 0 none)
  [ decide (w ≠ some .byte ∧ w ≠ some .quad ∧ fp_0 [y, x] (f.add z (f.read z a) (f.read z b))),
    decide (w ≠ some .byte ∧ w ≠ some .quad ∧ fp_0 [y, x] (f.add z (f.read z a) (f.read z b).flip)),
    decide (w ≠ some .byte ∧ w ≠ some .quad ∧ fp_0 [y, x] (f.mul z (f.read z a) (f.read z b))),
    decide (w ≠ some .byte ∧ w ≠ some .quad ∧ fp_0 [y, x] (f.div z (f.read z a) (f.read z b))),
    decide (w ≠ some .byte ∧ w ≠ some .quad ∧ fp_0 [x] (f.sqrt z (f.read z a))),
    decide (w ≠ some .byte ∧ w ≠ some .quad ∧ fp_0 [u, y, x] (f.fma z (f.read z a) (f.read z b) (f.read z c))),
    decide (w ≠ some .byte ∧ w ≠ some .quad ∧ fp_0 [y, x] (f.minmax z false a b)),
    decide (w ≠ some .byte ∧ w ≠ some .quad ∧ fp_0 [y, x] (f.minmax z true a b)),
    decide (w ≠ some .byte ∧ w ≠ some .quad ∧ fp_0 [x] (fNeg f z a)),
    decide (w ≠ some .byte ∧ w ≠ some .quad ∧ fp_0 [x] (fAbs f z a)),
    decide (w ≠ some .byte ∧ w ≠ some .quad ∧ fp_0 [x] (f.classMask a, 0)),
    decide (w ≠ some .byte ∧ w ≠ some .quad ∧ cvtOk (k.toNat / 16) (k.toNat % 16) = true ∧ asks s e 3 [x] [] 1 0 none) ]

theorem met_FloatingPoint : covers
    [ Met.FloatingPoint (withStk split0 0 [0x3C00, 0x3C00, 0x3C00] []) 0 (some .half) 0x3C00 0x3C00 0x3C00 0x01,
      Met.FloatingPoint (withStk split0 0 [0x3C00] []) 0 (some .half) 0x3C00 0x3C00 0x3C00 0x12 ] = true := by decide +kernel

def Met.Loads (s : State) (e : Nat) (w : Width) (p : Option Width) (x : Entry128) (off : BitVec 16) : List Bool :=
  let b := s.blk
  let l := b.lead e
  let y := (x + BitVec.ofInt 128 off.toInt).toNat
  [ decide (b.memClear l .load x.toNat (Width.bytes w) = true ∧ asks s e 1 [x] [] 1 0 none),
    decide (b.memClear l .load x.toNat (Width.bytes w) = true ∧ w ≠ .quad ∧ asks s e 1 [x] [] 1 0 none),
    decide (x.toNat < 2 ^ 40 ∧ b.memClear l .load y (Width.bytes (p.getD .quad)) = true ∧ asks s e (preLen p + 3) [x] [] 1 0 none),
    decide (p ≠ some .quad ∧ x.toNat < 2 ^ 40 ∧ b.memClear l .load y (Width.bytes (p.getD .dbl)) = true ∧
      asks s e (preLen p + 3) [x] [] 1 0 none) ]

theorem met_Loads : covers
    [ Met.Loads (withStk (engState false 0 fillData) 0 [0x20010] []) 0 .byte none 0x20010 0xFFF8 ] = true := by decide +kernel

def Met.StoresInSplit (s : State) (e : Nat) (w : Width) (p : Option Width) (v x : Entry128) (off : BitVec 16) : List Bool :=
  let b := s.blk
  let l := b.lead e
  let y := (x + BitVec.ofInt 128 off.toInt).toNat
  [ decide (b.twin (l / 2) = false ∧ b.memClear l .store x.toNat (Width.bytes w) = true ∧ asks s e 1 [x, v] [] 0 0 none),
    decide (b.twin (l / 2) = false ∧ x.toNat < 2 ^ 40 ∧ b.memClear l .store y (Width.bytes (p.getD .quad)) = true ∧
      asks s e (preLen p + 3) [x, v] [] 0 0 none) ]

theorem met_StoresInSplit : covers
    [ Met.StoresInSplit (withStk (engState false 0 fillData) 0 [0x20010, 9] []) 0 .dbl none 9 0x20010 0xFFF8 ] = true := by decide +kernel

def Met.StoreInTwinWaits (s : State) (e : Nat) (w : Width) (v x : Entry128) (under : List Entry128) : List Bool :=
  let b := s.blk
  let l := b.lead e
  let n := Width.bytes w
  [ decide (b.joined (l / 2) = true ∧ b.quiet e 1 = true ∧ b.memClear l .store x.toNat n = true ∧ x.toNat % n = 0 ∧
      (b.stackOf l false).cache = x :: v :: under ∧ under.length ≤ (b.stackOf l false).depth ∧ (b.stackOf l true).fits 0 0 = true) ]

theorem met_StoreInTwinWaits : covers
    [ Met.StoreInTwinWaits (withStk (engState true 0 fillData) 0 ([(0x20010:Entry128),
        0x0123456789ABCDEFFEDCBA9876543210]++[]) [4]) 0 Width.word 0x0123456789ABCDEFFEDCBA9876543210 (0x20010:Entry128) [] ] = true := by decide +kernel

def Met.AtomicsInSplit (s : State) (e : Nat) (p : Option Width) (a v x : Entry128) : List Bool :=
  let b := s.blk
  let l := b.lead e
  let n := wq p / 8
  [ decide (p ≠ some .byte ∧ p ≠ some .half ∧ b.twin (l / 2) = false ∧ b.memClear l .atomic a.toNat n = true ∧ asks s e (preLen p + 1) [a,
      v] [] 1 0 none),
    decide (p ≠ some .byte ∧ p ≠ some .half ∧ b.twin (l / 2) = false ∧ b.memClear l .atomic a.toNat n = true ∧ asks s e (preLen p + 1) [a,
      v, x] [] 1 0 none) ]

theorem met_AtomicsInSplit : covers
    [ Met.AtomicsInSplit (withStk (engState false 3 fillData) 0 [0x20010, 0x20010, 0x20010] []) 0 none 0x20010 0x20010 0x20010 ] = true := by decide +kernel

def Met.BlockCopyMovesBytes (s : State) (e units n src dst : Nat) (under : List Entry128) : List Bool :=
  let b := s.blk
  let l := b.lead e
  let area := fun (a k : Nat) => (List.range k).all (fun j => decide (a + j < 0x1800000 ∧
      b.admits l (b.pl l) (some (l / 2)) .load (a + j) = true ∧
    b.admits l (b.pl l) (some (l / 2)) .store (a + j) = true ∧ b.bankOn ((a + j) / 0x40000) = true ∧ b.eccAt (a + j) = 0)) = true
  [ decide (b.twin (l / 2) = false ∧ b.quiet e 1 = true ∧ n ≤ 4096 ∧ n ≤ units ∧ area src n ∧ area dst n ∧
      ((List.range 8).all (fun k => decide (b.rb (Reg.bpCtrl (b.cfgEng l) k) 0 = false)) = true) ∧ (b.curTask l).vix = 0 ∧
      (b.stackOf l false).cache = BitVec.ofNat 128 n :: BitVec.ofNat 128 dst :: BitVec.ofNat 128 src :: under ∧
      under.length ≤ (b.stackOf l false).depth ∧ (b.stackOf l true).fits 0 0 = true) ]

theorem met_BlockCopyMovesBytes : covers
    [ Met.BlockCopyMovesBytes (withStk (engState false 0 fillData) 0 [BitVec.ofNat 128 0x20, BitVec.ofNat 128 0x20010,
        BitVec.ofNat 128 0x20000, 9] []) 0 4096 0x20 0x20000 0x20010 [9] ] = true := by decide +kernel

def Met.ControlFlow (s : State) (e : Nat) (sz : OffSize) (off : BitVec 32) (f : Entry128) : List Bool :=
  let c := s.blk.curTask (s.blk.lead e)
  let n := 8 * OffSize.bytes sz
  let len := 1 + OffSize.bytes sz
  let t := (((c.pc.toNat + len : Nat) + (off.setWidth n).toInt) % 2 ^ 40).toNat
  [ decide (asks s e len [] [] 0 0 (some t)),
    decide (sz ≠ .s8 ∧ asks s e len [] [] 0 1 (some t)),
    decide (asks s e 1 [] [f] 0 0 (some f.toNat)),
    decide (asks s e 1 [f] [] 0 0 (some f.toNat)),
    decide (asks s e 1 [f] [] 0 1 (some f.toNat)) ]

theorem met_ControlFlow : covers
    [ Met.ControlFlow (withStk split0 0 [0x2000] [0x2000]) 0 .s32 0xFFFFFFF0 0x2000 ] = true := by decide +kernel

def Met.Repeats (s : State) (e n : Nat) (s8 : BitVec 8) (x : Entry128) (under : List Entry128) : List Bool :=
  let b := s.blk
  let l := b.lead e
  let c := b.curTask l
  [ decide (b.twin (l / 2) = false ∧ b.quiet e 3 = true ∧ c.lc.toNat ≤ n ∧ (b.stackOf l false).cache = x :: under ∧
      (b.stackOf l false).fits 0 0 = true ∧ (b.stackOf l true).fits 0 0 = true) ]

theorem met_Repeats : covers
    [ Met.Repeats (withStk (engState false 0 id (fun c => {c with lc := (0:Word)})) 0 [100,8] []) 0 300 0xF0 100 [8] ] = true := by decide +kernel

def Met.ControlWords (s : State) (e : Nat) (i : BitVec 16) (x : Entry128) (under : List Entry128) : List Bool :=
  let b := s.blk
  let l := b.lead e
  let c := b.curTask l
  [ (let r := ((ctlLevels i.toNat).getD (0, none)).1; let w := ((ctlLevels i.toNat).getD (0,
      none)).2; decide (ctlLevels i.toNat = some (r, w) ∧ r ≤ b.pl l ∧ (i ≠ 0x018 ∨ b.pl l = 3) ∧ asks s e 3 [] [] 1 0 none)),
    decide (b.pl l ≠ 3 ∧ c.ds.length < 12 ∧ asks s e 3 [] [] 1 0 none),
    (let k := i; let m := (if i = 1 then 0x73F3F else 0xFFFFFFFF : Word); decide ((k, m) ∈ [((0x001 : BitVec 16), (0x73F3F : Word)),
      (0x004, 0xFFFFFFFF), (0x005, 0xFFFF), (0x011, 0x1FFFFF0), (0x012, 0x1FFFFF0), (0x015, 0x1FFFFF0), (0x016, 0x1FFFFF0), (0x020,
      0xFFFFFFFF), (0x021, 0xFFFFFFFF), (0x022, 0xFFFFFDFF), (0x023, 0xFFFFFFFF), (0x028, 0xFFFFFC00), (0x040, 0xFFFFFFFF), (0x041,
      0xFFFFFFFF), (0x042, 0xFFFFFFFF), (0x043, 0xFFFFFFFF), (0x048, 0xFFFFFC00), (0x049, 0x3BCFE)] ∧ i = k ∧
      ((ctlLevels i.toNat).bind (·.2)).all (· ≤ b.pl l) ∧ b.quiet e 3 = true ∧ (b.stackOf l false).cache = x :: under ∧
      under.length ≤ (b.stackOf l false).depth ∧ (b.stackOf l true).fits 0 0 = true)) ]

theorem met_ControlWords : covers
    [ Met.ControlWords (withStk split0 0 [0xFFFFFFFF, 8] []) 0 1 0xFFFFFFFF [8] ] = true := by decide +kernel

def Met.Synchronising (s : State) (e : Nat) : List Bool :=
  let b := s.blk
  let l := b.lead e
  [ decide (b.fenced l = true ∧ asks s e 1 [] [] 0 0 none),
    decide (b.quiet e 2 = true ∧ (b.stackOf l false).fits 0 0 = true ∧ (b.stackOf l true).fits 0 0 = true ∧
      b.routerWaits (l / 2) = false),
    decide (b.quiet e 2 = true ∧ (b.stackOf l false).fits 0 0 = true ∧ (b.stackOf l true).fits 0 0 = true) ]

theorem met_Synchronising : covers
    [ Met.Synchronising split0 0 ] = true := by decide +kernel

def Met.EventInstructions (s : State) (e t : Nat) (x : Entry128) (under : List Entry128) : List Bool :=
  let b := s.blk
  let l := b.lead e
  [ (let r := (b.eng l).stack.headD ⟨0, 0, 0⟩; let rest := (b.eng l).stack.drop 1; decide (b.quiet e 2 = true ∧
      (b.stackOf l false).cache = x :: under ∧ under.length ≤ (b.stackOf l false).depth ∧ (b.stackOf l true).fits 0 0 = true ∧
      (b.eng l).stack = r :: rest ∧ r.src = x.toNat % 1024 ∧ b.enabledSrcs = [])),
    (let r := (b.eng l).stack.headD ⟨0, 0, 0⟩; let rest := (b.eng l).stack.drop 1; decide (b.quiet e 2 = true ∧
      (b.stackOf l false).cache = x :: under ∧ under.length ≤ (b.stackOf l false).depth ∧ (b.stackOf l true).fits 0 0 = true ∧
      (b.eng l).stack = r :: rest ∧ r.src ≠ x.toNat % 1024)),
    decide (b.quiet e 2 = true ∧ (b.stackOf l false).cache = x :: under ∧ under.length ≤ (b.stackOf l false).depth ∧
      (b.stackOf l true).fits 0 0 = true ∧ t < 64 ∧ x.toNat % 2 ^ 13 = t + l * 2 ^ 8 ∧ b.sevRefused l = false ∧ b.redirect l = l ∧
      (b.task l t).st ≠ .waiting) ]

theorem met_EventInstructions : covers
    [ Met.EventInstructions (withStk (let b := split0.blk; {split0 with blk := b.setEng 0 {b.eng 0 with stack := [⟨5,3,2⟩]}}) 0 [0x0001, 8] []) 0 1 0x0001 [8],
      Met.EventInstructions (withStk (let b := split0.blk; {split0 with blk := b.setEng 0 {b.eng 0 with stack := [⟨5,3,2⟩]}}) 0 [(5:Entry128), 8] []) 0 1 (5:Entry128) [8] ] = true := by decide +kernel

def Met.Waits (s : State) (e : Nat) (x : Entry128) (under : List Entry128) : List Bool :=
  let b := s.blk
  let l := b.lead e
  let c := b.curTask l
  let due := x.setWidth 64 ≠ 0 ∧ x.setWidth 64 ≤ b.tb.cnt
  [ decide (b.quiet e 2 = true ∧ (b.stackOf l false).cache = x :: under ∧ under.length < (b.stackOf l false).depth ∧
      (b.stackOf l true).fits 0 0 = true ∧ c.chain = [] ∧ c.evf = true),
    decide (b.quiet e 2 = true ∧ (b.stackOf l false).cache = x :: under ∧ under.length < (b.stackOf l false).depth ∧
      (b.stackOf l true).fits 0 0 = true ∧ c.chain = [] ∧ c.evf = false ∧ due),
    decide (b.quiet e 2 = true ∧ (b.stackOf l false).cache = x :: under ∧ under.length < (b.stackOf l false).depth ∧
      (b.stackOf l true).fits 0 0 = true ∧ c.chain = [] ∧ (due ∨ x.setWidth 64 = 0)),
    decide (b.quiet e 2 = true ∧ (b.stackOf l false).cache = x :: under ∧ under.length < (b.stackOf l false).depth ∧
      (b.stackOf l true).fits 0 0 = true ∧ c.chain = [] ∧ b.pl l ≠ 3 ∧ c.evf = false ∧ ¬ due),
    decide (b.quiet e 2 = true ∧ (b.stackOf l false).cache = x :: under ∧ under.length < (b.stackOf l false).depth ∧
      (b.stackOf l true).fits 0 0 = true ∧ c.chain = [] ∧ b.pl l ≠ 3 ∧ ¬ due ∧ x.setWidth 64 ≠ 0) ]

theorem met_Waits : covers
    [ Met.Waits (withStk (let b := split0.blk; {split0 with blk := { b.setTask 0 1 {b.task 0 1 with evf := true} with tb := {b.tb with cnt := 1000}}}) 0 [(0:Entry128), 8] []) 0 (0:Entry128) [8],
      Met.Waits (withStk (let b := split0.blk; {split0 with blk := { b.setTask 0 1 {b.task 0 1 with evf := false} with tb := {b.tb with cnt := 1000}}}) 0 [5000, 8] []) 0 5000 [8],
      Met.Waits (withStk (let b := split0.blk; {split0 with blk := { b.setTask 0 1 {b.task 0 1 with evf := false} with tb := {b.tb with cnt := 1000}}}) 0 [100, 8] []) 0 100 [8] ] = true := by decide +kernel

def Met.ExceptionEntry (s : State) (e : Nat) (u : BitVec 8) (i : BitVec 16) (off : BitVec 32) : List Bool :=
  let b := s.blk
  let l := b.lead e
  let goes_0 := fun (len cause : Nat) (info : Word) => decide (b.quiet e len = true ∧ (b.stackOf l false).fits 0 0 = true ∧
      (b.stackOf l true).fits 0 0 = true)
  let refused_0 := fun (len : Nat) => decide (b.quiet e len = true)
  [ decide (goes_0 2 0x0C (u.setWidth 32)),
    decide (goes_0 1 0x0D 0),
    decide (refused_0 5),
    decide (refused_0 2),
    decide (b.pl l = 3 ∧ refused_0 2),
    decide (ctlLevels i.toNat = none ∧ refused_0 3) ]

theorem met_ExceptionEntry : covers
    [ Met.ExceptionEntry split3 0 0xAB 0x7777 0 ] = true := by decide +kernel

def Met.ExceptionReturn (s : State) (e : Nat) : List Bool :=
  let b := s.blk
  let l := b.lead e
  let c := b.curTask l
  let goes_0 := fun (stat pc : Word) => decide (fld stat 0 2 ≤ b.pl l ∧ fld stat 0 2 ≠ 2 ∧ fld stat 4 4 = 0 ∧ fld stat 9 3 = 0 ∧
      fld stat 20 12 = 0 ∧ c.held = [] ∧ b.quiet e 2 = true ∧ (b.stackOf l false).fits 0 0 = true ∧ (b.stackOf l true).fits 0 0 = true)
  [ decide (b.pl l = 1 ∧ goes_0 c.ssaveStat c.ssavePc),
    decide (b.pl l = 3 ∧ goes_0 (b.eng l).msaveStat (b.eng l).msavePc) ]

theorem met_ExceptionReturn : covers
    [ Met.ExceptionReturn (engState false 3 (fun b => b.setEng 0 { b.eng 0 with msaveStat := 0x000F0104, msavePc := 0x5000 })) 0,
      Met.ExceptionReturn (engState false 1 id (fun c => { c with ssaveStat := 0x00010001, ssavePc := 0x7000 })) 0 ] = true := by decide +kernel

def Met.VectorIntegers (s : State) (e : Nat) (d a b q : BitVec 4) (sh : BitVec 8) : List Bool :=
  let l := s.blk.lead e
  let c := s.blk.vcfg l
  let x := s.blk.curTask l
  let n := c.bits
  let A := fun k => BitVec.ofNat n (c.el x a k)
  let B := fun k => BitVec.ofNat n (c.el x b k)
  let D := fun k => BitVec.ofNat n (c.el x d k)
  let vec_0 := fun (len : Nat) (f : Nat → BitVec n) => decide (asks s e len [] [] 0 0 none)
  [ decide (c.admits [d.toNat, a.toNat, b.toNat] q = true ∧ (vec_0 4 (fun k => A k + B k))),
    decide (c.admits [d.toNat, a.toNat, b.toNat] q = true ∧ (vec_0 4 (fun k => A k - B k))),
    decide (c.admits [d.toNat, a.toNat, b.toNat] q = true ∧ (vec_0 4 (fun k => A k &&& B k))),
    decide (c.admits [d.toNat, a.toNat, b.toNat] q = true ∧ (vec_0 4 (fun k => A k ||| B k))),
    decide (c.admits [d.toNat, a.toNat, b.toNat] q = true ∧ (vec_0 4 (fun k => A k ^^^ B k))),
    decide (c.admits [d.toNat, a.toNat, b.toNat] q = true ∧ (vec_0 4 (fun k => ~~~ A k))),
    decide (c.admits [d.toNat, a.toNat, b.toNat] q = true ∧ asks s e 4 [] [] 0 0 none),
    decide (c.admits [d.toNat, a.toNat, b.toNat] q = true ∧ (vec_0 4 (fun k => if (A k).toInt ≤ (B k).toInt then A k else B k))),
    decide (c.admits [d.toNat, a.toNat, b.toNat] q = true ∧ (vec_0 4 (fun k => if (A k).toInt ≤ (B k).toInt then B k else A k))),
    decide (c.admits [d.toNat, a.toNat, b.toNat] q = true ∧ (vec_0 4 (fun k => if (A k).toNat ≤ (B k).toNat then A k else B k))),
    decide (c.admits [d.toNat, a.toNat, b.toNat] q = true ∧ (vec_0 4 (fun k => if (A k).toNat ≤ (B k).toNat then B k else A k))),
    decide (c.admits [d.toNat, a.toNat, b.toNat] q = true ∧ (vec_0 4 (fun k => A k <<< (B k).toNat))),
    decide (c.admits [d.toNat, a.toNat, b.toNat] q = true ∧ (vec_0 4 (fun k => A k >>> (B k).toNat))),
    decide (c.admits [d.toNat, a.toNat, b.toNat] q = true ∧ (vec_0 4 (fun k => (A k).sshiftRight (B k).toNat))),
    decide (c.admits [d.toNat, a.toNat, b.toNat] q = true ∧ (vec_0 5 (fun k => A k <<< sh.toNat))),
    decide (c.admits [d.toNat, a.toNat, b.toNat] q = true ∧ (vec_0 5 (fun k => A k >>> sh.toNat))),
    decide (c.admits [d.toNat, a.toNat, b.toNat] q = true ∧ (vec_0 5 (fun k => (A k).sshiftRight sh.toNat))),
    decide (c.admits [d.toNat, a.toNat, b.toNat] q = true ∧ vec_0 4 A),
    decide (c.admits [d.toNat, a.toNat, b.toNat] q = true ∧ (vec_0 4 (fun k => A k * B k))),
    decide (c.admits [d.toNat, a.toNat, b.toNat] q = true ∧ (vec_0 4 (fun k => BitVec.ofInt n ((A k).toInt * (B k).toInt / 2 ^ n)))),
    decide (c.admits [d.toNat, a.toNat, b.toNat] q = true ∧ (vec_0 4 (fun k => D k + A k * B k))),
    decide (c.admits [d.toNat, a.toNat, b.toNat] q = true ∧ c.ew ≠ 2 ∧ asks s e 4 [] [] 0 0 none),
    decide (c.admits [d.toNat, a.toNat, b.toNat] q = true ∧ q.getLsbD 3 = true ∧ asks s e 4 [] [] 0 0 none) ]

theorem met_VectorIntegers : covers
    [ Met.VectorIntegers (vecState split0 2 0 0) 0 4 8 12 12 3 ] = true := by decide +kernel

def Met.VectorFloats (s : State) (e : Nat) (d a b q : BitVec 4) : List Bool :=
  let l := s.blk.lead e
  let c := s.blk.vcfg l
  [ decide (c.admits [d.toNat, a.toNat, b.toNat] q = true ∧ c.ew ≠ 2 ∧ asks s e 4 [] [] 0 0 none) ]

theorem met_VectorFloats : covers
    [ Met.VectorFloats (vecState split0 1 0 0) 0 4 8 12 8 ] = true := by decide +kernel

def Met.VectorComparisons (s : State) (e : Nat) (a b q : BitVec 4) (pd : BitVec 3) : List Bool :=
  let l := s.blk.lead e
  let c := s.blk.vcfg l
  [ decide (c.admits [a.toNat, b.toNat, pd.toNat] q = true ∧ asks s e 4 [] [] 0 0 none),
    decide (c.admits [a.toNat, b.toNat, pd.toNat] q = true ∧ c.ew ≠ 2 ∧ asks s e 4 [] [] 0 0 none) ]

theorem met_VectorComparisons : covers
    [ Met.VectorComparisons (vecState split0 2 0 0) 0 4 8 12 4 ] = true := by decide +kernel

def Met.Predicates (s : State) (e : Nat) (pd pa pb : BitVec 3) (y : Entry128) : List Bool :=
  let l := s.blk.lead e
  let c := s.blk.vcfg l
  let x := s.blk.curTask l
  let P := fun (r : BitVec 3) (j : Nat) => (x.preg (r.toNat + j / 16)).getLsbD (j % 16)
  let leaves_0 := fun (len : Nat) (ops res : List Entry128) (f : Nat → Bool) => decide (asks s e len ops [] (res).length 0 none)
  let n := Nat.min (y.setWidth 64).toNat c.elems
  [ decide (c.admits [pd.toNat, pa.toNat, pb.toNat] 0 = true ∧ (leaves_0 4 [] [] (fun j => P pa j && P pb j))),
    decide (c.admits [pd.toNat, pa.toNat, pb.toNat] 0 = true ∧ (leaves_0 4 [] [] (fun j => P pa j || P pb j))),
    decide (c.admits [pd.toNat, pa.toNat, pb.toNat] 0 = true ∧ (leaves_0 4 [] [] (fun j => P pa j != P pb j))),
    decide (c.admits [pd.toNat, pa.toNat, pb.toNat] 0 = true ∧ (leaves_0 4 [] [] (fun j => !(P pa j)))),
    decide (c.admits [pd.toNat, pa.toNat, pb.toNat] 0 = true ∧ (leaves_0 3 [] [] (fun _ => true))),
    decide (c.admits [pd.toNat, pa.toNat, pb.toNat] 0 = true ∧ (leaves_0 3 [y] [] (fun j => y.getLsbD j))),
    decide (c.admits [pd.toNat, pa.toNat, pb.toNat] 0 = true ∧
      (leaves_0 3 [y] [BitVec.ofNat 128 ((y.setWidth 64).toNat - n)] (fun j => decide (j / c.size < n)))),
    decide (c.admits [pd.toNat, pa.toNat, pb.toNat] 0 = true ∧ asks s e 3 [] [] 1 0 none) ]

theorem met_Predicates : covers
    [ Met.Predicates (withStk (vecState split0 0 0 0) 0 [3] []) 0 7 1 2 3 ] = true := by decide +kernel

def Met.VectorTransfersAndReductions (s : State) (e : Nat) (v q : BitVec 4) (x k : Entry128) : List Bool :=
  let l := s.blk.lead e
  let c := s.blk.vcfg l
  [ decide (c.admits [v.toNat] q = true ∧ asks s e 3 [x] [] 0 0 none),
    decide (c.admits [v.toNat] q = true ∧ asks s e 3 [k] [] 1 0 none),
    decide (c.admits [v.toNat] q = true ∧ asks s e 3 [k, x] [] 0 0 none),
    decide (c.admits [v.toNat] q = true ∧ asks s e 3 [] [] 1 0 none),
    decide (c.admits [v.toNat] q = true ∧ c.ew ≠ 2 ∧ asks s e 3 [] [] 1 0 none) ]

theorem met_VectorTransfersAndReductions : covers
    [ Met.VectorTransfersAndReductions (withStk (vecState split0 2 0 0) 0 [3, 3] []) 0 12 8 3 3 ] = true := by decide +kernel

def Met.VectorLoads (s : State) (e units : Nat) (v q i : BitVec 4) (x : Entry128) (under : List Entry128) : List Bool :=
  let b := s.blk
  let l := b.lead e
  let c := b.vcfg l
  let t := b.curTask l
  let z := c.size
  let a := x.toNat
  let act := (List.range c.elems).filter fun k => c.active t q k
  let goes_0 := fun (len f : Nat) (out : List Entry128) (addr : Nat → Nat → Nat) => decide (b.quiet e len = true ∧
      (b.elemsClear l .load z (act.flatMap fun k => (List.range f).map fun j => addr j k) = true))
  let resumed_0 := fun (len f : Nat) (addr : Nat → Nat → Nat) => decide (t.vix = 0 ∧ c.elems ≤ units ∧ b.twin (l / 2) = false ∧
      goes_0 len f [] addr)
  [ decide (c.admits [v.toNat, i.toNat] q = true ∧ (b.stackOf l false).cache = x :: under ∧ under.length < (b.stackOf l false).depth ∧
      (b.stackOf l true).fits 0 0 = true ∧ a % z = 0 ∧ (goes_0 3 1 [] (fun _ k => a + k * z))),
    decide (c.admits [v.toNat, i.toNat] q = true ∧ (b.stackOf l false).cache = x :: under ∧ under.length < (b.stackOf l false).depth ∧
      (b.stackOf l true).fits 0 0 = true ∧ a % z = 0 ∧ (goes_0 3 1 [x + BitVec.ofNat 128 (16 * c.g)] (fun _ k => a + k * z))),
    decide (c.admits [v.toNat, i.toNat] q = true ∧ (b.stackOf l false).cache = x :: under ∧ under.length < (b.stackOf l false).depth ∧
      (b.stackOf l true).fits 0 0 = true ∧ v.toNat + 2 * c.g ≤ 16 ∧ (resumed_0 3 2 (fun j k => a + (k * 2 + j) * z))),
    decide (c.admits [v.toNat, i.toNat] q = true ∧ (b.stackOf l false).cache = x :: under ∧ under.length < (b.stackOf l false).depth ∧
      (b.stackOf l true).fits 0 0 = true ∧ v.toNat + 3 * c.g ≤ 16 ∧ (resumed_0 3 3 (fun j k => a + (k * 3 + j) * z))),
    decide (c.admits [v.toNat, i.toNat] q = true ∧ (b.stackOf l false).cache = x :: under ∧ under.length < (b.stackOf l false).depth ∧
      (b.stackOf l true).fits 0 0 = true ∧ v.toNat + 4 * c.g ≤ 16 ∧ (resumed_0 3 4 (fun j k => a + (k * 4 + j) * z))),
    decide (c.admits [v.toNat, i.toNat] q = true ∧ (b.stackOf l false).cache = x :: under ∧ under.length < (b.stackOf l false).depth ∧
      (b.stackOf l true).fits 0 0 = true ∧ v ≠ i ∧
      ((List.range c.elems).all (fun k => decide (v.toNat + c.g ≤ i.toNat ∨ i.toNat + c.g ≤ v.toNat)) = true) ∧
      (resumed_0 4 1 (fun _ k => a + c.el t i k))) ]

theorem met_VectorLoads : covers
    [ Met.VectorLoads (withStk (vecState (engState false 0 fillData) 0 2 0) 0 [(0x20000:Entry128),7] []) 0 4096 0 (0:BitVec 4) 12 (0x20000:Entry128) [7] ] = true := by decide +kernel

def Met.VectorStores (s : State) (e units : Nat) (v q i : BitVec 4) (x : Entry128) (under : List Entry128) : List Bool :=
  let b := s.blk
  let l := b.lead e
  let c := b.vcfg l
  let t := b.curTask l
  let z := c.size
  let a := x.toNat
  let act := (List.range c.elems).filter fun k => c.active t q k
  let goes_0 := fun (len : Nat) (out : List Entry128) (addr : Nat → Nat) => decide (b.quiet e len = true ∧
      b.elemsClear l .store z (act.map addr) = true ∧ ((List.range c.elems).all (fun k => decide (place (addr k) = .scratch)) = true) ∧
      (∀ j ∈ act, ∀ k ∈ act, j ≠ k → addr j + z ≤ addr k ∨ addr k + z ≤ addr j))
  [ decide (c.admits [v.toNat, i.toNat] q = true ∧ (b.stackOf l false).cache = x :: under ∧ under.length < (b.stackOf l false).depth ∧
      (b.stackOf l true).fits 0 0 = true ∧ b.twin (l / 2) = false ∧ a % z = 0 ∧ (goes_0 3 [] (fun k => a + k * z))),
    decide (c.admits [v.toNat, i.toNat] q = true ∧ (b.stackOf l false).cache = x :: under ∧ under.length < (b.stackOf l false).depth ∧
      (b.stackOf l true).fits 0 0 = true ∧ b.twin (l / 2) = false ∧ a % z = 0 ∧
      (goes_0 3 [x + BitVec.ofNat 128 (16 * c.g)] (fun k => a + k * z))),
    decide (c.admits [v.toNat, i.toNat] q = true ∧ (b.stackOf l false).cache = x :: under ∧ under.length < (b.stackOf l false).depth ∧
      (b.stackOf l true).fits 0 0 = true ∧ b.twin (l / 2) = false ∧ t.vix = 0 ∧ c.elems ≤ units ∧
      (goes_0 4 [] (fun k => a + c.el t i k))) ]

theorem met_VectorStores : covers
    [ Met.VectorStores (withStk (vecState (engState false 0 fillData) 0 2 0) 0 [(0x20000:Entry128),7] []) 0 4096 0 8 12 (0x20000:Entry128) [7] ] = true := by decide +kernel

def Met.TaskCommands (s : State) (m e : Nat) : List Bool :=
  let b := s.blk
  let l := b.cfgEng e
  let t := b.rf (Reg.taskSel l) 0 6
  let c := b.task l t
  [ decide (e < 16 ∧ s.blk.grants m (Reg.taskCmd e) = true ∧ b.apart l = true ∧ c.st = .idle ∧ (b.task (l + 1) t).st = .idle),
    decide (e < 16 ∧ s.blk.grants m (Reg.taskCmd e) = true ∧ b.captured (l / 2) = false ∧
      (b.joined (l / 2) = true → (b.pair (l / 2)).phase = .live) ∧ b.apart l = false ∧ c.st = .idle),
    decide (e < 16 ∧ s.blk.grants m (Reg.taskCmd e) = true ∧ b.captured (l / 2) = false ∧
      (b.joined (l / 2) = true → (b.pair (l / 2)).phase = .live) ∧ b.apart l = false ∧ c.st = .ready),
    decide (e < 16 ∧ s.blk.grants m (Reg.taskCmd e) = true ∧ b.captured (l / 2) = false ∧
      (b.joined (l / 2) = true → (b.pair (l / 2)).phase = .live) ∧ b.apart l = false ∧ c.st = .waiting),
    decide (e < 16 ∧ s.blk.grants m (Reg.taskCmd e) = true ∧ b.captured (l / 2) = false ∧
      (b.joined (l / 2) = true → (b.pair (l / 2)).phase = .live) ∧ b.apart l = false ∧ c.st = .halted),
    decide (e < 16 ∧ s.blk.grants m (Reg.taskCmd e) = true ∧ b.captured (l / 2) = false ∧
      (b.joined (l / 2) = true → (b.pair (l / 2)).phase = .live) ∧ b.apart l = false ∧ c.st = .running ∧ (b.eng l).run = true ∧
      (b.eng l).cur = t ∧ (b.eng l).arith = none ∧ b.pl l ≠ 3 ∧ b.midInstr l = false),
    decide (e < 16 ∧ s.blk.grants m (Reg.taskCmd e) = true ∧ b.captured (l / 2) = false ∧
      (b.joined (l / 2) = true → (b.pair (l / 2)).phase = .live) ∧ b.apart l = false ∧ c.st ≠ .idle),
    decide (e < 16 ∧ s.blk.grants m (Reg.taskCmd e) = true ∧ b.captured (l / 2) = false ∧
      (b.joined (l / 2) = true → (b.pair (l / 2)).phase = .live) ∧ b.apart l = false ∧ c.st ≠ .halted) ]

theorem met_TaskCommands : covers
    [ Met.TaskCommands (romState 4 (fun b => (withTask TaskSt.ready b).setReg Reg.pairCfg 0xFD)) 0 2,
      Met.TaskCommands (romState 4 (fun b => (withTask TaskSt.idle b).setReg Reg.pairCfg 0xFD)) 0 2,
      Met.TaskCommands (romState 4 (fun b => ((withTask TaskSt.running b).setReg Reg.pairCfg 0xFD).setEng 2 { b.eng 2 with run := true, cur := 5})) 0 2,
      Met.TaskCommands (romState 4 (fun b => (withTask TaskSt.waiting b).setReg Reg.pairCfg 0xFD)) 0 2,
      Met.TaskCommands (romState 4 (fun b => (withTask TaskSt.halted b).setReg Reg.pairCfg 0xFD)) 0 2,
      Met.TaskCommands (romState 4 (fun b => (withTask TaskSt.idle b).setReg Reg.twin 2)) 0 2 ] = true := by decide +kernel

def Met.ContextCommands (s : State) (m e : Nat) : List Bool :=
  let b := s.blk
  let l := b.cfgEng e
  let t := b.rf (Reg.taskSel l) 0 6
  let i := b.rf (Reg.ctxIdx l) 0 12
  let c := b.task l t
  [ decide (e < 16 ∧ s.blk.grants m (Reg.ctxCmd e) = true ∧ (c.st = .idle ∨ c.st = .halted) ∧ i < 12 ∧ i < c.ds.length),
    decide (e < 16 ∧ s.blk.grants m (Reg.ctxCmd e) = true ∧ (c.st = .idle ∨ c.st = .halted) ∧ 0x10 ≤ i ∧ i < 0x1C ∧
      i - 0x10 < c.rs.length),
    decide (e < 16 ∧ s.blk.grants m (Reg.ctxCmd e) = true ∧ (c.st = .idle ∨ c.st = .halted) ∧ 0x20 ≤ i ∧ i < 0x30),
    decide (e < 16 ∧ s.blk.grants m (Reg.ctxCmd e) = true ∧ (c.st = .idle ∨ c.st = .halted) ∧ i = 0x40),
    decide (e < 16 ∧ s.blk.grants m (Reg.ctxCmd e) = true ∧ (c.st = .idle ∨ c.st = .halted) ∧ i = 0x801),
    decide (e < 16 ∧ s.blk.grants m (Reg.ctxCmd e) = true ∧ c.st ≠ .idle ∧ c.st ≠ .halted) ]

theorem met_ContextCommands : covers
    [ Met.ContextCommands (romState 4 (fun b => setRegs [(Reg.ctxIdx 2, 0), (Reg.ctxD 2 0, 0x12345678), (Reg.ctxD 2 3,
        0xFEDCBA98)] (withTask TaskSt.idle b))) 0 2,
      Met.ContextCommands (romState 4 (fun b => setRegs [(Reg.ctxIdx 2, 0x10), (Reg.ctxD 2 0, 0x12345678), (Reg.ctxD 2 3,
        0xFEDCBA98)] (withTask TaskSt.idle b))) 0 2,
      Met.ContextCommands (romState 4 (fun b => setRegs [(Reg.ctxIdx 2, 0x20), (Reg.ctxD 2 0, 0x12345678), (Reg.ctxD 2 3,
        0xFEDCBA98)] (withTask TaskSt.idle b))) 0 2,
      Met.ContextCommands (romState 4 (fun b => setRegs [(Reg.ctxIdx 2, 0x40), (Reg.ctxD 2 0, 0x12345678), (Reg.ctxD 2 3,
        0xFEDCBA98)] (withTask TaskSt.idle b))) 0 2,
      Met.ContextCommands (romState 4 (fun b => setRegs [(Reg.ctxIdx 2, 0x801), (Reg.ctxD 2 0, 0x12345678), (Reg.ctxD 2 3,
        0xFEDCBA98)] (withTask TaskSt.idle b))) 0 2,
      Met.ContextCommands (romState 4 (fun b => setRegs [(Reg.ctxIdx 2, 0), (Reg.ctxD 2 0, 0x12345678), (Reg.ctxD 2 3,
        0xFEDCBA98)] (withTask TaskSt.ready b))) 0 2 ] = true := by decide +kernel

def Met.RouterRegisters (s : State) (m e j k : Nat) (v : Word) (level : Bool) : List Bool :=
  let b := s.blk
  [ decide (b.grants m Reg.pendSet = true),
    decide (b.grants m Reg.pendClr = true),
    decide (e < 16 ∧ j < 4 ∧ b.grants m (Reg.lvlmap e j) = true),
    decide (e < 16 ∧ j < 8 ∧ b.grants m (Reg.bypmap e j) = true),
    decide (j < 32 ∧ b.reaches m (Reg.quar j) = true),
    decide (k < 768) ]

theorem met_RouterRegisters : covers
    [ Met.RouterRegisters (romState 4 (setRegs [(Reg.quar 0, 0x28), (Reg.quar 3, 0x20)])) 0 3 0 (0*200) 0x5 true ] = true := by decide +kernel

def Met.RouterSelects (s : State) (e n w : Nat) : List Bool :=
  let b := s.blk
  let l := b.lead e
  [ decide (b.mayRun l = true ∧ (b.eng l).sel = none ∧ ((List.range 1024).all (fun k => decide (b.candidate l k none = false)) = true)),
    (let t := (b.boundAt l (b.srcPrio n)).getD 0; decide (b.mayRun l = true ∧ (b.eng l).sel = none ∧ n < 1024 ∧
      b.candidate l n none = true ∧ b.boundAt l (b.srcPrio n) = some t ∧
      ((List.range 1024).all (fun k => decide (b.candidate l k none = true → b.srcPrio k < b.srcPrio n ∨ (b.srcPrio k = b.srcPrio n ∧
      n ≤ k))) = true) ∧ b.stormy n = true)),
    (let t := (b.boundAt l (b.srcPrio n)).getD 0; decide (b.mayRun l = true ∧ (b.eng l).sel = none ∧ n < 1024 ∧
      b.candidate l n none = true ∧ b.boundAt l (b.srcPrio n) = some t ∧
      ((List.range 1024).all (fun k => decide (b.candidate l k none = true → b.srcPrio k < b.srcPrio n ∨ (b.srcPrio k = b.srcPrio n ∧
      n ≤ k))) = true) ∧ b.stormy n = false ∧ b.preempts l t (b.srcPrio n) = true)),
    (let t := (b.boundAt l (b.srcPrio n)).getD 0; decide (b.mayRun l = true ∧ (b.eng l).sel = none ∧ n < 1024 ∧
      b.candidate l n none = true ∧ b.boundAt l (b.srcPrio n) = some t ∧
      ((List.range 1024).all (fun k => decide (b.candidate l k none = true → b.srcPrio k < b.srcPrio n ∨ (b.srcPrio k = b.srcPrio n ∧
      n ≤ k))) = true) ∧ b.stormy n = false ∧ b.preempts l t (b.srcPrio n) = false)) ]

theorem met_RouterSelects : covers
    [ Met.RouterSelects (romState 4 (withSource 300 0 3 5 0 0 true none)) 3 300 0,
      Met.RouterSelects (romState 4 (withSource 300 0 3 5 3 3 true none)) 3 300 0,
      Met.RouterSelects (romState 4 (withSource 300 0 3 5 0 0 false none)) 3 300 0,
      Met.RouterSelects (romState 4 (withSource 300 0 3 5 0 0 true (some 6))) 3 300 0 ] = true := by decide +kernel

def Met.DispatchRunsHighestRank (s : State) (e t : Nat) : List Bool :=
  let b := s.blk
  let l := b.lead e
  let x := b.eng l
  let c := b.task l t
  [ decide (b.mayRun l = true ∧ x.halted = false ∧ x.sel = none ∧ (x.run = true → b.pl l ≠ 3 ∧ x.waitM = none ∧ b.midInstr l = false ∧
      x.arith = none ∧ b.rank l x.cur < b.rank l t) ∧ t < 64 ∧ x.cur < 64 ∧ c.st = .ready ∧ c.held = [] ∧
      ((List.range 64).all (fun u => decide (u ≠ t → (b.task l u).st = .ready → b.rank l u < b.rank l t)) = true) ∧ c.wait = none) ]

theorem met_DispatchRunsHighestRank : covers
    [ Met.DispatchRunsHighestRank (romState 4 (twoReady none)) 3 5 ] = true := by decide +kernel

def Met.WakesAndReports (s : State) (e t n : Nat) : List Bool :=
  let b := s.blk
  let l := b.lead e
  let x := b.eng l
  let c := b.task l t
  [ decide (c.st = .waiting ∧ (c.wait.any fun k => k == .waitt || (c.ds.headD 0).setWidth 64 != 0) ∧
      (c.ds.headD 0).setWidth 64 ≤ b.tb.cnt ∧ (b.joined (l / 2) = true → (b.pair (l / 2)).phase = .live) ∧ b.captured (l / 2) = false),
    decide (b.offer n = some (l, t) ∧ b.closed l = false ∧ b.accepts l t = true ∧
      ((List.range n).all (fun k => decide (b.offer k ≠ some (l, t))) = true) ∧ b.captured (l / 2) = false ∧ b.drive.wait = none),
    (let a := x.arith.getD { conds := 1, addr := 0, issued := 0 }; decide (b.mayRun l = true ∧ x.run = true ∧ x.arith = some a ∧
      x.waitM = none ∧ b.midInstr l = false ∧ b.calm l = true)) ]

theorem met_WakesAndReports : covers
    [ Met.WakesAndReports (romState 4 (waitingTask (samplePort true) WaitKind.wfe)) 3 5 2,
      Met.WakesAndReports (engState false 0 (fun b => b.setEng 0 { b.eng 0 with arith := some { conds := 1, addr := 0x1234, issued := 3 }, delegLive := 0, svecLive := 0x4000 })) 0 5 2 ] = true := by decide +kernel

def Met.TimebaseEdge (s : State) : List Bool :=
  let b := s.blk
  let inc : Nat := b.rf Reg.incNs 0 8 * 2 ^ 32 + (b.reg Reg.incFrac).toNat
  let adj := (inc : Int) + (inc : Int) * (b.reg Reg.rateAdj).toInt / 2 ^ 32
  let step : Int := if b.tb.slew < 0 then max b.tb.slew (-(inc / 16 : Nat)) else min b.tb.slew (inc / 16 : Nat)
  let sum := ((b.tb.cnt.toNat * 2 ^ 32 + b.tb.frac.toNat : Nat) : Int) + adj + step
  [ decide (b.tbRuns = true ∧ 0 ≤ adj ∧ 0 ≤ sum ∧ sum < 2 ^ 96) ]

theorem met_TimebaseEdge : covers
    [ Met.TimebaseEdge (romState 4 (fun b => { setRegs [(Reg.incNs, 10), (Reg.incFrac, 0x1234), (Reg.rateAdj, 0)] b with tb := { b.tb with cnt := 995, frac := 77, slew := 0 } })) ] = true := by decide +kernel

def Met.TimebaseRegisters (s : State) (m : Nat) (v : Word) : List Bool :=
  let b := s.blk
  [ decide (b.grants m Reg.tbCtrl = true),
    decide (b.grants m Reg.offsetAdj = true),
    decide (b.grants m Reg.rateAdj = true),
    decide (b.grants m Reg.incNs = true),
    decide (b.grants m Reg.incFrac = true),
    decide (b.shows m Reg.timeLo = true) ]

theorem met_TimebaseRegisters : covers
    [ Met.TimebaseRegisters (romState 2 (setRegs [(Reg.timeSetHi,7),(Reg.timeSetLo,9)])) 0 0x5 ] = true := by decide +kernel

def Met.TimebaseEvents (s : State) (rate : BitVec 12) (pace : BitVec 3) : List Bool :=
  let b := s.blk
  [ decide (b.tb.due = none),
    (let p := b.tb.due.getD 0; decide (b.tb.due = some p ∧ p < 8)) ]

theorem met_TimebaseEvents : covers
    [ Met.TimebaseEvents (romState 2) 0 3,
      Met.TimebaseEvents (romState 4 (fun b => { setRegs [(Reg.stepmeterMin, 1600)] b with tb := { b.tb with due := (some 3) } })) 1400 2 ] = true := by decide +kernel

def Met.ModesEntered (s : State) (m : Nat) : List Bool :=
  let b := s.blk
  [ decide (s.blk.grants m Reg.modeReq = true ∧ 2 ≤ b.sys.base ∧ b.sys.base ≠ 0xA ∧ b.sys.hold = false),
    decide (s.blk.grants m Reg.modeReq = true ∧ b.mode = 9 ∧ b.sys.base ≠ 0xA ∧ b.reg (regKey pgSafety Reg.hFault) = 0),
    decide (s.blk.grants m Reg.modeReq = true ∧ b.mode = 3 ∧ b.runBarred = false ∧ (b.rb Reg.mcfgReg 0 = true → b.peered = true)) ]

theorem met_ModesEntered : covers
    [ Met.ModesEntered (romState 9 (fun b => let b := { b with sys := { b.sys with hold := false } }; if false then b.setReg Reg.mode 9 else b)) 0,
      Met.ModesEntered (romState 3 (fun b => { setRegs [(Reg.pairCfg, 0), (Reg.mcfgReg, 0)] b with sys := { b.sys with hold := false } })) 0 ] = true := by decide +kernel

def Met.ModesRefused (s : State) (m : Nat) : List Bool :=
  let b := s.blk
  [ decide (s.blk.grants m Reg.modeReq = true ∧ (b.sys.base < 2 ∨ b.sys.base = 0xA ∨ b.sys.hold = true)),
    decide (s.blk.grants m Reg.modeReq = true ∧ (b.mode ≠ 9 ∨ b.reg (regKey pgSafety Reg.hFault) ≠ 0)),
    decide (s.blk.grants m Reg.modeReq = true ∧ (b.mode ≠ 3 ∨ b.runBarred = true ∨ (b.rb Reg.mcfgReg 0 = true ∧ b.peered = false))) ]

theorem met_ModesRefused : covers
    [ Met.ModesRefused (romState 2 (fun b => let b := { b with sys := { b.sys with hold := false } }; if false then b.setReg Reg.mode 9 else b)) 0,
      Met.ModesRefused (romState 2 (fun b => let b := { b with sys := { b.sys with hold := true } }; if true then b.setReg Reg.mode 9 else b)) 0 ] = true := by decide +kernel

def Met.ConfigureOnly (s : State) (m i : Nat) (v : Word) : List Bool :=
  let b := s.blk
  [ decide (i < 64 ∧ b.grants m Reg.nodeId = true ∧ b.inConfig = true),
    decide (i < 64 ∧ b.grants m Reg.nodeId = true ∧ b.inConfig = false),
    decide (i < 64 ∧ b.grants m (Reg.seg i) = true ∧ b.inConfig = true),
    decide (i < 64 ∧ b.grants m (Reg.seg i) = true ∧ b.inConfig = false) ]

theorem met_ConfigureOnly : covers
    [ Met.ConfigureOnly (romState 2 (fun b => { b with sys := { b.sys with hold := false } })) 0 0 0xFFFFF7FF,
      Met.ConfigureOnly (romState 3 (fun b => { b with sys := { b.sys with hold := false } })) 0 0 0xFFFFF7FF ] = true := by decide +kernel

def Met.ResetSources (s : State) (m : Nat) (core memOk : Bool) (v : Word) : List Bool :=
  let b := s.blk
  [ decide (b.sys.base ≠ 0 ∧ b.sec.rstLow = false),
    decide (b.sys.base ≠ 0 ∧ b.sec.porLow = false),
    decide (2 ≤ b.sys.base ∧ b.sys.base ≠ 0xA ∧ (¬ (core = true ∧ memOk = true))),
    decide (b.grants 18 Reg.hcmd = true ∧ b.hst.cmd = none ∧ b.rb Reg.hres 0 = false ∧ b.rb Reg.hcfg 4 = true),
    decide (m < 16 ∧ b.grants m Reg.rstReqReg = true ∧ b.pageLevel m 0x0A0 = some 3 ∧ fld v 0 16 = 0x5A5A),
    decide (b.sys.base ≠ 0),
    decide (b.tstAllowed = true ∧ b.sec.test = false ∧ b.sys.base ≠ 0),
    decide (b.sec.test = true) ]

theorem met_ResetSources : covers
    [ Met.ResetSources (romState 2 (fun b => { (setRegs [(Reg.hcfg, 0x13), (Reg.rstCnt, 0xFFFF)] b).setByte 0x99 4 with sec := { b.sec with test := false } })) 0 false (2 > 3) 0x5A5A,
      Met.ResetSources (romState 0 (fun b => { (setRegs [(Reg.hcfg, 0x13), (Reg.rstCnt, 0xFFFF)] b).setByte 0x99 4 with sec := { b.sec with test := true } })) 0 true (0 > 3) 0x5A5A ] = true := by decide +kernel

def Met.ReleaseAndBoot (s : State) (i : Nat) (v : Word) : List Bool :=
  let b := s.blk
  [ decide (b.sys.base = 0),
    decide (b.sys.base = 1 ∧ b.sec.phase = 0 ∧ b.sec.rstLow = false ∧ b.sec.porLow = false),
    decide (b.sys.base = 1 ∧ b.sec.phase = 1 ∧ b.sec.next = i ∧ i < 64),
    decide (b.sys.base = 1 ∧ b.sec.phase = 1 ∧ b.sec.next = 64 ∧ b.sec.test = true),
    decide (b.sys.base = 1 ∧ b.sec.phase = 1 ∧ b.sec.next = 64 ∧ b.sec.test = false ∧ b.rb Reg.dbgCtrl 1 = false ∧
      b.rb (Reg.mbOutstat 0) 31 = false) ]

theorem met_ReleaseAndBoot : covers
    [ Met.ReleaseAndBoot (onReset (fun b => let b := inReset 0 0 false b; { b with sec := { b.sec with test := false } })) 0 0x1234,
      Met.ReleaseAndBoot (onReset (fun b => let b := inReset 1 0 false b; { b with sec := { b.sec with test := false } })) 0 0x1234,
      Met.ReleaseAndBoot (onReset (fun b => let b := inReset 1 64 false b; { b with sec := { b.sec with test := false } })) 64 0x1234,
      Met.ReleaseAndBoot (onReset (fun b => let b := inReset 1 64 false b; { b with sec := { b.sec with test := true } })) 64 0x1234,
      Met.ReleaseAndBoot (onReset (fun b => { b with sys := {base := 0}, sec := { b.sec with phase := 0, rstLow := 0 == 0 } })) 0 0x1234 ] = true := by decide +kernel

def Met.BootCommands (s : State) : List Bool :=
  let b := s.blk
  let r := b.imgResult
  [ decide (b.romRuns = true ∧ b.sec.ready = true ∧ b.sys.hold = false ∧ b.rb (Reg.mbOutstat 0) 31 = false ∧ b.sec.busy = false ∧
      b.rb (Reg.mbInstat 0) 31 = true ∧ b.isLoad = true),
    decide (b.romRuns = true ∧ b.sec.ready = true ∧ b.sys.hold = false ∧ b.rb (Reg.mbOutstat 0) 31 = false ∧ b.sec.busy = false ∧
      b.rb (Reg.mbInstat 0) 31 = true ∧ b.isLoad = false),
    decide (b.romRuns = true ∧ b.sec.ready = true ∧ b.sys.hold = false ∧ b.rb (Reg.mbOutstat 0) 31 = false ∧ b.sec.busy = true ∧
      b.imgFormat = false),
    decide (b.romRuns = true ∧ b.sec.ready = true ∧ b.sys.hold = false ∧ b.rb (Reg.mbOutstat 0) 31 = false ∧ b.sec.busy = true ∧
      b.imgFormat = true ∧ b.lifecycle = 0),
    decide (b.romRuns = true ∧ b.sec.ready = true ∧ b.sys.hold = false ∧ b.rb (Reg.mbOutstat 0) 31 = false ∧ b.sec.busy = true ∧ r ≠ 0 ∧
      b.sec.fails + 1 < b.bootTries ∧ b.sec.tmo = false),
    decide (b.romRuns = true ∧ b.sec.ready = true ∧ b.sys.hold = false ∧ b.rb (Reg.mbOutstat 0) 31 = false ∧ b.sec.busy = true ∧ r ≠ 0 ∧
      b.bootTries ≤ b.sec.fails + 1),
    decide (b.romRuns = true ∧ b.sec.ready = true ∧ b.sys.hold = false ∧ b.rb (Reg.mbOutstat 0) 31 = false ∧ b.sec.busy = true ∧ r = 0 ∧
      b.anyHalted = false),
    decide (b.romRuns = true ∧ b.sec.ready = true ∧ b.sys.hold = false ∧ b.rb (Reg.mbOutstat 0) 31 = false ∧ b.rb Reg.bootStat 12 = false ∧
      fld (b.fuse 10) 8 8 ≠ 0 ∧ b.sec.tmo = false ∧ b.sec.busy = false) ]

theorem met_BootCommands : covers
    [ Met.BootCommands (bootState false 0x80000001 1 0 true [(10, 0xFF00)]),
      Met.BootCommands (bootState true 0 1 0 true []),
      Met.BootCommands (bootState true 0 1 0 false []),
      Met.BootCommands (bootState false 0x80000001 2 0 true []),
      Met.BootCommands (bootState true 0 1 3 false []) ] = true := by decide +kernel

def Met.FuseCommands (s : State) (m : Nat) (v : Word) : List Bool :=
  let b := s.blk
  let mach := m < 16 ∧ b.pageLevel m 0x0A0 = some 3 ∧ b.sec.prog = none ∧ b.sec.progLow = false
  let t := fld v 0 3
  let n := fld v 0 6
  [ decide (b.grants m Reg.fuseProgReg = true ∧ mach ∧ b.lifecycle = 0),
    decide (b.grants m Reg.fuseProgReg = true ∧ (¬ mach ∨ b.lifecycle ≠ 0)),
    decide (b.grants m Reg.lcAdvReg = true ∧ mach ∧ b.lifecycle < t ∧ t ≤ 3 ∧ fld v 16 16 = 0xC3C3),
    decide (b.grants m Reg.lcAdvReg = true ∧ (¬ mach ∨ t ≤ b.lifecycle ∨ 3 < t ∨ fld v 16 16 ≠ 0xC3C3)),
    decide (b.grants m Reg.arbSetReg = true ∧ mach ∧ b.mode = 3 ∧ b.arbFused ≤ n ∧ n ≤ 32 ∧ n ≤ b.rf Reg.secVer 0 6),
    decide (b.grants m Reg.arbSetReg = true ∧ (¬ mach ∨ b.mode ≠ 3 ∨ n < b.arbFused ∨ 32 < n ∨ b.rf Reg.secVer 0 6 < n)),
    decide (b.sec.prog ≠ none) ]

theorem met_FuseCommands : covers
    [ Met.FuseCommands (romState 2 (fun b => { b.setReg Reg.secVer 3 with sec := { b.sec with shadow := [], prog := (some (3,5)) } })) 0 0,
      Met.FuseCommands (romState 3 (fun b => { b.setReg Reg.secVer 3 with sec := { b.sec with shadow := [], prog := none } })) 0 0xC3C30001 ] = true := by decide +kernel

def Met.KeyCommands (s : State) (m : Nat) : List Bool :=
  let b := s.blk
  let k := b.rf Reg.ksel 0 5
  [ decide (b.grants m Reg.kcmd = true ∧ b.rb (Reg.kstat k) 1 = true),
    decide (b.grants m Reg.kcmd = true ∧ b.rb (Reg.kstat k) 1 = false ∧ b.rb (Reg.kstat k) 2 = false ∧ b.mirKeysOk = true),
    decide (b.grants m Reg.kcmd = true ∧ b.rb (Reg.kstat k) 1 = false ∧ b.rb (Reg.kstat k) 2 = false),
    decide (b.grants m Reg.kcmd = true ∧ b.rb (Reg.kstat k) 1 = false ∧ (b.lifecycle = 1 ∨ b.lifecycle = 2)),
    decide (b.grants m Reg.kcmd = true ∧ b.rb (Reg.kstat k) 1 = false),
    decide (b.grants m Reg.kcmd = true),
    decide (b.sec.keyCmd = true) ]

theorem met_KeyCommands : covers
    [ Met.KeyCommands (romState 4 (fun b => { setRegs [(Reg.kstat 5, BitVec.ofNat 32 0), (Reg.ksel, 5), (Reg.kdata 0, 7), (Reg.ksalt 1, 9)] b with keys := [(5, ⟨[1],[2]⟩), (6, ⟨[3],[4]⟩)], sec := { b.sec with shadow := [(8,1)], keyCmd := true } })) 0,
      Met.KeyCommands (romState 4 (fun b => { setRegs [(Reg.kstat 5, BitVec.ofNat 32 2), (Reg.ksel, 5), (Reg.kdata 0, 7), (Reg.ksalt 1, 9)] b with keys := [(5, ⟨[1],[2]⟩), (6, ⟨[3],[4]⟩)], sec := { b.sec with shadow := [], keyCmd := true } })) 0 ] = true := by decide +kernel

def Met.MemoryTest (s : State) (sel : BitVec 8) (fail : Bool) : List Bool :=
  let b := s.blk
  [ decide (b.sec.tstOk = true ∧ (sel.toNat ≤ 132 ∨ sel = 255)),
    decide (b.sec.mbist ≠ none) ]

theorem met_MemoryTest : covers
    [ Met.MemoryTest (romState 1 (fun b => { b with sec := { b.sec with tstOk := true, mbist := if 0 < 10 then some 3 else none } })) 0 true ] = true := by decide +kernel

def Met.HostRequests (s : State) (addr : BitVec 40) (n : Nat) (tag : BitVec 6) (d : BitVec 128) (be dcrc crc : BitVec 16) : List Bool :=
  let b := s.blk
  let a := addr.toNat / 4 * 4
  let rsound := crc16 (toLe 5 a ++ [BitVec.ofNat 8 (16 * (n - 1)), BitVec.ofNat 8 tag.toNat]) = crc
  let wsound := crc16 (toLe 5 a ++ [0x80, BitVec.ofNat 8 tag.toNat]) = crc ∧ crc16 (toLe 16 d.toNat ++ toLe 2 be.toNat) = dcrc
  [ decide (b.hostOn = true ∧ b.hostBusy = false ∧ b.hst.q = [] ∧ wsound ∧ a + 16 ≤ 0x1800000 ∧ b.sys.base ≠ 7 ∧ (∀ r,
      r ∈ beatRuns a d be 16 0 none → b.mCheck 18 none .store r.1 r.2.length b.hpl = none)),
    decide (b.hostOn = true ∧ b.hostBusy = false ∧ b.hst.q = [] ∧ rsound ∧ a + 16 * n ≤ 0x1800000 ∧
      ((List.range n).all (fun i => decide (b.mCheck 18 none .load (a + 16 * i) 16 b.hpl = none)) = true) ∧ (∀ j,
      a ≤ j → j < a + 16 * n → b.eccAt j = 0)),
    decide (b.hostOn = true ∧ b.hostBusy = false ∧ b.hst.q = [] ∧ ¬ rsound),
    decide (b.hostOn = true ∧ b.hostBusy = false ∧ b.hst.q = [] ∧ ¬ wsound),
    decide (b.hostOn = true ∧ b.hostBusy = true ∧ b.hostOwed < 16),
    decide ((b.hostOn = false ∨ 16 ≤ b.hostOwed)) ]

theorem met_HostRequests : covers
    [ (let A := (0:BitVec 40).toNat / 4 * 4; Met.HostRequests (romState 2 hostRegion) (0:BitVec 40) 0 7 0x0123456789ABCDEFFEDCBA9876543210 (0:BitVec 16) (if 0 = 2 then 9 else crc16 (toLe 16 0x0123456789ABCDEFFEDCBA9876543210 ++ toLe 2 (0:BitVec 16).toNat)) (if 0 = 0 then crc16 (toLe 5 A ++ [0x80, 7]) else crc16 (toLe 5 A ++ [BitVec.ofNat 8 (16 * (0 - 1)), 7]))),
      (let A := (0:BitVec 40).toNat / 4 * 4; Met.HostRequests (romState 2 hostRegion) (0:BitVec 40) 0 7 0x0123456789ABCDEFFEDCBA9876543210 (0:BitVec 16) (if 1 = 2 then 9 else crc16 (toLe 16 0x0123456789ABCDEFFEDCBA9876543210 ++ toLe 2 (0:BitVec 16).toNat)) (if 1 = 0 then crc16 (toLe 5 A ++ [0x80, 7]) else crc16 (toLe 5 A ++ [BitVec.ofNat 8 (16 * (0 - 1)), 7]))),
      Met.HostRequests (romState (3 - 0) (fun b => let b := hostRegion b; { b with hst := { b.hst with q := List.replicate 0 { write := false, addr := 0, beats := 1, data := [], tag := 7, crc := 0 } }, jobs := [{ id := 0, who := .host none, write := true, addr := 0, len := 16, left := [], data := [], bad := none }] })) 0 1 7 0x0123456789ABCDEFFEDCBA9876543210 0xFFFF 0 0,
      Met.HostRequests (romState (3 - 0) (fun b => let b := hostRegion b; { b with hst := { b.hst with q := List.replicate 16 { write := false, addr := 0, beats := 1, data := [], tag := 7, crc := 0 } }, jobs := [{ id := 0, who := .host none, write := true, addr := 0, len := 16, left := [], data := [], bad := none }] })) 0 1 7 0x0123456789ABCDEFFEDCBA9876543210 0xFFFF 0 0 ] = true := by decide +kernel

def Met.HostPins (s : State) : List Bool :=
  let b := s.blk
  [ decide (2 ≤ b.sys.base ∧ b.sys.hold = false) ]

theorem met_HostPins : covers
    [ Met.HostPins (romState 2) ] = true := by decide +kernel

def Met.HostCommands (s : State) (svc : BitVec 4) (arg : BitVec 16) (a28 : BitVec 28) : List Bool :=
  let b := s.blk
  let named := 1 ≤ svc.toNat ∧ svc.toNat ≤ 4
  [ decide (b.grants 18 Reg.hcmd = true ∧ b.hst.cmd = none ∧ b.rb Reg.hres 0 = false),
    decide (b.grants 18 Reg.hcmd = true ∧ b.hst.cmd = none ∧ b.rb Reg.hres 0 = false ∧ named ∧ b.rb Reg.hcfg 2 = true ∧ b.svcMode = true),
    decide (b.grants 18 Reg.hcmd = true ∧ b.hst.cmd = none ∧ b.rb Reg.hres 0 = false ∧ named ∧ b.rb Reg.hcfg 2 = false),
    decide (b.grants 18 Reg.hcmd = true ∧ b.hst.cmd = none ∧ b.rb Reg.hres 0 = false ∧ ¬ named),
    decide (b.grants 18 Reg.hcmd = true ∧ b.hst.cmd = none ∧ b.rb Reg.hres 0 = false ∧ b.sys.hold = false),
    decide (b.grants 18 Reg.hcmd = true ∧ b.hst.cmd = none ∧ b.rb Reg.hres 0 = false ∧ b.rb Reg.hcfg 3 = false),
    decide (b.grants 18 Reg.hcmd = true ∧ b.hst.cmd = none ∧ b.rb Reg.hres 0 = false ∧ b.rb Reg.hcfg 3 = true ∧ b.denyWhy = 0),
    decide (b.grants 18 Reg.hcmd = true ∧ b.hst.cmd = none ∧ b.rb Reg.hres 0 = false ∧ b.rb Reg.hcfg 3 = true ∧ b.denyWhy ≠ 0),
    decide (b.grants 18 Reg.hcmd = true ∧ b.hst.cmd = none ∧ b.rb Reg.hres 0 = false ∧ b.sys.base = 7 ∧ b.mode = 7 ∧ b.sys.hold = false ∧
      b.rb Reg.mstat 1 = true ∧ b.mir.taking = false),
    decide (b.grants 18 Reg.hcmd = true ∧ b.hst.cmd = none ∧ b.rb Reg.hres 0 = false ∧ b.sys.base ≠ 7),
    decide (b.grants 18 Reg.hcmd = true ∧ b.hst.cmd = none ∧ b.rb Reg.hres 0 = false ∧ arg ≠ 0x5A5A),
    decide (b.grants 18 Reg.hcmd = true ∧ b.rb Reg.hres 0 = true),
    (let st := (b.hst.cmd.getD (0, true)).1; decide (b.hst.cmd = some (st, true) ∧ st < 8)),
    decide (b.reaches 18 Reg.hres = true) ]

theorem met_HostCommands : covers
    [ Met.HostCommands (romState 2 (fun b => { setRegs [(Reg.hcfg, 3 + 0), (Reg.hres, 0)] b with hst := { b.hst with cmd := none } })) 0 0x1234 0xABCDEF,
      Met.HostCommands (romState 2 (fun b => { setRegs [(Reg.hcfg, 3 + 0), (Reg.hres, 1)] b with hst := { b.hst with cmd := (some (0,true)) } })) 0 0x1234 0xABCDEF,
      Met.HostCommands (romState 2 (fun b => { setRegs [(Reg.hcfg, 3 + 8), (Reg.hres, 0)] b with hst := { b.hst with cmd := none } })) 1 0x1234 0xABCDEF,
      Met.HostCommands (romState 4 (fun b => { setRegs [(Reg.hcfg, 3 + 0x1C), (Reg.hres, 0)] b with hst := { b.hst with cmd := none } })) 1 0x1234 0xABCDEF,
      Met.HostCommands (romState 7 (fun b => (setRegs [(Reg.hcfg, 0x1F), (Reg.mstat, 2)] b).setF (Reg.gstat 0) 2 2 0)) 1 0x5A5A 0xABCDEF ] = true := by decide +kernel

def Met.Mailboxes (s : State) (m k : Nat) (len : BitVec 7) : List Bool :=
  let b := s.blk
  [ decide (k < 16 ∧ 1 ≤ len.toNat ∧ len.toNat ≤ 64 ∧ b.grants 18 (Reg.mbInpostReg k) = true ∧ b.rb (Reg.mbInstat k) 31 = false ∧
      b.rb (Reg.mbCtrl k) 1 = true),
    decide (k < 16 ∧ 1 ≤ len.toNat ∧ len.toNat ≤ 64 ∧ b.grants 18 (Reg.mbInpostReg k) = true ∧
      (b.rb (Reg.mbInstat k) 31 = true ∨ b.rb (Reg.mbCtrl k) 1 = false)),
    decide (k < 16 ∧ 1 ≤ len.toNat ∧ len.toNat ≤ 64 ∧ m ≠ 18 ∧ b.reaches m (Reg.mbInstat k) = true),
    decide (k < 16 ∧ 1 ≤ len.toNat ∧ len.toNat ≤ 64 ∧ m ≠ 18 ∧ b.grants m (Reg.mbOutpostReg k) = true ∧ b.sys.hold = false ∧
      b.sys.base ≠ 7 ∧ b.rb (Reg.mbOutstat k) 31 = false),
    decide (k < 16 ∧ 1 ≤ len.toNat ∧ len.toNat ≤ 64 ∧ m ≠ 18 ∧ b.grants m (Reg.mbOutpostReg k) = true ∧ b.sys.hold = false ∧
      b.sys.base ≠ 7 ∧ b.rb (Reg.mbOutstat k) 31 = true),
    decide (k < 16 ∧ 1 ≤ len.toNat ∧ len.toNat ≤ 64 ∧ m ≠ 18 ∧ b.grants m (Reg.mbOutpostReg k) = true ∧ b.sys.hold = true),
    decide (k < 16 ∧ 1 ≤ len.toNat ∧ len.toNat ≤ 64 ∧ b.reaches 18 (Reg.mbOutstat k) = true ∧ b.rb (Reg.mbOutstat k) 31 = true) ]

theorem met_Mailboxes : covers
    [ Met.Mailboxes (romState 2 (fun b => setRegs [(Reg.hcfg, 3), (Reg.mbCtrl 3, BitVec.ofNat 32 (0 + 0)), (Reg.mbInstat 3,
        BitVec.ofNat 32 0x80000007), (Reg.mbOutstat 3,
        BitVec.ofNat 32 0x80000007)] { b with sys := { b.sys with hold := 2 == 2 } })) 0 3 1,
      Met.Mailboxes (romState 4 (fun b => setRegs [(Reg.hcfg, 3), (Reg.mbCtrl 3, BitVec.ofNat 32 (2 + 0)), (Reg.mbInstat 3,
        BitVec.ofNat 32 0), (Reg.mbOutstat 3, BitVec.ofNat 32 0)] { b with sys := { b.sys with hold := 4 == 2 } })) 0 3 1,
      Met.Mailboxes (romState 4 (fun b => setRegs [(Reg.hcfg, 3), (Reg.mbCtrl 3, BitVec.ofNat 32 (0 + 0)), (Reg.mbInstat 3,
        BitVec.ofNat 32 0x80000007), (Reg.mbOutstat 3,
        BitVec.ofNat 32 0x80000007)] { b with sys := { b.sys with hold := 4 == 2 } })) 0 3 1 ] = true := by decide +kernel

def Met.SleepAndWake (s : State) (m ns kind : Nat) (v : Word) (level : Bool) : List Bool :=
  let b := s.blk
  [ decide (b.grants m Reg.sleepCmd = true ∧ tbit v 0 = true ∧ b.rb Reg.pwrStat 8 = false ∧ b.denyWhy = 0),
    decide (b.grants m Reg.sleepCmd = true ∧ tbit v 0 = true ∧ b.rb Reg.pwrStat 8 = false ∧ b.denyWhy ≠ 0),
    decide (b.rb Reg.pwrStat 8 = true ∧ (b.mode = 4 ∨ b.mode = 5) ∧ b.sys.hold = false ∧ b.drained = true),
    decide (b.rb Reg.pwrStat 8 = true),
    decide (b.sys.base = 0xA ∧ b.rb Reg.pwrStat 8 = false ∧ b.wakeHolds kind = true ∧ b.pow.phase = 1),
    decide (b.sys.base = 0xA ∧ b.rb Reg.pwrStat 8 = false ∧ b.pow.phase = 2 ∧ b.pow.vack = true),
    decide (b.sys.base = 0xA ∧ b.rb Reg.pwrStat 8 = false ∧ b.pow.phase = 2 ∧ b.pow.vack = false),
    decide (b.sys.base = 0xA ∧ b.rb Reg.pwrStat 8 = false ∧ b.pow.phase = 3 ∧ (b.engines.all fun x => !x.2.haltReq)),
    decide (b.pow.late = false),
    decide (b.pow.late = true ∧ b.pow.phase = 2) ]

theorem met_SleepAndWake : covers
    [ Met.SleepAndWake (romState 4 (fun b => setRegs [(Reg.pwrStat, 0x100), (Reg.pcfg,
        BitVec.ofNat 32 (8*0)),(Reg.pairCfg,0)] (b.setEng 0 { b.eng 0 with run := false }))) 0 7 3 1 true,
      Met.SleepAndWake (romState 0xA (fun b => { setRegs [(Reg.pcfg, BitVec.ofNat 32 (8*0+16*0)),(Reg.pairCfg,0)] (b.setEng 0 { b.eng 0 with run := false }) with pow := { phase := 2, vack := true, late := true, slept := [3,4] } })) 0 7 4 1 true,
      Met.SleepAndWake (romState 4 (fun b => setRegs [(Reg.pwrStat, 0), (Reg.pcfg,
        BitVec.ofNat 32 (8*0)),(Reg.pairCfg,0)] (b.setEng 0 { b.eng 0 with run := false }))) 0 7 3 1 true,
      Met.SleepAndWake (romState 3 (fun b => setRegs [(Reg.pwrStat, 0), (Reg.pcfg,
        BitVec.ofNat 32 (8*0)),(Reg.pairCfg,0)] (b.setEng 0 { b.eng 0 with run := false }))) 0 7 3 1 true,
      Met.SleepAndWake (romState 0xA (fun b => { setRegs [(Reg.pcfg, BitVec.ofNat 32 (8*1+16*1)),(Reg.pairCfg,0)] (b.setEng 0 { b.eng 0 with run := false }) with pow := { phase := 1, vack := true, late := true, slept := [3,4] } })) 0 7 4 1 true,
      Met.SleepAndWake (romState 0xA (fun b => { setRegs [(Reg.pcfg, BitVec.ofNat 32 (8*0+16*0)),(Reg.pairCfg,0)] (b.setEng 0 { b.eng 0 with run := false }) with pow := { phase := 2, vack := false, late := true, slept := [3,4] } })) 0 7 4 1 true,
      Met.SleepAndWake (romState 0xA (fun b => { setRegs [(Reg.pcfg, BitVec.ofNat 32 (8*0+16*0)),(Reg.pairCfg,0)] (b.setEng 0 { b.eng 0 with run := false }) with pow := { phase := 3, vack := true, late := true, slept := [3,4] } })) 0 7 4 1 true ] = true := by decide +kernel

def Met.Pacing (s : State) (code : BitVec 4) (cap : BitVec 2) (k : Nat) (level : Bool) : List Bool :=
  let b := s.blk
  [ decide (b.pow.cap ≤ 2 ∧ b.rf Reg.pcfg 0 2 ≤ 2),
    decide (b.pow.cap ≤ 2 ∧ b.rf Reg.pcfg 0 2 ≤ 2 ∧ k < 4 ∧ b.pow.code.getLsbD k = false),
    decide (b.pow.cap ≤ 2 ∧ b.rf Reg.pcfg 0 2 ≤ 2 ∧ k < 4 ∧ b.pow.code.getLsbD k = true) ]

theorem met_Pacing : covers
    [ Met.Pacing (romState 2 (fun b => { b with pow := { b.pow with cap := 0, held := 0, code := 0 } })) 0 3 0 (0==1),
      Met.Pacing (romState 2 (fun b => { b with pow := { b.pow with cap := 0, held := 4, code := 4 } })) 0 3 2 (2==1) ] = true := by decide +kernel

def Met.BankPower (s : State) (m j i : Nat) (v : Word) : List Bool :=
  let b := s.blk
  let k := 16 * j + i
  let x := b.bank k
  let w := fld v (2 * i) 2
  [ decide (j < 6 ∧ i < 16 ∧ b.grants m (Reg.bankPwr j) = true ∧
      ((List.range 16).all (fun n => decide (n ≠ i → fld v (2 * n) 2 = b.rf (Reg.bankPwr j) (2 * n) 2)) = true) ∧ w ≠ 3 ∧
      w ≠ b.rf (Reg.bankPwr j) (2 * i) 2 ∧ x.going = none ∧ x.next = none ∧ x.cur ≠ w ∧ (¬ (x.cur = 2 ∧ w = 1)) ∧
      (x.cur ≠ 0 ∨ b.bankPinned k = false)),
    decide (j < 6 ∧ i < 16 ∧ b.grants m (Reg.bankPwr j) = true ∧
      ((List.range 16).all (fun n => decide (n ≠ i → fld v (2 * n) 2 = b.rf (Reg.bankPwr j) (2 * n) 2)) = true) ∧ w ≠ 3 ∧
      w ≠ b.rf (Reg.bankPwr j) (2 * i) 2 ∧ x.going = none ∧ x.next = none ∧ x.cur ≠ w ∧ ((x.cur = 2 ∧ w = 1) ∨ (x.cur = 0 ∧
      b.bankPinned k = true))),
    decide (j < 6 ∧ i < 16 ∧ x.going ≠ none ∧ x.begun = false ∧ b.burstOn k = false),
    (let t := x.going.getD 0; decide (j < 6 ∧ i < 16 ∧ x.going = some t ∧ t < 3 ∧ x.begun = true ∧ x.next = none)) ]

theorem met_BankPower : covers
    [ Met.BankPower (romState 4 (fun b => withBank 0 none true (b.setByte (35*0x40000+5) 9))) 0 2 3 0x40,
      Met.BankPower (romState 4 (fun b => withBank 0 (some 0) true (b.setByte (35*0x40000+5) 9))) 0 2 3 0,
      Met.BankPower (romState 4 (fun b => withBank 0 (some 0) false (b.setByte (35*0x40000+5) 9))) 0 2 3 0,
      Met.BankPower (romState 4 (fun b => withBank 2 none true (b.setByte (35*0x40000+5) 9))) 0 2 3 0x40 ] = true := by decide +kernel

def Met.MemoryUpkeep (s : State) (m a k n : Nat) (v : Word) : List Bool :=
  let b := s.blk
  [ decide (b.eccAt a = 2),
    decide (k < 4 ∧ n < 96 ∧ ((b.copying.find? fun x => x.1 == k) = some (k, n))),
    decide (b.reaches m Reg.collideMst = true ∧ tbit v 31 = true) ]

theorem met_MemoryUpkeep : covers
    [ Met.MemoryUpkeep (romState 4 (fun b => { setRegs [(Reg.collideMst, 0x80000005)] b with ecc := [(0x120,2),(0x200,1)], copying := [(1,35)] })) 0 0x125 1 35 0x80000000 ] = true := by decide +kernel

def Met.DutyInstruction (s : State) (e : Nat) (leg v : Entry128) (under : List Entry128) : List Bool :=
  let b := s.blk
  let l := b.lead e
  let n := leg.toNat % 32
  [ decide (b.twin (l / 2) = false ∧ b.quiet e 1 = true ∧ (b.stackOf l false).cache = leg :: v :: under ∧
      under.length ≤ (b.stackOf l false).depth ∧ (b.stackOf l true).fits 0 0 = true ∧ n < 24 ∧ b.legGranted n l = true),
    decide (b.twin (l / 2) = false ∧ b.quiet e 1 = true ∧ (b.stackOf l false).cache = leg :: v :: under ∧
      under.length ≤ (b.stackOf l false).depth ∧ (b.stackOf l true).fits 0 0 = true ∧ (24 ≤ n ∨ b.legGranted n l = false)) ]

theorem met_DutyInstruction : covers
    [ Met.DutyInstruction (withStk (engState false 0 (fun b => let b := dutyGroup 0 b; b.setReg (Reg.cmpStg 1 1) 0x80000777)) 0 [3, (0x1000:Entry128), 8] []) 0 3 (0x1000:Entry128) [8],
      Met.DutyInstruction (withStk (engState false 0 (fun b => let b := dutyGroup 0 b; b.setReg (Reg.cmpStg 1 1) 0x80000777)) 0 [2, (0x1000:Entry128), 8] []) 0 2 (0x1000:Entry128) [8] ] = true := by decide +kernel

def Met.DrivePeriods (s : State) (g : Nat) (late : BitVec 3) : List Bool :=
  let b := s.blk
  [ decide (g < 8 ∧ b.mayStart g = true),
    (let a := (b.nextPeriod g).2.getD 0; decide (g < 8 ∧ (b.nextPeriod g).2 = some a ∧ b.tb.cnt.toNat ≤ a)),
    (let a := (b.nextPeriod g).2.getD 0; decide (g < 8 ∧ (b.nextPeriod g).2 = some a ∧ b.tb.cnt.toNat ≤ a ∧ b.tb.last.toNat ≤ a)),
    decide (g < 8 ∧ b.gEn g = true ∧ b.rb (Reg.gctrlReg g) 1 = true ∧ (b.grp g).going = true ∧ (b.grp g).top = false ∧
      b.drive.lost = false),
    decide (g < 8 ∧ b.rb (Reg.trigReg g) 31 = true ∧ (b.grp g).going = true ∧ b.gEn g = true ∧ b.drive.lost = false ∧
      (b.rf (Reg.trigReg g) 0 20 : Int) < (b.rf (Reg.pcnt g) 0 20 : Int) + (b.grp g).adj) ]

theorem met_DrivePeriods : covers
    [ Met.DrivePeriods (romState 4 (driveGroup true 0 1 1 0 false 0)) 1 2,
      Met.DrivePeriods (romState 4 (fun b => let b := driveGroup true 3 1 0 0 false 7 b; { setRegs [(Reg.startLo 1, 10000)] b with tb := { b.tb with cnt := 5000, last := 0 }, drive := { b.drive with grps := [(1, { going := true, k := 9, next := if true then some 3 else none })] } })) 1 2 ] = true := by decide +kernel

def Met.DriveLegs (s : State) (n g k m : Nat) (rise high : Bool) (late : BitVec 3) (v : Word) : List Bool :=
  let b := s.blk
  let x := b.leg n
  [ (let p := (x.plan.headD (true, 0)).2; let r := x.plan.drop 1; decide (n < 24 ∧ x.plan = (rise, p) :: r ∧ b.gEn (n / 3) = true ∧
      (b.grp (n / 3)).going = true ∧ b.drive.lost = false ∧ p ≤ b.gLen (n / 3))),
    decide (n < 24 ∧ b.gEn (n / 3) = true ∧ x.hi = false ∧ x.lo = false ∧ b.follows n = true ∧ x.s = high ∧ b.tooShort n = false),
    decide (n < 24 ∧ b.gEn (n / 3) = true ∧ x.hi = false ∧ x.lo = false ∧ b.gState (n / 3) = 2 ∧ b.safePat n = (if high then 1 else 2)),
    decide (n < 24) ]

theorem met_DriveLegs : covers
    [ Met.DriveLegs (romState 4 (fun b => let b := driveGroup true 1 1 0 0 false 0 b; b.setLeg 4 { s := true, hi := false, lo := false })) 4 1 5 0 true true 2 0x10001,
      Met.DriveLegs (romState 4 (fun b => let b := driveGroup true 2 1 0 0 false 0 b; b.setLeg 4 { s := true, hi := false, lo := false })) 4 1 5 0 true false 2 0x10001,
      Met.DriveLegs (romState 4 (fun b => let b := driveGroup true 0 1 0 0 false 0 b; b.setLeg 4 { s := true, hi := true, lo := !true, plan := [(true, (40 : Int)), (!true, 500)] })) 4 1 5 0 true true 2 0x10001 ] = true := by decide +kernel

def Met.DriveSafety (s : State) (m g k : Nat) (v : Word) : List Bool :=
  let b := s.blk
  let upd := fld v 2 2 = 3
  [ decide (g < 8 ∧ k < 32 ∧ b.rb (Reg.tcfg k) 8 = true ∧ 2 ≤ b.sys.base),
    decide (g < 8 ∧ k < 32),
    decide (g < 8 ∧ k < 32 ∧ b.reaches m Reg.tlatch = true),
    decide (g < 8 ∧ k < 32 ∧ b.gEn g = true ∧ b.rf (Reg.gctrlReg g) 16 8 ≠ 0 ∧ b.rf (Reg.gctrlReg g) 16 8 ≤ (b.grp g).idle),
    decide (g < 8 ∧ k < 32 ∧ b.clkReq = true),
    decide (g < 8 ∧ k < 32 ∧ b.drive.lost = true),
    decide (g < 8 ∧ k < 32 ∧ b.grants m (Reg.gctrlReg g) = true ∧ ¬ upd ∧ (b.gEn g = false ∨ tbit v 1 = b.rb (Reg.gctrlReg g) 1)),
    decide (g < 8 ∧ k < 32 ∧ b.grants m (Reg.gctrlReg g) = true ∧ b.gEn g = true ∧ tbit v 1 ≠ b.rb (Reg.gctrlReg g) 1),
    decide (g < 8 ∧ k < 32 ∧ b.reaches m (Reg.gstat g) = true) ]

theorem met_DriveSafety : covers
    [ Met.DriveSafety (romState 4 (fun b => let b := driveGroup true 0 1 0 0 false 0 b; let b := setRegs [(Reg.tcfg 5, BitVec.ofNat 32 (0x100 + 2*0)), (Reg.gstat 1, BitVec.ofNat 32 (0 + 0)), (Reg.cmpStg 1 0, 0x80000001)] b; let b := if 0 = 1 then b else b.setReg Reg.tlatch 1; { b.setLeg 4 { hi := true } with drive := { b.drive with lost := true } })) 0 1 5 0x1,
      Met.DriveSafety (romState 4 (fun b => let b := driveGroup true 0 1 0 0 false 0 b; let b := setRegs [(Reg.tcfg 5, BitVec.ofNat 32 (0x100 + 2*0)), (Reg.gstat 1, BitVec.ofNat 32 (0 + 0)), (Reg.cmpStg 1 0, 0x80000001)] b; let b := if 0 = 1 then b else b.setReg Reg.tlatch 1; { b.setLeg 4 { hi := true } with drive := { b.drive with lost := true } })) 0 1 5 3 ] = true := by decide +kernel

def Met.SamplePorts (s : State) (n : Nat) (d : BitVec 16) (tag : BitVec 4) : List Bool :=
  let b := s.blk
  [ decide (n < 32 ∧ 2 ≤ b.sys.base ∧ b.drive.req = [] ∧ b.drive.wait = none ∧ b.spOn n = true ∧ b.rb (Reg.spCfg n) 1 = false),
    decide (n < 32 ∧ 2 ≤ b.sys.base ∧ b.drive.req = [] ∧ b.drive.wait = none ∧ b.spOn n = true ∧ b.rb (Reg.spCfg n) 1 = true ∧
      b.rb (Reg.last n) 31 = false),
    decide (n < 32 ∧ 2 ≤ b.sys.base ∧ b.drive.req = [] ∧ b.drive.wait = none ∧ b.spOn n = true ∧ b.rb (Reg.spCfg n) 1 = true ∧
      b.rb (Reg.last n) 31 = true ∧ b.rb (Reg.spCfg n) 2 = false),
    decide (n < 32 ∧ 2 ≤ b.sys.base ∧ b.drive.req = [] ∧ b.drive.wait = none ∧ b.spOn n = true ∧ b.rb (Reg.spCfg n) 1 = true ∧
      b.rb (Reg.last n) 31 = true ∧ b.rb (Reg.spCfg n) 2 = true),
    decide (n < 32 ∧ 2 ≤ b.sys.base ∧ b.drive.req = [] ∧ b.drive.wait = none ∧ b.spOn n = false),
    decide (n < 32 ∧ 2 ≤ b.sys.base ∧ n ∉ b.drive.req ∧ (b.drive.req ≠ [] ∨ b.drive.wait ≠ none)),
    decide (n < 32 ∧ 2 ≤ b.sys.base),
    decide (n < 32 ∧ 2 ≤ b.sys.base ∧ b.spAck n = true ∧ b.rb Reg.retSp n = false) ]

theorem met_SamplePorts : covers
    [ Met.SamplePorts (romState 2 (fun b => let b := setRegs [(Reg.spCfg 2, 0), (Reg.last 2, 0), (Reg.ovrCnt, 0xFFFF)] b; if true then b.setBit Reg.retSp 2 else b)) 2 0x1234 5,
      Met.SamplePorts (romState 2 (fun b => let b := setRegs [(Reg.spCfg 2, 1), (Reg.last 2, 0), (Reg.ovrCnt, 0xFFFF)] b; if false then b.setBit Reg.retSp 2 else b)) 2 0x1234 5,
      Met.SamplePorts (romState 2 (fun b => let b := setRegs [(Reg.spCfg 2, 3), (Reg.last 2, 0), (Reg.ovrCnt, 0xFFFF)] b; if false then b.setBit Reg.retSp 2 else b)) 2 0x1234 5,
      Met.SamplePorts (romState 2 (fun b => let b := setRegs [(Reg.spCfg 2, 3), (Reg.last 2, 0x80000001), (Reg.ovrCnt, 0xFFFF)] b; if false then b.setBit Reg.retSp 2 else b)) 2 0x1234 5,
      Met.SamplePorts (romState 2 (fun b => let b := setRegs [(Reg.spCfg 2, 7), (Reg.last 2, 0x80000001), (Reg.ovrCnt, 0xFFFF)] b; if false then b.setBit Reg.retSp 2 else b)) 2 0x1234 5,
      Met.SamplePorts (romState 4 (fun b => { setRegs [(Reg.spCfg 2, 1), (Reg.transCnt, 0)] b with drive := { b.drive with req := ([] : List Nat), wait := (some (2, 5, 1)) } })) 2 0x1234 5,
      Met.SamplePorts (romState 4 (fun b => { setRegs [(Reg.spCfg 2, 1), (Reg.transCnt, 0)] b with drive := { b.drive with req := ([2] : List Nat), wait := none } })) 2 0x1234 5 ] = true := by decide +kernel

def Met.EncodersAndCaptures (s : State) (m k : Nat) (x y rise : Bool) : List Bool :=
  let b := s.blk
  let old := Tab.get (fun _ => (false, false)) b.drive.enc k
  let q := b.cap k
  [ decide (k < 8 ∧ b.rb (Reg.encCfg k) 0 = true ∧ old.1 ≠ x ∧ old.2 ≠ y),
    decide (k < 8 ∧ b.rb (Reg.encCfg k) 0 = true ∧ ¬ (old.1 ≠ x ↔ old.2 ≠ y)),
    decide (k < 8 ∧ b.rb (Reg.encCfg k) 0 = true),
    decide (k < 8 ∧ b.rb (Reg.capCfg k) 8 = true ∧ b.rb (Reg.capCfg k) (if rise then 0 else 1) = true ∧ q.length < 4),
    decide (k < 8 ∧ b.rb (Reg.capCfg k) 8 = true ∧ b.rb (Reg.capCfg k) (if rise then 0 else 1) = true ∧ 4 ≤ q.length),
    decide (k < 8 ∧ b.grants m (Reg.capPop k) = true ∧ q.length ≤ 4),
    decide (k < 8 ∧ b.grants m (Reg.capPop k) = true) ]

theorem met_EncodersAndCaptures : covers
    [ Met.EncodersAndCaptures (romState 4 (fun b => let b := setRegs [(Reg.encCfg 3, 1), (Reg.encCpr 3, 0), (Reg.encPos 3, 0), (Reg.capCfg 3, 0x10F), (Reg.encErr 3, 0xFFFF), (Reg.capStat 3, 0x12)] b; { b with drive := { b.drive with enc := [(3, (0%2==1, 0/2==1))], caps := [(3, (List.range 0).map fun i => (BitVec.ofNat 64 i, true))] } })) 0 3 (1%2==1) (1/2==1) (1==1),
      Met.EncodersAndCaptures (romState 4 (fun b => let b := setRegs [(Reg.encCfg 3, 1), (Reg.encCpr 3, 0), (Reg.encPos 3, 0), (Reg.capCfg 3, 0x10F), (Reg.encErr 3, 0xFFFF), (Reg.capStat 3, 0x12)] b; { b with drive := { b.drive with enc := [(3, (0%2==1, 0/2==1))], caps := [(3, (List.range 4).map fun i => (BitVec.ofNat 64 i, true))] } })) 0 3 (3%2==1) (3/2==1) (1==1) ] = true := by decide +kernel

def Met.MoverCommands (s : State) (m ch : Nat) (v : Word) : List Bool :=
  let b := s.blk
  let st := b.chState ch
  let priv := 4 ≤ ch ∨ m = 20 ∨ (m < 16 ∧ b.pageLevel m (chPage ch) = some 3)
  [ decide (ch < 64 ∧ b.grants m (Reg.ccmd ch) = true ∧ priv ∧ (st = chIdle ∨ st = chEnded)),
    decide (ch < 64 ∧ b.grants m (Reg.ccmd ch) = true ∧ priv ∧ st ≠ chIdle ∧ st ≠ chEnded),
    decide (ch < 64 ∧ b.grants m (Reg.ccmd ch) = true ∧ priv ∧ (st = chRunning ∨ st = chPaused ∨ st = chEnded ∨ st = chHalted)),
    decide (ch < 64 ∧ b.grants m (Reg.ccmd ch) = true ∧ priv ∧ st = chHalted),
    decide (ch < 64 ∧ b.grants m (Reg.ccmd ch) = true ∧ priv ∧ st ≠ chHalted),
    decide (ch < 64 ∧ b.grants m (Reg.ccmd ch) = true ∧ priv ∧ (st = chRunning ∨ st = chPaused ∨ st = chHalted) ∧ tbit v 0 = true),
    decide (ch < 64 ∧ b.grants m (Reg.ccmd ch) = true ∧ ¬ priv) ]

theorem met_MoverCommands : covers
    [ Met.MoverCommands (engState false 3 (fun b => setRegs [(Reg.chStat 2,
        BitVec.ofNat 32 1)] { b with chans := [(2, { buf := [1], burst := true })] } )) 0 2 1,
      Met.MoverCommands (engState false 3 (fun b => setRegs [(Reg.chStat 2,
        BitVec.ofNat 32 0)] { b with chans := [(2, { buf := [1], burst := true })] } )) 0 2 0,
      Met.MoverCommands (engState false 3 (fun b => setRegs [(Reg.chStat 2,
        BitVec.ofNat 32 3)] { b with chans := [(2, { buf := [1], burst := true })] } )) 0 2 0,
      Met.MoverCommands (engState false 1 (fun b => setRegs [(Reg.chStat 2, BitVec.ofNat 32 0), (regKey (chPage 2) Reg.hPriv,
        0)] b)) 0 2 0 ] = true := by decide +kernel

def Met.MoverDescriptors (s : State) (ch : Nat) : List Bool :=
  let b := s.blk
  let a := b.descAt ch
  let w := fun (o k : Nat) => leNat (b.bytes (a + o) k)
  let link := leNat (b.bytes (a + 0x20) 4)
  [ decide (ch < 64 ∧ b.chState ch = chRunning ∧ (b.chTurn ch).2 = true ∧ (b.ch ch).phase = .load ∧
      b.mCheck 16 (b.chOwner ch) .load a 32 = none ∧ a + 32 ≤ 0x1800000 ∧ (∀ j, a ≤ j → j < a + 32 → b.eccAt j = 0) ∧ w 16 2 ≠ 0 ∧
      w 18 2 ≠ 0 ∧ w 28 4 < 16),
    decide (ch < 64 ∧ b.chState ch = chRunning ∧ (b.chTurn ch).2 = true ∧ (b.ch ch).phase = .link ∧
      b.mCheck 16 (b.chOwner ch) .load (a + 0x20) 4 = none ∧ a + 0x24 ≤ 0x1800000 ∧ b.eccAt (a + 0x20) = 0 ∧ link % 2 = 0 ∧
      link / 2 ^ 25 = 0),
    decide (ch < 64 ∧ b.chState ch = chRunning ∧ (b.chTurn ch).2 = true ∧ (b.ch ch).phase = .link ∧
      b.mCheck 16 (b.chOwner ch) .load (a + 0x20) 4 = none ∧ a + 0x24 ≤ 0x1800000 ∧ b.eccAt (a + 0x20) = 0 ∧ link % 2 = 1 ∧
      b.rb (Reg.chStat ch) 3 = false) ]

theorem met_MoverDescriptors : covers
    [ Met.MoverDescriptors (romState 4 (withDesc 0x40000 ChPhase.load 0)) 9,
      Met.MoverDescriptors (romState 4 (withDesc 0x40000 ChPhase.link 0)) 9,
      Met.MoverDescriptors (romState 4 (withDesc 0x40001 ChPhase.link 0)) 9 ] = true := by decide +kernel

def Met.MoverBurstCopies (s : State) (ch k : Nat) : List Bool :=
  let b := s.blk
  let c := b.ch ch
  let x := b.chX ch
  let y := b.chY ch
  let n := b.burstLen ch
  let a := (srcSide c).at x y
  let d := (dstSide c).at x y
  let good := fun (sd : Side) => b.sideNode sd = none ∧ sd.ok x y = true ∧ sd.ok (x + n - 1) y = true
  [ decide (ch < 64 ∧ 8 ≤ k ∧ (b.chTurn ch).2 = true ∧ c.phase = .data ∧ c.burst = false ∧ c.buf = [] ∧ x < c.xcnt ∧ c.xcnt < 2 ^ 16 ∧
      b.chOwner ch = none ∧ good (srcSide c) ∧ good (dstSide c) ∧ b.mCheck 16 none .load a n = none ∧ b.mCheck 16 none .store d n = none ∧
      a + n ≤ 0x1800000 ∧ d + n ≤ 0x1800000 ∧ ((List.range n).all (fun j => decide (b.eccAt (a + j) = 0 ∧ b.eccAt (d + j) = 0)) = true)) ]

theorem met_MoverBurstCopies : covers
    [ Met.MoverBurstCopies (romState 4 (fun b => let b := withDesc 0 .data 0 b; let b := (List.range 200).foldl (fun b i => b.setByte (0x30000+i) (BitVec.ofNat 8 (i+1))) b; { b.setReg (Reg.posReg 9) (BitVec.ofNat 32 (0 + 0*65536)) with chans := [(9, { phase := .data, src := 0x30000, dst := 0x30010, xcnt := 64, ycnt := 3, sstr := 7, dstr := 9 })] })) 9 8 ] = true := by decide +kernel

def Met.MemoryPortRequests (s : State) (m c i : Nat) (v : Word) (w : Bool) (r : MpReq) : List Bool :=
  let b := s.blk
  let x := b.chan c
  let may := fun (k : Nat) (o : MpReq) => b.mpBlocked o = false ∧ (∀ y, y ∈ x.q.take k → ¬ (y.mst = o.mst ∧ y.addr = o.addr)) ∧
    (o.write = true → 0 < x.wdCrd)
  [ decide (c < 2 ∧ b.grants m Reg.mpCtrlReg = true),
    decide (c < 2 ∧ x.en = true ∧ x.rdy = true ∧ 0 < x.reqCrd ∧ x.outst.length < 256 ∧ b.sys.base ≠ 0xA ∧ x.q[i]? = some r ∧ may i r ∧
      (x.q.zipIdx.all fun z => decide (may z.2 z.1 → mpPrio z.1 ≤ mpPrio r ∧ (mpPrio z.1 = mpPrio r → i ≤ z.2)))),
    decide (c < 2 ∧ (x.q.zipIdx.all fun z => decide (¬ may z.2 z.1))),
    decide (c < 2 ∧ x.en = true) ]

theorem met_MemoryPortRequests : covers
    [ Met.MemoryPortRequests (portState { en := true, rdy := true, reqCrd := 1, wdCrd := 1, q := [portReq true 0x2000000040 0 0, portReq false 0x2000000080 0 0, portReq true 0x20000000C0 0 0], outst := [portReq true 0x2000000100 0 1] }) 0 1 0 (BitVec.ofNat 32 0) true (if 0 = 0 then portReq true 0x2000000040 0 0 else portReq false 0x2000000080 0 0),
      Met.MemoryPortRequests (portState { en := true, rdy := true, reqCrd := 1, wdCrd := 0, q := ([] : List MpReq) }) 0 1 0 0 false (portReq true 0x2000000040 0 0) ] = true := by decide +kernel

def Met.MemoryPortResponses (s : State) (c t l : Nat) (sts : BitVec 2) (crc : BitVec 16) (d : List Byte) (r : MpReq) : List Bool :=
  let b := s.blk
  let x := b.chan c
  let crcOk := crc = crc16 (toLe 4 (b.mpDev r.addr / 64) ++ d)
  let calm := b.hst.q = []
  [ decide (c < 2 ∧ calm ∧ r.write = false ∧ ((x.outst.find? fun o => o.tag == t && o.write == false) = some r) ∧ sts = 0 ∧ crcOk ∧
      r.who = .engine l ∧ (b.eng l).extReq.contains r.addr = true),
    decide (c < 2 ∧ calm ∧ r.write = false ∧ ((x.outst.find? fun o => o.tag == t && o.write == false) = some r) ∧ (¬ crcOk ∨ sts = 1) ∧
      r.who = .engine l ∧ r.tries < 3),
    decide (c < 2 ∧ calm ∧ (∀ o, o ∈ x.outst → ¬ (o.tag = t ∧ o.write = false))),
    decide (c < 2 ∧ calm ∧ r.write = true ∧ ((x.outst.find? fun o => o.tag == t && o.write == true) = some r) ∧ r.who = .engine l ∧
      sts = 0),
    decide (c < 2 ∧ calm ∧ r.write = true ∧ ((x.outst.find? fun o => o.tag == t && o.write == true) = some r) ∧ r.who = .engine l ∧
      sts = 1 ∧ r.tries < 3),
    decide (c < 2 ∧ calm ∧ ((x.outst.find? fun o => o.tag == t) = some r) ∧ r.who = .engine l ∧ r.tries < 3),
    decide (c < 2 ∧ calm ∧ x.en = true ∧ b.chanRet c = false ∧ b.chanRet (1 - c) = false) ]

theorem met_MemoryPortResponses : covers
    [ (let s := portState { en := true, rdy := true, reqCrd := 1, q := [portReq false 0x2000000080 0 0], outst := [portReq true 0x2000000100 0 1, portReq true 0x2000000040 5 1] }; Met.MemoryPortResponses s 1 5 3 0 (if true then crc16 (toLe 4 (s.blk.mpDev 0x2000000040 / 64) ++ List.replicate 64 9) else 7) (List.replicate 64 9) (portReq true 0x2000000040 5 1)),
      (let s := portState { en := true, rdy := true, reqCrd := 1, q := [portReq false 0x2000000080 0 0], outst := [portReq true 0x2000000100 0 1, portReq true 0x2000000040 5 1] }; Met.MemoryPortResponses s 1 5 3 1 (if true then crc16 (toLe 4 (s.blk.mpDev 0x2000000040 / 64) ++ List.replicate 64 9) else 7) (List.replicate 64 9) (portReq true 0x2000000040 5 1)),
      (let s := portState { en := true, rdy := true, reqCrd := 1, q := [portReq false 0x2000000080 0 0], outst := [portReq true 0x2000000100 0 1, portReq false 0x2000000040 5 1] }; Met.MemoryPortResponses s 1 5 3 0 (if true then crc16 (toLe 4 (s.blk.mpDev 0x2000000040 / 64) ++ List.replicate 64 9) else 7) (List.replicate 64 9) (portReq false 0x2000000040 5 1)),
      (let s := portState { en := true, rdy := true, reqCrd := 1, q := [portReq false 0x2000000080 0 0], outst := [portReq true 0x2000000100 0 1, portReq false 0x2000000040 5 1] }; Met.MemoryPortResponses s 1 5 3 0 (if false then crc16 (toLe 4 (s.blk.mpDev 0x2000000040 / 64) ++ List.replicate 64 9) else 7) (List.replicate 64 9) (portReq false 0x2000000040 5 1)) ] = true := by decide +kernel

def Met.TwinReleases (s : State) (p a c : Nat) (d : List Byte) (o : Out) (rest : List Out) : List Bool :=
  let b := s.blk
  let x := b.pair p
  let n := (Tab.get (fun _ => 0) x.seq c + 1) % 2 ^ 32
  [ decide (2 ≤ b.sys.base ∧ p < 8 ∧ x.q = o :: rest ∧ b.twin p = true ∧ b.retired p = false ∧ x.phase = .live ∧ b.mir.taking = false ∧
      o.act = .store a d ∧ d.length ≤ 16 ∧ a + d.length ≤ 0x1800000 ∧ b.eccAt a ≠ 1 ∧ b.eccAt (a + 15) ≠ 1 ∧ b.mirrored p = false ∧
      o.cls = .priv),
    decide (2 ≤ b.sys.base ∧ p < 8 ∧ x.q = o :: rest ∧ b.twin p = true ∧ b.retired p = false ∧ x.phase = .live ∧ b.mir.taking = false ∧
      o.act = .store a d ∧ d.length ≤ 16 ∧ a + d.length ≤ 0x1800000 ∧ b.eccAt a ≠ 1 ∧ b.eccAt (a + 15) ≠ 1 ∧ b.mirrored p = false ∧
      o.cls.code = some c ∧ atOrBelow n (b.reg (Reg.seqLast p c)).toNat = false) ]

theorem met_TwinReleases : covers
    [ Met.TwinReleases (pairState 4 { q := [storeOut OutCls.priv 0x20000 [1,2,3], storeOut .priv 0 []], img := none, seq := [(0, 3)] } (fun b => b.setReg (Reg.seqLast 2 0) 0)) 2 0x20000 (OutCls.priv.code.getD 9) [1,2,3] (storeOut OutCls.priv 0x20000 [1,2,3]) [storeOut .priv 0 []],
      Met.TwinReleases (pairState 4 { q := [storeOut OutCls.shared 0x20000 [1,2,3], storeOut .priv 0 []], img := none, seq := [(0, 3)] } (fun b => b.setReg (Reg.seqLast 2 0) 0)) 2 0x20000 (OutCls.shared.code.getD 9) [1,2,3] (storeOut OutCls.shared 0x20000 [1,2,3]) [storeOut .priv 0 []] ] = true := by decide +kernel

def Met.TwinMismatch (s : State) (p : Nat) (k : Compare) : List Bool :=
  let b := s.blk
  let x := b.pair p
  [ decide (2 ≤ b.sys.base ∧ p < 8 ∧ k ≠ .agree ∧ (k = .output → x.q ≠ []) ∧ b.twin p = true ∧ b.broken p = false ∧ b.retired p = false ∧
      x.phase = .live ∧ b.noTarget p = false ∧ x.img ≠ none ∧ x.since = none),
    decide (2 ≤ b.sys.base ∧ p < 8 ∧ k ≠ .agree ∧ (k = .output → x.q ≠ []) ∧ b.twin p = true ∧ b.broken p = false ∧ b.retired p = false ∧
      x.phase = .live ∧ b.noTarget p = true),
    decide (2 ≤ b.sys.base ∧ p < 8 ∧ k ≠ .agree ∧ (k = .output → x.q ≠ []) ∧ b.twin p = true ∧ b.broken p = false ∧ b.retired p = false ∧
      x.phase = .live ∧ b.noTarget p = false ∧ x.img ≠ none ∧ x.since ≠ none),
    decide (2 ≤ b.sys.base ∧ p < 8 ∧ k ≠ .agree ∧ (k = .output → x.q ≠ []) ∧ b.twin p = true ∧ b.broken p = false ∧ b.retired p = false ∧
      x.phase = .live) ]

theorem met_TwinMismatch : covers
    [ Met.TwinMismatch (pairState 2 { q := [storeOut .shared 0x20000 [1,2,3]], img := none, since := none, pend := none }) 2 Compare.output,
      Met.TwinMismatch (pairState 4 { q := [storeOut .shared 0x20000 [1,2,3]], img := (some snapshot), since := none, pend := (some snapshot) }) 2 Compare.output,
      Met.TwinMismatch (pairState 4 { q := [storeOut .shared 0x20000 [1,2,3]], img := (some snapshot), since := (some 3), pend := (some snapshot) }) 2 Compare.output ] = true := by decide +kernel

def Met.RollbackAndReplay (s : State) (p ns : Nat) (im : Snap Chan) (f : Nat → TaskCtx) : List Bool :=
  let b := s.blk
  let x := b.pair p
  [ decide (2 ≤ b.sys.base ∧ p < 8 ∧ x.phase = .rollback ∧ x.img = some im ∧ (im.tasks = (List.range 64).map (fun t => (t, f t))) ∧
      b.rb Reg.twin 27 = false ∧ (∀ y, y ∈ im.chans → y.2.outW = false) ∧ (∀ u, u ∈ x.undo → u.data.length = 64 ∧ u.line < 0x60000)),
    decide (2 ≤ b.sys.base ∧ p < 8 ∧ x.phase = .replay ∧ x.detSpc ≤ x.spc ∧ x.cursor = []) ]

theorem met_RollbackAndReplay : covers
    [ Met.RollbackAndReplay (pairState 2 { img := some snapshot, phase := PairPh.rollback, undo := [], ins := [⟨4,2,5,6⟩], q := [storeOut .priv 0 []], spc := 4 }) 2 55 snapshot (fun t => { pc := BitVec.ofNat 32 t }),
      Met.RollbackAndReplay (pairState 2 { img := some snapshot, phase := PairPh.replay, undo := [], ins := [⟨4,2,5,6⟩], q := [storeOut .priv 0 []], spc := 4 }) 2 55 snapshot (fun t => { pc := BitVec.ofNat 32 t }) ] = true := by decide +kernel

def Met.Milestones (s : State) (m p : Nat) (im : Snap Chan) : List Bool :=
  let b := s.blk
  let x := b.pair p
  [ decide (p < 8 ∧ b.pointOk p = true ∧ x.phase = .live ∧ b.mirrored p = false),
    decide (p < 8 ∧ 2 ≤ b.sys.base ∧ b.sys.base ≠ 6 ∧ x.phase = .live ∧ x.pend = some im ∧ x.older = 0),
    decide (p < 8 ∧ b.grants m Reg.msCmd = true ∧ b.twin p = true ∧ b.broken p = false ∧ b.recovering p = false ∧ b.retired p = false) ]

theorem met_Milestones : covers
    [ Met.Milestones (pairState 2 { pend := (some snapshot), phase := PairPh.live, undo := [⟨1,false,[]⟩,⟨2,false,[]⟩], rels := [⟨1,2,3,4⟩,⟨5,6,7,8⟩], ins := [⟨4,2,5,6⟩,⟨7,8,9,1⟩], spc := 9 } (fun b => { b with tb := { b.tb with cnt := 0x123456789 } })) 0 2 snapshot,
      Met.Milestones (pairState 4 { phase := PairPh.live, take := true, spc := 9 } (fun b => { b with sys := { b.sys with ran := true }, tb := { b.tb with cnt := 0x123456789 } })) 0 2 snapshot ] = true := by decide +kernel

def Met.MirrorConfiguration (s : State) (m : Nat) (v ver dig : Word) (role : Bool) : List Bool :=
  let b := s.blk
  let ok := b.inConfig = true ∧ (List.range 8).all (fun p => decide (tbit v (8 + p) = true → b.twin p = true)) = true
  [ decide (b.grants m Reg.mcfgReg = true ∧ ok),
    decide (b.grants m Reg.mcfgReg = true ∧ ¬ ok),
    decide (b.mir.taking = true),
    decide (2 ≤ b.sys.base ∧ b.sys.base ≠ 6 ∧ b.rb Reg.mcfgReg 0 = true ∧ b.mir.taking = false) ]

theorem met_MirrorConfiguration : covers
    [ Met.MirrorConfiguration (romState 2 (setRegs [(Reg.pairCfg, 0xFF), (Reg.mcfgReg, 1)])) 0 0 1 0x12345 true,
      Met.MirrorConfiguration (romState 3 (fun b => { setRegs [(Reg.pairCfg, 0xFF), (Reg.mcfgReg, 3)] b with mir := { taking := true } })) 0 0x403 1 0x12345 true ] = true := by decide +kernel

def Met.Takeovers (s : State) (m p ns : Nat) : List Bool :=
  let b := s.blk
  [ decide (b.sys.base = 7 ∧ b.mir.taking = false ∧ b.sys.hold = false ∧ b.rb Reg.mstat 1 = true),
    decide (b.sys.base = 7 ∧ b.mir.taking = false ∧ b.sys.hold = false ∧ b.rb Reg.mstat 1 = true ∧ b.grants m Reg.mcmd = true),
    decide (b.sys.base = 7 ∧ b.mir.taking = false ∧ b.sys.hold = false ∧ b.rb Reg.mstat 1 = false),
    decide (b.sys.base = 7 ∧ b.mir.taking = false ∧ b.sys.hold = false ∧ b.rb Reg.mstat 1 = false ∧ b.grants m Reg.mcmd = true),
    decide (b.sys.base = 7),
    decide (p < 8 ∧ b.rb Reg.twin 27 = false ∧ b.caughtUp p = true ∧
      ((List.range 8).all (fun q => decide (q ≠ p → b.mirPair q = true → (b.pair q).phase ≠ .follow)) = true)),
    decide (b.sys.base = 6 ∧ b.mir.deposed = false ∧ b.sys.hold = false),
    decide (b.sys.base = 7 ∧ b.rb Reg.mcfgReg 2 = true ∧ b.rb Reg.mcfgReg 3 = true) ]

theorem met_Takeovers : covers
    [ Met.Takeovers (pairState 7 { phase := if 7 = 7 then .follow else .live, hor := 3, spc := 4 } (fun b => { setRegs [(Reg.mstat, 0), (Reg.mcfgReg, 0x40F)] b with mir := { b.mir with taking := false }, sys := { b.sys with hold := false } })) 0 2 999,
      Met.Takeovers (pairState 7 { phase := if 7 = 7 then .follow else .live, hor := 3, spc := 4 } (fun b => { setRegs [(Reg.mstat, 2), (Reg.mcfgReg, 0x40F)] b with mir := { b.mir with taking := false }, sys := { b.sys with hold := false } })) 0 2 999,
      Met.Takeovers (pairState 6 { phase := if 6 = 7 then .follow else .live, hor := 3, spc := 4 } (fun b => { setRegs [(Reg.mstat, 0), (Reg.mcfgReg, 0x40F)] b with mir := { b.mir with taking := true }, sys := { b.sys with hold := false } })) 0 2 999,
      Met.Takeovers (pairState 7 { phase := if 7 = 7 then .follow else .live, hor := 3, spc := 4 } (fun b => { setRegs [(Reg.mstat, 0), (Reg.mcfgReg, 0x40F)] b with mir := { b.mir with taking := true }, sys := { b.sys with hold := true } })) 0 2 999 ] = true := by decide +kernel

def Met.FollowerRecords (s : State) (p a : Nat) (d : List Byte) (e : InEntry) (r : RelEntry) (count dig : Word) (tb : BitVec 64) : List Bool :=
  let b := s.blk
  let x := b.pair p
  [ decide (p < 8 ∧ b.takesFrom p = true ∧ b.rb Reg.twin 27 = false ∧ x.join ≠ 3 ∧ d.length = 64 ∧ a < 0x60000 ∧ (∀ j,
      a * 64 ≤ j → j < a * 64 + 64 → b.eccAt j = 0)),
    decide (p < 8 ∧ b.takesFrom p = true ∧ b.rb Reg.twin 27 = false ∧ x.join ≠ 3),
    decide (p < 8 ∧ b.takesFrom p = true ∧ b.rb Reg.twin 27 = false ∧ x.join ≠ 3 ∧ x.imageGot = none),
    decide (p < 8 ∧ b.takesFrom p = true ∧ b.rb Reg.twin 27 = false ∧ x.join = 3 ∧ x.nextOn = false ∧ x.mark = none ∧ x.hor ≤ e.spc ∧
      x.spc < e.spc ∧ x.cursor = []),
    decide (p < 8 ∧ b.takesFrom p = true ∧ b.rb Reg.twin 27 = false ∧ x.join = 3 ∧ x.nextOn = false ∧ x.mark = none),
    decide (p < 8 ∧ b.takesFrom p = true ∧ b.rb Reg.twin 27 = false ∧ x.join = 3 ∧ x.nextOn = false ∧ x.mark = none ∧ x.hor ≤ a),
    decide (p < 8 ∧ b.takesFrom p = true ∧ b.rb Reg.twin 27 = false ∧ x.join = 3 ∧ x.nextOn = false ∧ x.mark = none ∧ x.spc ≤ a) ]

theorem met_FollowerRecords : covers
    [ Met.FollowerRecords (pairState 7 { phase := .follow, join := 3, hor := 0, spc := 3 } (setRegs [(Reg.mcfgReg,
        0x40F)])) 2 3 [] ⟨6,2,5,6⟩ ⟨1,2,3,9⟩ 5 6 7,
      Met.FollowerRecords (pairState 7 { phase := .follow, join := 0, hor := 0, spc := 3 } (setRegs [(Reg.mcfgReg,
        0x40F)])) 2 3 (List.replicate 64 (7:Byte)) ⟨6,2,5,6⟩ ⟨1,2,3,9⟩ 5 6 7 ] = true := by decide +kernel

def Met.MirrorExchange (s : State) (m p k n : Nat) (count : Word) (tb : BitVec 64) (low : Bool) : List Bool :=
  let b := s.blk
  let x := b.pair p
  [ decide (p < 8 ∧ b.rb Reg.twin 27 = false ∧ (b.mode = 6 ∨ b.mode = 7)),
    decide (p < 8 ∧ b.rb Reg.twin 27 = false ∧ b.mode ≠ 6 ∧ b.mode ≠ 7),
    decide (p < 8 ∧ b.rb Reg.twin 27 = false ∧ 2 ≤ b.sys.base),
    decide (p < 8 ∧ b.rb Reg.twin 27 = false ∧ b.mirrored p = true),
    decide (p < 8 ∧ b.rb Reg.twin 27 = false ∧ b.sys.base = 6),
    decide (p < 8 ∧ b.rb Reg.twin 27 = false ∧ b.sys.base = 6 ∧ b.mirPair p = true),
    decide (p < 8 ∧ b.rb Reg.twin 27 = false ∧ b.sys.base = 6 ∧ b.mirPair p = true ∧ b.grants m Reg.mcmd = true),
    decide (p < 8 ∧ b.rb Reg.twin 27 = false ∧ b.sys.base = 6 ∧ b.mirPair p = true ∧ b.rf Reg.lagCap 0 17 ≠ 0 ∧ x.lagStop = true ∧
      count = b.reg (Reg.msCount p) ∧ x.hist = [(count.toNat, k, n)] ∧ x.total ≤ n),
    decide (p < 8 ∧ b.rb Reg.twin 27 = false ∧ b.sys.base = 7),
    decide (p < 8 ∧ b.rb Reg.twin 27 = false ∧ b.sys.base = 7 ∧ b.mir.taking = false) ]

theorem met_MirrorExchange : covers
    [ Met.MirrorExchange (pairState 6 { phase := if 6 = 7 then .follow else .live, join := 3, lagStop := true, hist := [(5,4,100)], total := 90, spc := 4 } (setRegs [(Reg.mcfgReg, 0x40D),
        (Reg.lagCap, 500), (Reg.msCount 2, 5)])) 0 2 4 100 5 (0:BitVec 64) true,
      Met.MirrorExchange (pairState 7 { phase := if 7 = 7 then .follow else .live, join := 0, lagStop := true, hist := [(5,4,100)], total := 90, spc := 4 } (setRegs [(Reg.mcfgReg, 0x40D),
        (Reg.lagCap, 0), (Reg.msCount 2, 5)])) 0 2 4 100 5 (0:BitVec 64) true,
      Met.MirrorExchange (pairState 4 { phase := if 4 = 7 then .follow else .live, join := 0, lagStop := true, hist := [(5,4,100)], total := 90, spc := 4 } (setRegs [(Reg.mcfgReg, 0x40D),
        (Reg.lagCap, 0), (Reg.msCount 2, 5)])) 0 2 4 100 5 (0:BitVec 64) true ] = true := by decide +kernel

def Met.MirrorFrames (s : State) (k p a : Nat) (f : List Byte) (n : Word) (pl : List Byte) : List Bool :=
  let b := s.blk
  let m := b.mfr
  let bytes := m.tx ++ b.cwq.flatMap cwBytes
  let at' := fun (d : List Byte) (i l : Nat) => beNat ((d.drop i).take l)
  let fseq := at' f 14 4
  let body := (f.drop 30).take (at' f 24 2)
  [ decide (k < 2 ∧ b.mirUp (4 + k) = true ∧ b.rb (Reg.secy (4 + k)) 0 = false ∧ bytes ≠ [] ∧ m.unack.length < 128),
    decide (k < 2 ∧ b.mirUp (4 + k) = true ∧ b.rb (Reg.secy (4 + k)) 0 = false),
    decide (k < 2 ∧ b.mirUp (4 + k) = true ∧ b.rb (Reg.secy (4 + k)) 0 = false ∧ ((m.unack.filter fun x => x.1 == n.toNat) = [(n.toNat,
      4 + k, pl)])),
    decide (k < 2 ∧ b.mirUp (4 + k) = true ∧ b.rb (Reg.secy (4 + k)) 0 = false ∧ m.rx = []),
    decide (k < 2 ∧ b.mirUp (4 + k) = true ∧ b.rb (Reg.secy (4 + k)) 0 = false ∧ 60 ≤ f.length ∧
      f.length ≤ b.rf (Reg.macCfg (4 + k)) 0 14 - 4 ∧ at' f 12 2 = b.rf (Reg.mfrCfg 0) 0 16 ∧ at' f 12 2 ≠ 0x8808 ∧
      (f.drop 23).headD 0 = 1 ∧ ((f.drop 22).headD 0).getLsbD 1 = false ∧ ((f.drop 22).headD 0).getLsbD 2 = false ∧ m.rx = [] ∧
      b.mir.taking = false ∧ ((f.drop 22).headD 0).getLsbD 0 = true),
    decide (k < 2 ∧ b.mirUp (4 + k) = true ∧ b.rb (Reg.secy (4 + k)) 0 = false ∧ 60 ≤ f.length ∧
      f.length ≤ b.rf (Reg.macCfg (4 + k)) 0 14 - 4 ∧ at' f 12 2 = b.rf (Reg.mfrCfg 0) 0 16 ∧ at' f 12 2 ≠ 0x8808 ∧
      (f.drop 23).headD 0 = 1 ∧ ((f.drop 22).headD 0).getLsbD 1 = false ∧ ((f.drop 22).headD 0).getLsbD 2 = false ∧ m.rx = [] ∧
      b.mir.taking = false ∧ ((f.drop 22).headD 0).getLsbD 0 = false ∧ m.held = [] ∧ fseq = m.rxNext ∧ b.rb Reg.twin 27 = false ∧ p < 8 ∧
      a < 2 ^ 48 ∧ body = [4, BitVec.ofNat 8 p, 6, 0] ++ toLe 6 a),
    decide (k < 2 ∧ b.mirUp (4 + k) = true ∧ b.rb (Reg.secy (4 + k)) 0 = false ∧ 60 ≤ f.length ∧
      f.length ≤ b.rf (Reg.macCfg (4 + k)) 0 14 - 4 ∧ at' f 12 2 = b.rf (Reg.mfrCfg 0) 0 16 ∧ at' f 12 2 ≠ 0x8808 ∧
      (f.drop 23).headD 0 = 1 ∧ ((f.drop 22).headD 0).getLsbD 1 = false ∧ ((f.drop 22).headD 0).getLsbD 2 = false ∧ m.rx = [] ∧
      b.mir.taking = false ∧ ((f.drop 22).headD 0).getLsbD 0 = false ∧ m.held = [] ∧ fseq ≠ m.rxNext ∧ atOrBelow fseq m.rxNext = false) ]

theorem met_MirrorFrames : covers
    [ Met.MirrorFrames (mirrorState { tx := [], unack := [(5,4,[1,2])], rxNext := 2, txNext := 0xFFFFFFFF, acked := 1 == 0 } [CwRec.horizon 2 5] 6) 0 2 77 (mirrorBytes 1 1 ([4,
        2, 6, 0] ++ toLe 6 77)) 5 [1,2],
      Met.MirrorFrames (mirrorState { tx := [], unack := [], rxNext := 2, txNext := 0xFFFFFFFF, acked := 0 == 0 } [] 6) 0 2 77 (mirrorBytes 0 2 ([4, 2, 6,
        0] ++ toLe 6 77)) 5 [1,2],
      Met.MirrorFrames (mirrorState { tx := [], unack := [], rxNext := 2, txNext := 0xFFFFFFFF, acked := 0 == 0 } [] 6) 0 2 77 (mirrorBytes 0 3 ([4, 2, 6,
        0] ++ toLe 6 77)) 5 [1,2] ] = true := by decide +kernel

def Met.LaneBringUp (s : State) (m k sub pos : Nat) (v : Word) (stat : BitVec 8) (slot : BitVec 257) (lock : Bool) : List Bool :=
  let b := s.blk
  let x := b.lane k
  let y := b.twoSub k
  let d := amSpacing y
  let a := x.am sub
  let lim := b.rf (Reg.lossCfg k) 16 4
  let n := if x.sig then x.fails + 1 else 0
  let fails_0 := fun (P : Blk → Prop) => decide ((lim = 0 ∨ n < lim))
  let fails_1 := fun (P : Blk → Prop) => decide (lim ≠ 0 ∧ lim ≤ n ∧ (4 ≤ k → b.rb Reg.retNet (9 - k) = false))
  let skew := (max x.am0.last pos - min x.am0.last pos) / 80
  [ decide (k < 6 ∧ b.grants m (Reg.lctrlReg k) = true ∧ fld v 2 2 ≠ 3 ∧ (b.rb (Reg.lctrlReg k) 0 = true ∧
      fld v 1 3 ≠ b.rf (Reg.lctrlReg k) 1 3 ∨ 4 ≤ k ∧ tbit v 1 = true)),
    decide (k < 6 ∧ b.grants m (Reg.lctrlReg k) = true ∧ fld v 2 2 ≠ 3 ∧ b.rb (Reg.lctrlReg k) 0 = false ∧ tbit v 0 = true ∧ (¬ (4 ≤ k ∧
      tbit v 1 = true)) ∧ x.step ≠ 9),
    decide (k < 6 ∧ b.grants m (Reg.lctrlReg k) = true ∧ fld v 2 2 ≠ 3 ∧ b.rb (Reg.lctrlReg k) 0 = true ∧ tbit v 0 = false ∧
      fld v 1 3 = b.rf (Reg.lctrlReg k) 1 3 ∧ (¬ (4 ≤ k ∧ tbit v 1 = true)) ∧ x.step ≠ 9),
    decide (k < 6 ∧ x.step = 1 ∧ b.sys.base ≠ 0xA),
    decide (k < 6 ∧ x.step = 2),
    decide (k < 6 ∧ x.step = 3 ∧ x.tr = 0),
    decide (k < 6 ∧ x.step = 3 ∧ x.tr = 2),
    decide (k < 6 ∧ x.step = 3 ∧ x.tr = 1 ∧ stat = 0 ∧ (x.sig && x.rxl) = true),
    decide (k < 6 ∧ x.step = 3 ∧ x.tr = 1 ∧ stat = 0 ∧ (x.sig && x.rxl) = false),
    decide (k < 6 ∧ x.step = 3 ∧ x.tr = 1 ∧ stat ≠ 0 ∧ (fails_0 fun b' => b'.rb (regKey (lanePage k) Reg.hFault) 1 = true)),
    decide (k < 6 ∧ x.step = 3 ∧ x.tr = 1 ∧ stat ≠ 0 ∧ (fails_1 fun b' => b'.rb (regKey (lanePage k) Reg.hFault) 1 = true)),
    decide (k < 6 ∧ x.step = 5 ∧ (x.rxl || lock) = true),
    decide (k < 6 ∧ x.step = 5 ∧ (x.rxl || lock) = false),
    decide (k < 6 ∧ x.step = 6 ∧ a.lock = false ∧ (sub = 0 ∨ y = true) ∧ amMatches slot = false),
    decide (k < 6 ∧ x.step = 6 ∧ a.lock = false ∧ (sub = 0 ∨ y = true) ∧ amMatches slot = true ∧ (pos < d ∨ pos - d ∉ a.cand)),
    decide (k < 6 ∧ x.step = 6 ∧ a.lock = false ∧ (sub = 0 ∨ y = true) ∧ amMatches slot = true ∧ d ≤ pos ∧ pos - d ∈ a.cand ∧ y = false),
    decide (k < 6 ∧ x.step = 6 ∧ a.lock = false ∧ (sub = 0 ∨ y = true) ∧ amMatches slot = true ∧ d ≤ pos ∧ pos - d ∈ a.cand ∧ sub = 1 ∧
      y = true ∧ x.am0.lock = true ∧ x.am0.amc = amCount slot ∧ skew ≤ 140),
    decide (k < 6 ∧ x.step = 6 ∧ a.lock = false ∧ (sub = 0 ∨ y = true) ∧ amMatches slot = true ∧ d ≤ pos ∧ pos - d ∈ a.cand ∧ sub = 1 ∧
      y = true ∧ x.am0.lock = true ∧ x.am0.amc = amCount slot ∧ 140 < skew ∧
      (fails_0 fun b' => b'.rb (regKey (lanePage k) Reg.hFault) 2 = true)),
    decide (k < 6 ∧ x.step = 6 ∧ a.lock = false ∧ (sub = 0 ∨ y = true) ∧ amMatches slot = true ∧ d ≤ pos ∧ pos - d ∈ a.cand ∧ sub = 1 ∧
      y = true ∧ x.am0.lock = true ∧ x.am0.amc = amCount slot ∧ 140 < skew ∧
      (fails_1 fun b' => b'.rb (regKey (lanePage k) Reg.hFault) 2 = true)),
    decide (k < 6 ∧ x.step = 6 ∧ a.lock = false ∧ (sub = 0 ∨ y = true) ∧ amMatches slot = true ∧ d ≤ pos ∧ pos - d ∈ a.cand ∧ sub = 1 ∧
      y = true ∧ x.am0.lock = true ∧ x.am0.amc ≠ amCount slot),
    decide (k < 6 ∧ x.step = 7 ∧ (sub = 0 ∨ y = true) ∧ a.lock = true ∧ pos = a.last + d * (a.miss + 1) ∧ amMatches slot = true),
    decide (k < 6 ∧ 1 ≤ x.step ∧ x.step < 8 ∧ (x.step = 5 → x.sig = true) ∧ (fails_0 fun b' => x.tr = 1 → .train k 2 ∈ b'.out)),
    decide (k < 6 ∧ 1 ≤ x.step ∧ x.step < 8 ∧ (x.step = 5 → x.sig = true) ∧ (fails_1 fun b' => x.tr = 1 → .train k 2 ∈ b'.out)),
    decide (k < 6 ∧ x.step = 5 ∧ x.sig = false) ]

theorem met_LaneBringUp : covers
    [ Met.LaneBringUp (laneState 1 { step := 1, sig := true, rxl := !true, fails := 1, tr := 0 } [(Reg.lossCfg 1, 0), (Reg.lctrlReg 1,
        0)]) 0 1 0 7 1 (if 0 = 1 && true then 0 else if (0 : Word) = 0 then 0 else 1) markSlot true,
      Met.LaneBringUp (laneState 1 { step := 2, sig := true, rxl := !true, fails := 1, tr := 0 } [(Reg.lossCfg 1, 0x20000),
        (Reg.lctrlReg 1, 1)]) 0 1 0 7 0 (if 0 = 1 && true then 0 else if (1 : Word) = 0 then 0 else 1) markSlot true,
      (let d := if 3 = 3 then 512*5760 else 1024*5760; let pos := 5*d + 9; Met.LaneBringUp (laneState 1 { step := 5, sig := false, rxl := true, fails := 1, am0 := lockState 0 pos d, am1 := lockState 0 pos d } [(Reg.lossCfg 1, 0), (Reg.lctrlReg 1, 3)]) 0 1 0 pos 0 0 (if true then markSlot else 0) true),
      Met.LaneBringUp (laneState 1 { step := 3, sig := true, rxl := !true, fails := 1, tr := 0 } [(Reg.lossCfg 1, 0), (Reg.lctrlReg 1,
        0)]) 0 1 0 7 0 (if 0 = 1 && true then 0 else if (0 : Word) = 0 then 0 else 1) markSlot true,
      Met.LaneBringUp (laneState 1 { step := 3, sig := true, rxl := !true, fails := 1, tr := 1 } [(Reg.lossCfg 1, 0), (Reg.lctrlReg 1,
        0)]) 0 1 0 7 0 (if 1 = 1 && true then 0 else if (0 : Word) = 0 then 0 else 1) markSlot true,
      Met.LaneBringUp (laneState 1 { step := 3, sig := true, rxl := !false, fails := 1, tr := 1 } [(Reg.lossCfg 1, 0), (Reg.lctrlReg 1,
        0)]) 0 1 0 7 0 (if 1 = 1 && false then 0 else if (0 : Word) = 0 then 0 else 1) markSlot false,
      Met.LaneBringUp (laneState 1 { step := 3, sig := true, rxl := !false, fails := 1, tr := 1 } [(Reg.lossCfg 1, 0), (Reg.lctrlReg 1,
        1)]) 0 1 0 7 0 (if 1 = 1 && false then 0 else if (1 : Word) = 0 then 0 else 1) markSlot false,
      Met.LaneBringUp (laneState 1 { step := 3, sig := true, rxl := !true, fails := 1, tr := 2 } [(Reg.lossCfg 1, 0), (Reg.lctrlReg 1,
        0)]) 0 1 0 7 0 (if 2 = 1 && true then 0 else if (0 : Word) = 0 then 0 else 1) markSlot true,
      Met.LaneBringUp (laneState 1 { step := 3, sig := true, rxl := !false, fails := 1, tr := 1 } [(Reg.lossCfg 1, 0x20000),
        (Reg.lctrlReg 1, 1)]) 0 1 0 7 0 (if 1 = 1 && false then 0 else if (1 : Word) = 0 then 0 else 1) markSlot false,
      (let d := if 0 = 3 then 512*5760 else 1024*5760; let pos := 5*d + 9; Met.LaneBringUp (laneState 1 { step := 5, sig := true, rxl := false, fails := 1, am0 := lockState 0 pos d, am1 := lockState 0 pos d } [(Reg.lossCfg 1, 0), (Reg.lctrlReg 1, 0)]) 0 1 0 pos 0 0 (if false then markSlot else 0) false),
      (let d := if 0 = 3 then 512*5760 else 1024*5760; let pos := 5*d + 9; Met.LaneBringUp (laneState 1 { step := 6, sig := true, rxl := true, fails := 1, am0 := lockState 0 pos d, am1 := lockState 0 pos d } [(Reg.lossCfg 1, 0), (Reg.lctrlReg 1, 0)]) 0 1 0 pos 0 0 (if true then markSlot else 0) true),
      (let d := if 0 = 3 then 512*5760 else 1024*5760; let pos := 5*d + 9; Met.LaneBringUp (laneState 1 { step := 6, sig := true, rxl := false, fails := 1, am0 := lockState 0 pos d, am1 := lockState 0 pos d } [(Reg.lossCfg 1, 0), (Reg.lctrlReg 1, 0)]) 0 1 0 pos 0 0 (if false then markSlot else 0) false),
      (let d := if 0 = 3 then 512*5760 else 1024*5760; let pos := 5*d + 9; Met.LaneBringUp (laneState 1 { step := 6, sig := true, rxl := true, fails := 1, am0 := lockState 1 pos d, am1 := lockState 0 pos d } [(Reg.lossCfg 1, 0), (Reg.lctrlReg 1, 0)]) 0 1 0 pos 0 0 (if true then markSlot else 0) true),
      (let d := if 3 = 3 then 512*5760 else 1024*5760; let pos := 5*d + 9; Met.LaneBringUp (laneState 1 { step := 6, sig := true, rxl := true, fails := 1, am0 := lockState 2 pos d, am1 := lockState 1 pos d } [(Reg.lossCfg 1, 0), (Reg.lctrlReg 1, 3)]) 0 1 1 pos 0 0 (if true then markSlot else 0) true),
      (let d := if 3 = 3 then 512*5760 else 1024*5760; let pos := 5*d + 9; Met.LaneBringUp (laneState 1 { step := 6, sig := true, rxl := true, fails := 1, am0 := lockState 3 pos d, am1 := lockState 1 pos d } [(Reg.lossCfg 1, 0), (Reg.lctrlReg 1, 3)]) 0 1 1 pos 0 0 (if true then markSlot else 0) true),
      (let d := if 3 = 3 then 512*5760 else 1024*5760; let pos := 5*d + 9; Met.LaneBringUp (laneState 1 { step := 6, sig := true, rxl := true, fails := 1, am0 := lockState 4 pos d, am1 := lockState 1 pos d } [(Reg.lossCfg 1, 0), (Reg.lctrlReg 1, 3)]) 0 1 1 pos 0 0 (if true then markSlot else 0) true),
      (let d := if 3 = 3 then 512*5760 else 1024*5760; let pos := 5*d + 9; Met.LaneBringUp (laneState 1 { step := 6, sig := true, rxl := true, fails := 1, am0 := lockState 2 pos d, am1 := lockState 1 pos d } [(Reg.lossCfg 1, 0x20000), (Reg.lctrlReg 1, 3)]) 0 1 1 pos 0 0 (if true then markSlot else 0) true),
      (let d := if 0 = 3 then 512*5760 else 1024*5760; let pos := 5*d + 9; Met.LaneBringUp (laneState 1 { step := 7, sig := true, rxl := true, fails := 1, am0 := lockState 2 pos d, am1 := lockState 0 pos d } [(Reg.lossCfg 1, 0), (Reg.lctrlReg 1, 0)]) 0 1 0 pos 0 0 (if true then markSlot else 0) true) ] = true := by decide +kernel

def Met.LaneFaults (s : State) (m k sub pos : Nat) (rxLock level : Bool) (slot : BitVec 257) (data parity : List (BitVec 10)) (mac : List (BitVec 66)) : List Bool :=
  let b := s.blk
  let x := b.lane k
  let a := x.am sub
  [ decide (k < 6 ∧ b.grants m (Reg.lcmd k) = true ∧ x.step ≠ 9 ∧ (4 ≤ k → b.rb Reg.retNet (9 - k) = false)),
    decide (k < 6 ∧ b.grants m (Reg.lcmd k) = true ∧ x.step ≠ 9 ∧ b.rb (Reg.lctrlReg k) 0 = true),
    decide (k < 6 ∧ b.grants m (Reg.lcmd k) = true ∧ x.step ≠ 9 ∧ b.rb (Reg.lctrlReg k) 0 = false),
    decide (k < 6 ∧ b.grants m (Reg.lcmd k) = true ∧ x.step = 9),
    decide (k < 6 ∧ x.step = 8),
    decide (k < 6 ∧ x.step = 8 ∧ a.lock = true),
    decide (k < 6 ∧ x.step = 8 ∧ a.lock = true ∧ (sub = 0 ∨ b.twoSub k = true) ∧ pos = a.last + amSpacing (b.twoSub k) * (a.miss + 1) ∧
      amMatches slot = false ∧ 2 ≤ a.miss),
    decide (k < 6 ∧ x.step = 8 ∧ a.lock = true ∧ (sub = 0 ∨ b.twoSub k = true) ∧ pos = a.last + amSpacing (b.twoSub k) * (a.miss + 1) ∧
      amMatches slot = false ∧ a.miss < 2),
    decide (k < 6 ∧ (x.step = 6 ∨ x.step = 7)),
    decide (k < 6 ∧ (x.step < 4 ∨ x.step = 9)),
    decide (k < 6 ∧ 4 ≤ x.step ∧ x.step < 7),
    decide (k < 6 ∧ (x.step = 7 ∨ x.step = 8)),
    decide (k < 6) ]

theorem met_LaneFaults : covers
    [ (let d := 1024*5760; let pos := 5*d+9; Met.LaneFaults (laneState 1 { step := 8, sig := true, rxl := true, unc := 0, ser := 7, rxN := 0, txN := 0, am0 := { lock := true, last := pos - d*(0+1), miss := 0 } } [(Reg.lossCfg 1, 0x05000000), (Reg.lctrlReg 1, 0), (Reg.serThr 1, 5)] |> fun s => { s with blk := s.blk.setF (Reg.lstat 1) 4 2 3 }) 0 1 0 pos true (0 == 1) 0 ((wordWith 0).take 514) ((wordWith 0).drop 514) []),
      (let d := 1024*5760; let pos := 5*d+9; Met.LaneFaults (laneState 1 { step := 6, sig := true, rxl := true, unc := 0, ser := 7, rxN := 0, txN := 0, am0 := { lock := true, last := pos - d*(0+1), miss := 0 } } [(Reg.lossCfg 1, 0x05000000), (Reg.lctrlReg 1, 1), (Reg.serThr 1, 5)] |> fun s => { s with blk := s.blk.setF (Reg.lstat 1) 4 2 3 }) 0 1 0 pos true (0 == 1) 0 ((wordWith 0).take 514) ((wordWith 0).drop 514) []),
      (let d := 1024*5760; let pos := 5*d+9; Met.LaneFaults (laneState 1 { step := 9, sig := true, rxl := true, unc := 0, ser := 7, rxN := 0, txN := 0, am0 := { lock := true, last := pos - d*(0+1), miss := 0 } } [(Reg.lossCfg 1, 0x05000000), (Reg.lctrlReg 1, 0), (Reg.serThr 1, 5)] |> fun s => { s with blk := s.blk.setF (Reg.lstat 1) 4 2 3 }) 0 1 0 pos true (0 == 1) 0 ((wordWith 0).take 514) ((wordWith 0).drop 514) []),
      (let d := 1024*5760; let pos := 5*d+9; Met.LaneFaults (laneState 1 { step := 8, sig := true, rxl := true, unc := 0, ser := 7, rxN := 0, txN := 0, am0 := { lock := true, last := pos - d*(2+1), miss := 2 } } [(Reg.lossCfg 1, 0x05000000), (Reg.lctrlReg 1, 0), (Reg.serThr 1, 5)] |> fun s => { s with blk := s.blk.setF (Reg.lstat 1) 4 2 3 }) 0 1 0 pos true (2 == 1) 0 ((wordWith 0).take 514) ((wordWith 0).drop 514) []) ] = true := by decide +kernel

def Met.FramesIn (s : State) (p : Nat) (ts : BitVec 64) (d : List Byte) : List Bool :=
  let b := s.blk
  let vid := if frameVid d = 0 then b.rf (Reg.portCfg p) 0 12 else frameVid d
  let open' := p < 20 ∧ b.portUp p = true ∧ 2 ≤ b.sys.base ∧ b.sys.base ≠ 0xA ∧ b.rb Reg.pwrStat 8 = false
  let good := open' ∧ b.sys.base ≠ 7 ∧ 60 ≤ d.length ∧ d.length ≤ b.maxFrame p ∧ b.rb (Reg.secy (secyOf p)) 0 = false ∧
    frameType d ≠ 0x88F7 ∧ frameType d ≠ 0x8808 ∧ b.forFabric d = false ∧ b.forDoip d = false ∧
    (b.rb (Reg.portCfg p) 12 = false ∨ hasTag d = true) ∧ b.strmFind (untag d) vid = none
  let cpuMac := (b.reg Reg.cpuMacLo).toNat + (b.reg Reg.cpuMacHi).toNat % 2 ^ 16 * 2 ^ 32
  let c := b.learn (frameSa d) vid p
  let z := c.fwdPorts p vid (frameDa d)
  let q := fun (j : Nat) => Config.pcpQueue j (framePcp d) % 8
  let r := b.cpuQueue (framePcp d)
  let n := 8 * b.rf (Reg.cpuRing r) 24 8
  let head := b.rf (Reg.cpuRxht r) 0 16
  let a := 0x10000000 + b.rf (Reg.cpuRing r) 4 19 * 16 + 16 * head
  let buf := 0x10000000 + leNat (b.bytes a 4) % 2 ^ 23
  [ decide (¬ open'),
    decide (open'),
    decide (open' ∧ (d.length < 60 ∨ b.maxFrame p < d.length)),
    decide (good ∧ frameDa d ≠ cpuMac ∧ z.1.testBit 20 = false ∧ b.sw.cells + 20 * cellsOf (withTag (untag d) 0 0) ≤ b.cellCap ∧
      ((List.range 20).all (fun j => decide (((b.queue j (q j)).foldl (fun n x => n + cellsOf x.data) 0) + cellsOf (withTag (untag d) 0 0) ≤ b.qlim j)) = true)),
    decide (good ∧ frameDa d = cpuMac ∧ d.length ≤ 2 ^ (b.rf Reg.cpuBufsz 0 4 + 8) ∧ 0 < n ∧ (head + 1) % n ≠ b.rf (Reg.cpuRxht r) 16 16 ∧
      b.swCheck false a 16 = none ∧ b.swCheck true (a + 4) 12 = none ∧ b.swCheck true buf d.length = none) ]

theorem met_FramesIn : covers
    [ Met.FramesIn (romState 4 (switchOn rxRings)) 1 0x1234567 (frameOf 0x021122334455 0x665544 [] 46),
      Met.FramesIn (romState 4 (switchOn rxRings)) 1 0x1234567 (frameOf 0x001122334455 0x665544 [] 50),
      Met.FramesIn (romState 4 (switchOn rxRings)) 1 0x1234567 (frameOf 0x7766 0x665544 [] 45),
      Met.FramesIn (romState 0 (switchOn rxRings)) 1 0x1234567 (frameOf 0x7766 0x665544 [] 60) ] = true := by decide +kernel

def Met.FramesOut (s : State) (m p q : Nat) (ts : BitVec 64) (v : Word) (f : QFrame) (rest : List QFrame) : List Bool :=
  let b := s.blk
  let n := max 1 (8 * b.rf (Reg.cpuTxring q) 24 8)
  let kept := Tab.get (fun _ => 0) b.sw.tails q % n
  let a := 0x10000000 + b.rf (Reg.cpuTxring q) 4 19 * 16 + 16 * kept
  let buf := 0x10000000 + leNat (b.bytes a 4) % 2 ^ 23
  let len := leNat (b.bytes (a + 4) 2)
  let port := (b.byte (a + 6)).toNat % 32
  let cls := (b.byte (a + 7)).toNat % 8
  let d := b.bytes buf len
  [ decide (p < 20 ∧ q < 8 ∧ b.portUp p = true ∧ 2 ≤ b.sys.base ∧ b.sys.base ≠ 7 ∧ b.sys.base ≠ 0xA ∧ b.gateOpen p q = true ∧
      ((List.range 8).all (fun j => decide (q < j → b.gateOpen p j = false ∨ b.queue p j = [])) = true) ∧ b.queue p q = f :: rest ∧
      b.neverFits p q f.data = false ∧ b.fitsNow p q f.data = false),
    decide (p < 20 ∧ q < 8 ∧ b.portUp p = true ∧ 2 ≤ b.sys.base ∧ b.sys.base ≠ 7 ∧ b.sys.base ≠ 0xA ∧ b.gateOpen p q = true ∧
      ((List.range 8).all (fun j => decide (q < j → b.gateOpen p j = false ∨ b.queue p j = [])) = true) ∧ b.queue p q = f :: rest ∧
      b.neverFits p q f.data = false ∧ b.fitsNow p q f.data = true ∧ b.rb (Reg.secy (secyOf p)) 0 = false),
    decide (p < 20 ∧ q < 8 ∧ b.portUp p = true ∧ 2 ≤ b.sys.base ∧ b.sys.base ≠ 7 ∧ b.sys.base ≠ 0xA ∧ b.gateOpen p q = true ∧
      ((List.range 8).all (fun j => decide (q < j → b.gateOpen p j = false ∨ b.queue p j = [])) = true) ∧ b.queue p q = f :: rest ∧
      b.neverFits p q f.data = true ∧ f.desc = none),
    decide ((b.gateOpen p q = false ∨ b.queue p q = [] ∨ b.portUp p = false)),
    decide (q < 8 ∧ b.grants m (Reg.cpuTxpostReg q) = true ∧ b.seqOpen = true ∧ b.txCount q (fld v 0 16) = 1 ∧
      b.swCheck false a 16 = none ∧ b.swCheck false buf len = none ∧ (∀ w, w ∈ b.ecc → w.2 ≠ 1) ∧ (b.byte (a + 6)).getLsbD 5 = true ∧
      port < 20 ∧ b.strmFind (untag d) (if frameVid d = 0 then b.rf (Reg.portCfg 20) 0 12 else frameVid d) = none ∧
      b.sw.cells + cellsOf d ≤ b.cellCap ∧ (((b.queue port cls).foldl (fun n x => n + cellsOf x.data) 0) + cellsOf d ≤ b.qlim port)),
    decide (q < 8 ∧ b.grants m (Reg.cpuTxpostReg q) = true ∧ b.seqOpen = false ∧ b.sys.hold = false) ]

theorem met_FramesOut : covers
    [ Met.FramesOut (txState [(Reg.cpuTxring 3,
        0x01000200)] {} none (fun b => { b with sys := { b.sys with base := 4 } })) 0 2 3 0x12345678 1 (queuedFrame none) [queuedFrame none],
      Met.FramesOut (txState [] ({ on := true, len := 2 }) none (fun b => b.setBytes (0x10010000 + 2*0x1000) (toLe 8 (0*1) ++
        toLe 8 0x1000))) 0 2 3 0x12345678 1 (queuedFrame none) [queuedFrame none],
      Met.FramesOut (txState [] ({ on := true, len := 2 }) none (fun b => b.setBytes (0x10010000 + 2*0x1000) (toLe 8 (8*1) ++
        toLe 8 0x1000))) 0 2 3 0x12345678 1 (queuedFrame none) [queuedFrame none],
      Met.FramesOut (txState [(Reg.cpuTxring 3,
        0x01000200)] {} none (fun b => { b with sys := { b.sys with base := 3 } })) 0 2 3 0x12345678 1 (queuedFrame none) [queuedFrame none],
      Met.FramesOut (txState [] { on := true, len := 2, since := 5000 } none (fun b => { b.setBytes (0x10010000 + 2*0x1000) (toLe 8 (8 + 0x100000000000) ++ toLe 8 0) with tb := { b.tb with cnt := BitVec.ofNat 64 (5000 + 0xFFF) } })) 0 2 3 0x12345678 0 (queuedFrame none) [queuedFrame none] ] = true := by decide +kernel

def Met.SwitchTables (s : State) (m k : Nat) (i : BitVec 13) (w : BitVec 12) : List Bool :=
  let b := s.blk
  let ent := fun (t : Tab (BitVec 128)) (j : Nat) => Tab.get (fun _ => (0 : BitVec 128)) t j
  let win := fun (r : Nat → Nat) => b.reg (r 3) ++ b.reg (r 2) ++ b.reg (r 1) ++ b.reg (r 0)
  let x := b.rf Reg.saIdx 0 9
  let aging := ent b.sw.fdb k
  [ decide (b.grants m Reg.fdbCmd = true),
    decide (b.grants m Reg.fdbCmd = true ∧ (Tab.wf (fun _ => (0 : BitVec 128)) b.sw.fdb = true)),
    decide (b.grants m Reg.vlanCmd = true),
    decide (b.grants m Reg.strmCmd = true),
    decide (b.grants m Reg.strmCmd = true ∧ strmType (win Reg.strmD) ≠ 3),
    decide (b.grants m Reg.strmCmd = true ∧ strmType (win Reg.strmD) = 3),
    decide (b.grants m Reg.saCmd = true ∧ x % 32 < 22 ∧ x / 32 % 8 < 5),
    decide (b.grants m Reg.saCmd = true ∧ (22 ≤ x % 32 ∨ 5 ≤ x / 32 % 8)),
    decide (fdbValid aging = true ∧ fdbStatic aging = false),
    decide ((fdbValid aging = false ∨ fdbStatic aging = true)) ]

theorem met_SwitchTables : covers
    [ Met.SwitchTables (romState 4 (fun b => { setRegs [(Reg.strmIdx, 5), (Reg.saIdx, 5), (Reg.fdbD 3, 0xC0000000), (Reg.fdbD 0, 7), (Reg.saD 0, 0x80000003), (Reg.strmD 1, 0), (Reg.vlanD 0, 7)] b with sw := { b.sw with fdb := [(1, 0x80000000000000000000000000000005), (5, 0xC0000000000000000000000000000005)], recov := [(5, {on := true})] } })) 0 0 (BitVec.ofNat 13 0) 7,
      Met.SwitchTables (romState 4 (fun b => { setRegs [(Reg.strmIdx, 5), (Reg.saIdx, 5), (Reg.fdbD 3, 0xC0000000), (Reg.fdbD 0, 7), (Reg.saD 0, 0x80000003), (Reg.strmD 1, 0x30000000), (Reg.vlanD 0, 7)] b with sw := { b.sw with fdb := [(1, 0x80000000000000000000000000000005), (5, 0xC0000000000000000000000000000005)], recov := [(5, {on := true})] } })) 0 1 (BitVec.ofNat 13 1) 7,
      Met.SwitchTables (romState 4 (setRegs [(Reg.saIdx, 22)])) 0 5 5 5 ] = true := by decide +kernel

def Met.SwitchTimes (s : State) (m p : Nat) (v : Word) : List Bool :=
  let b := s.blk
  let x := b.gate p
  let asked := (tbit v 0, fld v 1 8 + 1, (b.reg (Reg.cycle p)).toNat,
      (b.reg (Reg.baseLo p)).toNat + (b.reg (Reg.baseHi p)).toNat * 2 ^ 32)
  let takes := fun (t : Bool × Nat × Nat × Nat) =>
    { x with on := true, listB := t.1, len := t.2.1, cycle := t.2.2.1, base := t.2.2.2, idx := 0, swap := none }
  let reads := fun (y : Gate) => b.swCheck false (b.gateAddr p y.listB y.idx) 8 = none ∧ ∀ w, w ∈ b.ecc → w.2 ≠ 1
  let next := { x with idx := if x.idx + 1 < x.len then x.idx + 1 else 0 }
  [ decide (p < 20 ∧ x.on = true ∧ reads next),
    decide (p < 20 ∧ x.on = false),
    decide (p < 20 ∧ b.grants m (Reg.operReg p) = true ∧ tbit v 31 = true ∧ (x.on = true ∨ reads (takes asked))),
    (let t := x.swap.getD (false, 0, 0, 0); let k := if x.cycle = 0 ∨ t.2.2.2 ≤ x.base then 0 else (t.2.2.2 - x.base + x.cycle - 1) / x.cycle; let st := x.base + k * x.cycle; decide (p < 20 ∧
      x.swap = some t ∧ st = x.base + k * x.cycle ∧ t.2.2.2 ≤ st ∧ (k = 0 ∨ x.base + (k - 1) * x.cycle < t.2.2.2) ∧ st ≤ b.tb.cnt.toNat ∧
      reads (takes t))),
    (let t := x.swap.getD (false, 0, 0, 0); let k := if x.cycle = 0 ∨ t.2.2.2 ≤ x.base then 0 else (t.2.2.2 - x.base + x.cycle - 1) / x.cycle; let st := x.base + k * x.cycle; decide (p < 20 ∧
      x.swap = some t ∧ st = x.base + k * x.cycle ∧ t.2.2.2 ≤ st ∧ (k = 0 ∨ x.base + (k - 1) * x.cycle < t.2.2.2) ∧ b.tb.cnt.toNat < st)),
    decide (p < 20 ∧ b.rb Reg.asCfg 0 = true ∧ b.rb Reg.asCfg 1 = true ∧ b.rb Reg.asCfg (3 + p) = true ∧ b.sw.slave = false ∧
      b.sys.base ≠ 7 ∧ b.portUp p = true),
    decide (p < 20 ∧ 0 < b.sw.ann ∧ b.rb Reg.doipCtrl 0 = true),
    decide (p < 20 ∧ b.sw.ann = 0) ]

theorem met_SwitchTimes : covers
    [ Met.SwitchTimes (romState 2 (fun b => { switchOn [(Reg.asCfg, 0x23), (Reg.doipCtrl, 0x23)] b with tb := { b.tb with cnt := 1000 }, sw := { b.sw with ann := 0, gates := [(2, { on := true, len := 2, swap := none })] } })) 0 2 0x80000003,
      Met.SwitchTimes (romState 2 (fun b => { switchOn [(Reg.asCfg, 0x23), (Reg.doipCtrl, 0x23)] b with tb := { b.tb with cnt := 1000 }, sw := { b.sw with ann := 1, gates := [(2, { on := false, len := 2, swap := none })] } })) 0 2 0,
      Met.SwitchTimes (romState 4 (fun b => { switchOn [(Reg.gclBase, 0x10000)] b with tb := { b.tb with cnt := 1000 }, sw := { b.sw with gates := [(2, { on := true, len := 2, base := 900, cycle := 50, swap := some (true, 3, 100, 1000) })] } })) 0 2 0,
      Met.SwitchTimes (romState 4 (fun b => { switchOn [(Reg.gclBase, 0x10000)] b with tb := { b.tb with cnt := 1000 }, sw := { b.sw with gates := [(2, { on := true, len := 2, base := 900, cycle := 50, swap := some (true, 3, 100, 2000) })] } })) 0 2 0 ] = true := by decide +kernel

def Met.EdgePorts (s : State) (m n : Nat) (v : Word) (level : Bool) : List Bool :=
  let b := s.blk
  let legal := (fld v 1 2 = 0 ∧ fld v 3 2 ≤ 1 ∨ fld v 1 2 = 1 ∧ fld v 3 2 = 2 ∨ fld v 1 2 = 2 ∧ fld v 3 2 ≤ 2) ∧
    (tbit v 5 = true → fld v 1 2 = 0 ∧ fld v 3 2 = 0)
  let refused := (tbit v 0 = true ∧ ¬ legal) ∨ (b.rb (Reg.ecfgReg n) 0 = true ∧ fld v 1 2 ≠ b.rf (Reg.ecfgReg n) 1 2)
  [ decide (n < 16 ∧ b.grants m (Reg.ecfgReg n) = true ∧ ¬ refused),
    decide (n < 16 ∧ b.grants m (Reg.ecfgReg n) = true ∧ refused),
    decide (n < 16 ∧ 2 ≤ b.sys.base ∧ b.rb (Reg.estat n) 0 ≠ level),
    decide (n < 16 ∧ 2 ≤ b.sys.base ∧ n ∉ b.sw.irq),
    decide (n < 16 ∧ b.rb (Reg.estat n) 0 = true ∧ b.rb (Reg.ecfgReg n) 0 = true ∧ b.rb (Reg.estat n) 3 = false),
    decide (n < 16 ∧ (b.rb (Reg.estat n) 0 = false ∨ b.rb (Reg.ecfgReg n) 0 = false)) ]

theorem met_EdgePorts : covers
    [ Met.EdgePorts (romState 4 (setRegs [(Reg.ecfgReg 3, 0), (Reg.estat 3, 0)])) 0 3 (BitVec.ofNat 32 (0 + 0x2000)) true,
      Met.EdgePorts (romState 4 (setRegs [(Reg.ecfgReg 3, 1), (Reg.estat 3, 1)])) 0 3 (BitVec.ofNat 32 (2 + 0x2000)) true ] = true := by decide +kernel

def Met.FabricCommands (s : State) (m e : Nat) (w len : BitVec 4) : List Bool :=
  let b := s.blk
  let g := b.opGlobal e
  let n := g / 2 ^ 55
  let p := b.peer n
  let a := g % 2 ^ 40
  let k := if w = 2 then 4 else 8
  let wide := w = 2 ∨ w = 3
  let ready := b.seqOpen = true ∧ b.rb (Reg.opStat e) 0 = false
  let common_0 := fun (c : Nat) => decide (b.seqOpen = false)
  let common_1 := fun (c : Nat) => decide (b.seqOpen = true ∧ b.rb (Reg.opStat e) 0 = true)
  let common_2 := fun (c : Nat) => decide (ready ∧ c ≠ 6 ∧ ¬ wide ∧ (w ≠ 0 ∨ 3 ≤ c ∨ (c = 1 ∧ 8 ≤ len.toNat)))
  let common_3 := fun (c : Nat) => decide (ready ∧ (wide ∨ c = 6) ∧ g / 2 ^ 40 % 2 ^ 15 ≠ 0)
  let common_4 := fun (c : Nat) => decide (ready ∧ (wide ∨ c = 6) ∧ g / 2 ^ 40 % 2 ^ 15 = 0 ∧ n ≠ b.node ∧ p.down = true)
  [ decide (e < 16 ∧ s.blk.grants m (Reg.opCmd e) = true ∧ common_0 1),
    decide (e < 16 ∧ s.blk.grants m (Reg.opCmd e) = true ∧ common_1 1),
    decide (e < 16 ∧ s.blk.grants m (Reg.opCmd e) = true ∧ common_2 1),
    decide (e < 16 ∧ s.blk.grants m (Reg.opCmd e) = true ∧ common_3 1),
    decide (e < 16 ∧ s.blk.grants m (Reg.opCmd e) = true ∧ common_4 1),
    decide (e < 16 ∧ s.blk.grants m (Reg.opCmd e) = true ∧ common_0 2),
    decide (e < 16 ∧ s.blk.grants m (Reg.opCmd e) = true ∧ common_1 2),
    decide (e < 16 ∧ s.blk.grants m (Reg.opCmd e) = true ∧ common_2 2),
    decide (e < 16 ∧ s.blk.grants m (Reg.opCmd e) = true ∧ common_3 2),
    decide (e < 16 ∧ s.blk.grants m (Reg.opCmd e) = true ∧ common_4 2),
    decide (e < 16 ∧ s.blk.grants m (Reg.opCmd e) = true ∧ common_0 3),
    decide (e < 16 ∧ s.blk.grants m (Reg.opCmd e) = true ∧ common_1 3),
    decide (e < 16 ∧ s.blk.grants m (Reg.opCmd e) = true ∧ common_2 3),
    decide (e < 16 ∧ s.blk.grants m (Reg.opCmd e) = true ∧ common_3 3),
    decide (e < 16 ∧ s.blk.grants m (Reg.opCmd e) = true ∧ common_4 3),
    decide (e < 16 ∧ s.blk.grants m (Reg.opCmd e) = true ∧ common_0 4),
    decide (e < 16 ∧ s.blk.grants m (Reg.opCmd e) = true ∧ common_1 4),
    decide (e < 16 ∧ s.blk.grants m (Reg.opCmd e) = true ∧ common_2 4),
    decide (e < 16 ∧ s.blk.grants m (Reg.opCmd e) = true ∧ common_3 4),
    decide (e < 16 ∧ s.blk.grants m (Reg.opCmd e) = true ∧ common_4 4),
    decide (e < 16 ∧ s.blk.grants m (Reg.opCmd e) = true ∧ common_0 5),
    decide (e < 16 ∧ s.blk.grants m (Reg.opCmd e) = true ∧ common_1 5),
    decide (e < 16 ∧ s.blk.grants m (Reg.opCmd e) = true ∧ common_2 5),
    decide (e < 16 ∧ s.blk.grants m (Reg.opCmd e) = true ∧ common_3 5),
    decide (e < 16 ∧ s.blk.grants m (Reg.opCmd e) = true ∧ common_4 5),
    decide (e < 16 ∧ s.blk.grants m (Reg.opCmd e) = true ∧ common_0 6),
    decide (e < 16 ∧ s.blk.grants m (Reg.opCmd e) = true ∧ common_1 6),
    decide (e < 16 ∧ s.blk.grants m (Reg.opCmd e) = true ∧ common_3 6),
    decide (e < 16 ∧ s.blk.grants m (Reg.opCmd e) = true ∧ common_4 6),
    decide (e < 16 ∧ s.blk.grants m (Reg.opCmd e) = true ∧ ready ∧ g / 2 ^ 40 % 2 ^ 15 = 0 ∧ n ≠ b.node ∧ p.down = false ∧
      p.unack.length < 64 ∧ wide),
    decide (e < 16 ∧ s.blk.grants m (Reg.opCmd e) = true ∧ ready ∧ g / 2 ^ 40 % 2 ^ 15 = 0 ∧ n ≠ b.node ∧ p.down = false ∧
      p.unack.length < 64 ∧ w = 0 ∧ len.toNat < 8),
    decide (e < 16 ∧ s.blk.grants m (Reg.opCmd e) = true ∧ ready ∧ g / 2 ^ 40 % 2 ^ 15 = 0 ∧ n ≠ b.node ∧ p.down = false ∧
      p.unack.length < 64 ∧ w = 0),
    decide (e < 16 ∧ s.blk.grants m (Reg.opCmd e) = true ∧ ready ∧ g / 2 ^ 40 % 2 ^ 15 = 0 ∧ n ≠ b.node ∧ p.down = false ∧
      p.unack.length < 64),
    decide (e < 16 ∧ s.blk.grants m (Reg.opCmd e) = true ∧ ready ∧ g / 2 ^ 40 % 2 ^ 15 = 0 ∧ n = b.node ∧ wide ∧
      b.mCheck e (some (b.lead e / 2)) .load a k (b.pl (b.lead e)) = none ∧ plainPlace a = true ∧ (∀ j,
      a ≤ j → j < a + k → b.eccAt (unalias j) = 0)) ]

theorem met_FabricCommands : covers
    [ Met.FabricCommands (fabState 4 false 0 1 ({})) 0 3 0 0,
      Met.FabricCommands (fabState 4 false 0x02800000 0 ({})) 0 3 0 0,
      Met.FabricCommands (fabState 4 false 0x02800000 0 ({ down := true })) 0 3 2 0,
      Met.FabricCommands (fabState 4 false 0x02800100 0 ({})) 0 3 2 0,
      Met.FabricCommands (fabState 3 false 0 0 ({})) 0 3 0 0,
      Met.FabricCommands (fabState 4 false 0 0 ({})) 0 3 4 0,
      Met.FabricCommands (fabState 4 false 0 0 ({})) 0 3 2 0,
      Met.FabricCommands (fabState 4 false 0x02800000 0 ({})) 0 3 2 0 ] = true := by decide +kernel

def Met.FabricTarget (s : State) (n : Nat) (h : TalFrame) : List Bool :=
  let b := s.blk
  let x := b.peer n
  let a := h.addr.toNat
  let k := if h.width = 2 then 4 else 8
  let left := x.unack.filter fun f => !(atOrBelow f.1 h.ack.toNat)
  let next := b.fabOn = true ∧ h.start = false ∧ h.seq.toNat = x.rxNext ∧ x.wait = [] ∧ left.length < 64
  let atomic := next ∧ (h.width = 2 ∨ h.width = 3) ∧ a % k = 0 ∧ b.mCheck 19 none .atomic a k = none
  let link_0 := fun (_ : Unit) => decide (b.fabOn = false)
  let link_1 := fun (_ : Unit) => decide (b.fabOn = true ∧ h.start = false ∧ x.wait = [] ∧ h.seq.toNat ≠ x.rxNext ∧
      atOrBelow h.seq.toNat (ackOf x) = true)
  let link_2 := fun (_ : Unit) => decide (b.fabOn = true ∧ h.start = false ∧ x.wait = [] ∧ h.seq.toNat ≠ x.rxNext ∧
      atOrBelow h.seq.toNat (ackOf x) = false)
  [ decide (next ∧ b.mCheck 19 none .load a h.len = none ∧ place a ≠ .ext),
    decide (next ∧ h.payload.length ≤ 1024 ∧ b.mCheck 19 none .store a h.payload.length = none ∧ place a ≠ .ext),
    (let e := (b.mCheck 19 none .load a h.len).getD (.form, 0); decide (next ∧ b.mCheck 19 none .load a h.len = some e)),
    (let e := (b.mCheck 19 none .store a h.payload.length).getD (.form, 0); decide (next ∧
      b.mCheck 19 none .store a h.payload.length = some e)),
    decide (atomic),
    decide (next ∧ b.fab.db.length < 16),
    decide (next ∧ 16 ≤ b.fab.db.length),
    decide (link_0 ()),
    decide (link_1 ()),
    decide (link_2 ()) ]

theorem met_FabricTarget : covers
    [ Met.FabricTarget ((fabState 4 false 0 0 { unack := [(1,⟨1,2,3,4,5,[]⟩)] }) |> fun s => { s with blk := { s.blk with fab := { s.blk.fab with db := [(1,2)] } } }) 5 (talFrame 1 1 false 7 0x20000 2 0 (toBe (if 2 = 2 then 8 else 16) 0x0102030405060708) 8),
      Met.FabricTarget ((fabState 4 false 0 0 { unack := [(1,⟨1,2,3,4,5,[]⟩)] }) |> fun s => { s with blk := { s.blk with fab := { s.blk.fab with db := (List.replicate 16 (3,4)) } } }) 5 (talFrame 1 1 false 7 0x5000000000 0 0 (toBe (if 0 = 2 then 8 else 16) 0x0102030405060708) 8),
      Met.FabricTarget ((fabState 4 false 0 0 { unack := [(1,⟨1,2,3,4,5,[]⟩)] }) |> fun s => { s with blk := { s.blk with fab := { s.blk.fab with db := [(1,2)] } } }) 5 (talFrame 0xFFFFFFFF 1 false 7 0x20000 0 0 (toBe (if 0 = 2 then 8 else 16) 0x0102030405060708) 8),
      Met.FabricTarget ((fabState 4 false 0 0 { unack := [(1,⟨1,2,3,4,5,[]⟩)] }) |> fun s => { s with blk := { s.blk with fab := { s.blk.fab with db := [(1,2)] } } }) 5 (talFrame 3 1 false 7 0x20000 0 0 (toBe (if 0 = 2 then 8 else 16) 0x0102030405060708) 8),
      Met.FabricTarget ((fabState 1 false 0 0 { unack := [(1,⟨1,2,3,4,5,[]⟩)] }) |> fun s => { s with blk := { s.blk with fab := { s.blk.fab with db := [(1,2)] } } }) 5 (talFrame 1 1 false 7 0x20000 0 0 (toBe (if 0 = 2 then 8 else 16) 0x0102030405060708) 8) ] = true := by decide +kernel

def Met.FabricRequester (s : State) (m n e ch id : Nat) (h : TalFrame) (ack : Word) (start : Bool) (node : BitVec 9) (o : FabOp) : List Bool :=
  let b := s.blk
  let x := b.peer n
  let next := b.fabOn = true ∧ h.start = false ∧ h.seq.toNat = x.rxNext ∧ x.wait = []
  let found := fun (op : Nat) => b.fab.ops.find? fun y => y.tag == h.tag.toNat && y.node == n && respOp y.op == op
  let left := fun (a : Nat) => x.unack.filter fun f => !(atOrBelow f.1 a)
  let response_0 := fun (c : Nat) => decide (next ∧ found c = some o ∧ o.who = .slot e ∧ e < 16)
  let response_1 := fun (c : Nat) => decide (next ∧ found c = some o ∧ o.who = .mover ch id ∧ ch < 64 ∧ b.chWaits ch id = false)
  let response_2 := fun (c : Nat) => decide (next ∧ found c = some o ∧ o.who = .mover ch id ∧ ch < 64 ∧ b.chWaits ch id = true ∧
      h.status = 0 ∧ (b.ch ch).outR = true)
  let response_3 := fun (c : Nat) => decide (next ∧ found c = some o ∧ o.who = .mover ch id ∧ ch < 64 ∧ b.chWaits ch id = true ∧
      h.status ≠ 0 ∧ h.status.toNat < 6)
  let response_4 := fun (c : Nat) => decide (next ∧ found c = none)
  [ decide (response_0 0x81),
    decide (response_1 0x81),
    decide (response_2 0x81),
    decide (response_3 0x81),
    decide (response_4 0x81),
    decide (response_0 0x82),
    decide (response_1 0x82),
    decide (response_2 0x82),
    decide (response_3 0x82),
    decide (response_4 0x82),
    decide (response_0 0x83),
    decide (response_1 0x83),
    decide (response_2 0x83),
    decide (response_3 0x83),
    decide (response_4 0x83),
    decide (b.fabOn = true ∧ x.wait = []),
    decide (b.fabOn = true ∧ x.wait = [] ∧ left ack.toNat = x.unack ∧ x.resend < b.rf Reg.fabRtoReg 24 4),
    decide (x.unack ≠ [] ∧ x.resend < b.rf Reg.fabRtoReg 24 4),
    decide (x.unack ≠ [] ∧ b.rf Reg.fabRtoReg 24 4 ≤ x.resend ∧
      (b.fab.ops.all fun y => y.node != n || (List.range 16).any fun e => y.who == .slot e)),
    decide (x.unack = []),
    decide (x.ackDue = true ∧ b.rb Reg.fabCfg 16 = true),
    decide (x.ackDue = false),
    decide (b.shows m Reg.dbFifoReg = true),
    decide (b.grants m Reg.peerIdx = true ∧ b.reaches m Reg.peerStat = true) ]

theorem met_FabricRequester : covers
    [ Met.FabricRequester (fabOps ({} : Peer) [(⟨3, 5, 1, 2, .slot 3⟩ : FabOp)]) 0 5 3 4 7 (talFrame 1 0 false 3 0 2 0 [1, 2, 3,
        4] 4) 0 true 5 (⟨3, 5, 1, 2, .slot 3⟩ : FabOp),
      Met.FabricRequester (fabOps ({ unack := [(1, ⟨1, 2, 3, 4, 5, []⟩)], ackDue := true } : Peer) [(⟨0x45, 5, 2, 2,
        .mover 4 7⟩ : FabOp)]) 0 5 1 4 7 (talFrame 1 0 false 0x45 0 2 0 [1, 2, 3, 4] 4) 0 true 5 (⟨0x45, 5, 2, 2, .mover 4 7⟩ : FabOp),
      Met.FabricRequester (fabOps ({ unack := [(1, ⟨1, 2, 3, 4, 5, []⟩)], resend := 2 } : Peer) [(⟨9, 5, 3, 3,
        .slot 9⟩ : FabOp)]) 0 5 9 4 7 (talFrame 1 0 false 9 0 2 0 [1, 2, 3, 4] 4) 0 true 5 (⟨9, 5, 3, 3, .slot 9⟩ : FabOp),
      Met.FabricRequester (fabOps ({} : Peer) [(⟨0x45, 5, 2, 2, .mover 4 7⟩ : FabOp)]) 0 5 1 4 7 (talFrame 1 0 false 0x45 0 2 1 [1, 2,
        3, 4] 4) 0 true 5 (⟨0x45, 5, 2, 2, .mover 4 7⟩ : FabOp),
      Met.FabricRequester (fabOps ({} : Peer) [(⟨3, 5, 2, 2, .slot 3⟩ : FabOp)]) 0 5 3 4 7 (talFrame 1 0 false 3 0 2 0 [1, 2, 3,
        4] 4) 0 true 5 (⟨3, 5, 2, 2, .slot 3⟩ : FabOp),
      Met.FabricRequester (fabOps ({} : Peer) [(⟨3, 5, 3, 2, .mover 4 7⟩ : FabOp)]) 0 5 1 4 7 (talFrame 1 0 false 3 0 2 0 [1, 2, 3,
        4] 4) 0 true 5 (⟨3, 5, 3, 2, .mover 4 7⟩ : FabOp),
      Met.FabricRequester (fabOps ({} : Peer) [(⟨3, 5, 3, 2, .mover 4 7⟩ : FabOp)]) 0 5 1 4 7 (talFrame 1 0 false 3 0 2 1 [1, 2, 3,
        4] 4) 0 true 5 (⟨3, 5, 3, 2, .mover 4 7⟩ : FabOp),
      Met.FabricRequester (fabOps ({} : Peer) [(⟨3, 5, 1, 2, .mover 4 7⟩ : FabOp)]) 0 5 1 4 7 (talFrame 1 0 false 3 0 2 0 [1, 2, 3,
        4] 4) 0 true 5 (⟨3, 5, 1, 2, .mover 4 7⟩ : FabOp),
      Met.FabricRequester (fabOps ({} : Peer) [(⟨3, 5, 1, 2, .mover 4 7⟩ : FabOp)]) 0 5 1 4 7 (talFrame 1 0 false 3 0 2 1 [1, 2, 3,
        4] 4) 0 true 5 (⟨3, 5, 1, 2, .mover 4 7⟩ : FabOp),
      Met.FabricRequester (fabOps ({} : Peer) [(⟨0x45, 5, 2, 2, .mover 4 8⟩ : FabOp)]) 0 5 1 4 8 (talFrame 1 0 false 0x45 0 2 0 [1, 2,
        3, 4] 4) 0 true 5 (⟨0x45, 5, 2, 2, .mover 4 8⟩ : FabOp),
      Met.FabricRequester (fabOps ({} : Peer) [(⟨3, 5, 3, 2, .mover 4 8⟩ : FabOp)]) 0 5 1 4 8 (talFrame 1 0 false 3 0 2 0 [1, 2, 3,
        4] 4) 0 true 5 (⟨3, 5, 3, 2, .mover 4 8⟩ : FabOp),
      Met.FabricRequester (fabOps ({} : Peer) [(⟨3, 5, 1, 2, .mover 4 8⟩ : FabOp)]) 0 5 1 4 8 (talFrame 1 0 false 3 0 2 0 [1, 2, 3,
        4] 4) 0 true 5 (⟨3, 5, 1, 2, .mover 4 8⟩ : FabOp) ] = true := by decide +kernel

def Met.DebugPort (s : State) (addr : BitVec 40) (write : Bool) (data v : Word) (p o : Nat) : List Bool :=
  let b := s.blk
  let a := addr.toNat / 4 * 4
  let t := b.tap
  [ decide (t.acc = none),
    decide (t.late = false ∧ p < 0x100 ∧ o < 0x4000 ∧ b.dbgReach (0x20000000 + p * 0x4000 + o) = true ∧ pageExists p = true ∧
      b.dbgOpen = true ∧ t.acc = some (0x20000000 + p * 0x4000 + o, true, v) ∧ b.grants 20 (regKey p o) = true),
    decide (t.late = false ∧ p < 0x100 ∧ o < 0x4000 ∧ b.dbgReach (0x20000000 + p * 0x4000 + o) = true ∧ pageExists p = true ∧
      b.dbgOpen = true ∧ t.acc = some (0x20000000 + p * 0x4000 + o, false, v) ∧ 0x40 ≤ o ∧ o < 0x1000 ∧ b.shows 20 (regKey p o) = true),
    decide (t.late = false ∧ b.dbgReach a = true ∧ plainPlace a = true ∧ t.acc = some (a, true, v) ∧ b.mCheck 20 none .store a 4 = none),
    decide (t.late = false ∧ b.dbgReach a = true ∧ plainPlace a = true ∧ t.acc = some (a, false, v) ∧ b.mCheck 20 none .load a 4 = none ∧
      b.eccAt (unalias a) = 0) ]

theorem met_DebugPort : covers
    [ (let s := romState (4:Nat) (fun b => { setRegs [(Reg.regLo 20 0, 0x10000000), (Reg.regHi 20 0, 0x300017FF)] b with tap := { b.tap with acc := none }, sec := { b.sec with shadow := prodFuse (0:Word) } }); Met.DebugPort s 0x20020 true 7 5 5 0x50),
      (let s := romState (4:Nat) (fun b => { setRegs [(Reg.regLo 20 0, 0x10000000), (Reg.regHi 20 0, 0x300017FF)] b with tap := { b.tap with acc := (some (0x20020, true, (5:Word))) }, sec := { b.sec with shadow := prodFuse (0:Word) } }); Met.DebugPort s 0x20020 true 7 5 5 0x50),
      (let s := romState (4:Nat) (fun b => { setRegs [(Reg.regLo 20 0, 0x10000000), (Reg.regHi 20 0, 0x300017FF)] b with tap := { b.tap with acc := (some (0x20020, false, 5)) }, sec := { b.sec with shadow := prodFuse (0:Word) } }); Met.DebugPort s 0x20020 true 7 5 5 0x50),
      (let s := romState (4:Nat) (fun b => { setRegs [(Reg.regLo 20 0, 0x10000000), (Reg.regHi 20 0, 0x300017FF)] b with tap := { b.tap with acc := (some (0x20000000 + 5*0x4000+0x50, true, 5)) }, sec := { b.sec with shadow := prodFuse (0:Word) } }); Met.DebugPort s 0x20020 true 7 5 5 0x50),
      (let s := romState (4:Nat) (fun b => { setRegs [(Reg.regLo 20 0, 0x10000000), (Reg.regHi 20 0, 0x300017FF)] b with tap := { b.tap with acc := (some (0x20000000 + 5*0x4000+0x50, false, 5)) }, sec := { b.sec with shadow := prodFuse (0:Word) } }); Met.DebugPort s 0x20020 true 7 5 5 0x50) ] = true := by decide +kernel

def Met.DebugHalts (s : State) (m e : Nat) (v : Word) : List Bool :=
  let b := s.blk
  let x := b.eng e
  let t := b.rf (Reg.dstat e) 7 6
  let d := b.task e t
  let runs := b.sys.base ≠ 0xA ∧ 2 ≤ b.sys.base
  let asked_0 := fun (mask : Word) (why : Nat) => decide (tbit mask e = true ∧ x.halted = false ∧ x.run = true)
  let asked_1 := fun (mask : Word) (why : Nat) => decide (tbit mask e = true ∧ x.halted = false ∧ x.run = false ∧ runs)
  let asked_2 := fun (mask : Word) (why : Nat) => decide (tbit mask e = false)
  let resumed_0 := fun (mask : Word) => decide (tbit mask e = true ∧ x.halted = true ∧ b.tap.ref ≠ some (e / 2))
  let resumed_1 := fun (mask : Word) => decide ((tbit mask e = false ∨ x.halted = false))
  let shut_0 := fun (r : Nat) => decide (b.grants m r = true ∧ b.dbgOpen = false)
  [ decide (e < 16 ∧ b.joined (e / 2) = false ∧ b.grants m Reg.haltReqReg = true ∧ b.dbgOpen = true ∧ asked_0 v 1),
    decide (e < 16 ∧ b.joined (e / 2) = false ∧ b.grants m Reg.haltReqReg = true ∧ b.dbgOpen = true ∧ asked_1 v 1),
    decide (e < 16 ∧ b.joined (e / 2) = false ∧ b.grants m Reg.haltReqReg = true ∧ b.dbgOpen = true ∧ asked_2 v 1),
    decide (e < 16 ∧ b.joined (e / 2) = false ∧ b.dbgOpen = true ∧ 2 ≤ b.sys.base ∧ asked_0 (BitVec.ofNat 32 (b.rf Reg.dbgCtrl 16 16)) 6),
    decide (e < 16 ∧ b.joined (e / 2) = false ∧ b.dbgOpen = true ∧ 2 ≤ b.sys.base ∧ asked_1 (BitVec.ofNat 32 (b.rf Reg.dbgCtrl 16 16)) 6),
    decide (e < 16 ∧ b.joined (e / 2) = false ∧ b.dbgOpen = true ∧ 2 ≤ b.sys.base ∧ asked_2 (BitVec.ofNat 32 (b.rf Reg.dbgCtrl 16 16)) 6),
    decide (e < 16 ∧ b.joined (e / 2) = false ∧ b.grants m Reg.resumeReqReg = true ∧ b.dbgOpen = true ∧ resumed_0 v),
    decide (e < 16 ∧ b.joined (e / 2) = false ∧ b.grants m Reg.resumeReqReg = true ∧ b.dbgOpen = true ∧ resumed_1 v),
    decide (e < 16 ∧ b.joined (e / 2) = false ∧ b.dbgOpen = true ∧ 2 ≤ b.sys.base ∧ resumed_0 (BitVec.ofNat 32 (b.rf Reg.dbgCtrl 16 16))),
    decide (e < 16 ∧ b.joined (e / 2) = false ∧ b.dbgOpen = true ∧ 2 ≤ b.sys.base ∧ resumed_1 (BitVec.ofNat 32 (b.rf Reg.dbgCtrl 16 16))),
    decide (e < 16 ∧ b.joined (e / 2) = false ∧ b.dbgOpen = false),
    decide (e < 16 ∧ b.joined (e / 2) = false ∧ shut_0 Reg.haltReqReg),
    decide (e < 16 ∧ b.joined (e / 2) = false ∧ shut_0 Reg.resumeReqReg),
    decide (e < 16 ∧ b.joined (e / 2) = false ∧ shut_0 Reg.stepReqReg),
    decide (e < 16 ∧ b.joined (e / 2) = false ∧ shut_0 Reg.reformReg),
    decide (e < 16 ∧ b.joined (e / 2) = false ∧ x.haltReq = true ∧ runs ∧ x.run = true ∧ x.arith = none ∧ b.midInstr e = false ∧
      x.cur < 64),
    decide (e < 16 ∧ b.joined (e / 2) = false ∧ x.haltReq = false),
    decide (e < 16 ∧ b.joined (e / 2) = false ∧ b.grants m Reg.stepReqReg = true ∧ b.dbgOpen = true ∧ fld v 0 16 = 2 ^ e ∧
      x.halted = true ∧ x.stepping = false ∧ b.rb (Reg.dstat e) 6 = false ∧ d.dbgHalt = true ∧ b.tap.ref ≠ some (e / 2) ∧ d.held = [] ∧
      d.wait = none ∧ x.vecFetch = none),
    decide (e < 16 ∧ b.joined (e / 2) = false ∧ b.grants m Reg.stepReqReg = true ∧ b.dbgOpen = true ∧ fld v 0 16 = 2 ^ e ∧
      x.halted = true ∧ x.stepping = false ∧ b.rb (Reg.dstat e) 6 = true),
    decide (e < 16 ∧ b.joined (e / 2) = false ∧ b.grants m Reg.stepReqReg = true ∧ b.dbgOpen = true ∧ fld v 0 16 = 2 ^ e ∧
      x.halted = false) ]

theorem met_DebugHalts : covers
    [ Met.DebugHalts (debugState true (true && !true) false true true false (fun b => { b with sec := { b.sec with shadow := prodFuse 3 } })) 0 2 0,
      Met.DebugHalts (debugState false (true && !false) true true true false (fun b => { b with sec := { b.sec with shadow := prodFuse (0:Word) } })) 0 2 4,
      Met.DebugHalts (debugState true (true && !true) true false true false (fun b => { b with sec := { b.sec with shadow := prodFuse (0:Word) } })) 0 2 4,
      Met.DebugHalts (debugState false (false && !false) true true true false (fun b => { b with sec := { b.sec with shadow := prodFuse (0:Word) } })) 0 2 0,
      Met.DebugHalts (debugState true (true && !true) true false false false (fun b => { b with sec := { b.sec with shadow := prodFuse (0:Word) } })) 0 2 4,
      Met.DebugHalts (debugState false (false && !false) true true true false (fun b => { b with sec := { b.sec with shadow := prodFuse (0:Word) } })) 0 2 4,
      Met.DebugHalts (debugState false true false false false false (fun b => b.setReg Reg.dbgCtrl 0)) 0 2 4 ] = true := by decide +kernel

def Met.PairsBreakAndReform (s : State) (m p : Nat) : List Bool :=
  let b := s.blk
  let e := 2 * p
  let x := b.eng e
  let both := (b.eng e).halted = true ∧ (b.eng (e + 1)).halted = true ∧ (b.eng e).stepping = false ∧ (b.eng (e + 1)).stepping = false
  [ decide (p < 8 ∧ b.joined p = true ∧ (b.pair p).phase = .live ∧ x.haltReq = true ∧ b.sys.base ≠ 0xA ∧ 2 ≤ b.sys.base ∧ x.run = true ∧
      x.arith = none ∧ b.midInstr e = false),
    decide (p < 8 ∧ b.grants m Reg.reformReg = true ∧ b.dbgOpen = true ∧ b.broken p = true ∧ both ∧ b.tap.ref = none),
    decide (p < 8 ∧ b.grants m Reg.reformReg = true ∧ b.dbgOpen = true ∧ (b.broken p = false ∨ ¬ both ∨ b.tap.ref ≠ none)),
    decide (p < 8 ∧ b.tap.ref = some p ∧ 2 ≤ b.sys.base),
    decide (p < 8 ∧ b.tap.ref ≠ some p) ]

theorem met_PairsBreakAndReform : covers
    [ Met.PairsBreakAndReform (debugState false (true && !false) true false false true (fun b => { (b.setEng 3 { halted := true }).setReg Reg.twin (if false then 2 else 0) with tap := { b.tap with ref := none } })) 0 1,
      Met.PairsBreakAndReform (debugState true (true && !true) true false false true (fun b => { (b.setEng 3 { halted := true }).setReg Reg.twin (if true then 2 else 0) with tap := { b.tap with ref := none } })) 0 1,
      Met.PairsBreakAndReform (debugState true (true && !true) true false false true (fun b => { (b.setEng 3 { halted := true }).setReg Reg.twin (if true then 2 else 0) with tap := { b.tap with ref := (some 1) } })) 0 1 ] = true := by decide +kernel

def Met.TraceAndCounters (s : State) (m n : Nat) (u : CounterUnit) (on : Bool) (v : Word) (r : BitVec 128) (rest : List (BitVec 128)) : List Bool :=
  let b := s.blk
  let unit := (match u with | .engine e => e | .mover => 16 | .switch => 17) = n ∧ n < 18 ∧
      (n < 16 ↔ (match u with | .engine _ => true | _ => false) = true)
  let size := (b.reg Reg.trcSize).toNat
  let w := if size ≤ (b.reg Reg.trcWptr).toNat then 0 else (b.reg Reg.trcWptr).toNat
  let a := 0x10000000 + (b.reg Reg.trcBase).toNat + w
  [ decide (unit ∧ b.grants m (unitCtrl u) = true),
    decide (unit ∧ b.grants m (unitCtrl u) = true ∧ b.rf (unitCtrl u) 2 30 = 0 ∧ b.rb (unitCtrl u) 0 = false),
    decide (b.grants m Reg.pmGsnapReg = true ∧ fld v 0 18 ≠ 0),
    decide (2 ≤ b.sys.base),
    decide (b.trc.fifo = r :: rest ∧ b.rb Reg.trcStat 1 = false ∧ b.rb Reg.trcStat 2 = false ∧ 2 ≤ b.sys.base ∧ b.sys.base ≠ 0xA ∧
      256 ≤ size ∧ b.mCheck 20 none .store a 16 = none),
    decide (b.trc.fifo = r :: rest ∧ b.rb Reg.trcStat 1 = false ∧ b.rb Reg.trcStat 2 = false ∧ 2 ≤ b.sys.base ∧ b.sys.base ≠ 0xA ∧
      256 ≤ size ∧ b.mCheck 20 none .store a 16 ≠ none),
    decide (b.trc.fifo = []),
    decide (b.grants 20 Reg.dbgRstReq = true ∧ b.dbgOpen = true ∧ fld v 0 16 = 0x5A5A),
    decide (b.grants 20 Reg.dbgRstReq = true ∧ b.dbgOpen = true ∧ fld v 0 16 ≠ 0x5A5A) ]

theorem met_TraceAndCounters : covers
    [ Met.TraceAndCounters (romState 4 (fun b => let b := setRegs ([(Reg.trcBase, 0x1000), (Reg.trcSize, 0x200), (Reg.trcWptr, 0), (Reg.trcCtrl, 1)] ++ (if true then [(Reg.regLo 20 0, 0x10010000), (Reg.regHi 20 0, 0x300107FF)] else []) ++ (List.range 8).map fun j => (pmCntOf 3 j, BitVec.ofNat 32 (j+5))) b; { b with trc := { b.trc with fifo := [0x1234, 0x5678] }, drive := { b.drive with lost := true } })) 0 3 (CounterUnit.engine 3) true 0x5A5A 0x1234 [0x5678],
      Met.TraceAndCounters (romState 4 (fun b => let b := setRegs ([(Reg.trcBase, 0x1000), (Reg.trcSize, 0x200), (Reg.trcWptr, 0), (Reg.trcCtrl, 1)] ++ (if false then [(Reg.regLo 20 0, 0x10010000), (Reg.regHi 20 0, 0x300107FF)] else []) ++ (List.range 8).map fun j => (pmCntOf 3 j, BitVec.ofNat 32 (j+5))) b; { b with trc := { b.trc with fifo := [0x1234, 0x5678] }, drive := { b.drive with lost := true } })) 0 3 (CounterUnit.engine 3) true 0 0x1234 [0x5678],
      Met.TraceAndCounters (romState 4) 0 3 (.engine 3) true 0 0 [] ] = true := by decide +kernel

def Met.RegisterPages (s : State) (m page off : Nat) (key : BitVec 16) (v : Word) (row : RegRow) : List Bool :=
  let b := s.blk
  let k := regKey page off
  let lock := regKey page Reg.hLock
  let plain := (0x011 ≤ page ∧ page < 0x015) ∨ page = 0x062
  let shut := page = 0x050 ∧ 0x100 ≤ off ∧ off < 0x200 ∧ m ≠ 20 ∧ ¬ (m < 16 ∧ b.pageLevel m page = some 3)
  [ decide (pageExists page = true ∧ b.reaches m lock = true ∧ b.locked page = false),
    decide (pageExists page = true ∧ b.reaches m lock = true ∧ b.locked page = true),
    decide (pageExists page = true ∧ b.reaches m lock = true ∧ b.locked page = true ∧ key = (b.reg lock).setWidth 16),
    decide (pageExists page = true ∧ b.reaches m lock = true ∧ b.locked page = true ∧ key ≠ (b.reg lock).setWidth 16),
    decide (pageExists page = true ∧ b.reaches m (regKey page Reg.hCtrl) = true ∧ b.locked page = false),
    decide (pageExists page = true ∧ b.reaches m (regKey page Reg.hCtrl) = true ∧ b.locked page = true),
    decide (pageExists page = true ∧ b.grants m (regKey page (0x1000 + Reg.hEvtEn)) = true),
    decide (pageExists page = true ∧ b.grants m (regKey page (0x2000 + Reg.hEvtEn)) = true),
    decide (pageExists page = true ∧ shut ∧ b.reaches m k = true),
    decide (pageExists page = true ∧ 0x40 ≤ off ∧ off < 0x1000 ∧ ¬ shut ∧ regRow page off = some row ∧ row.acc ≠ .rwa ∧
      b.reaches m (regKey page (0x1000 + off)) = true),
    decide (pageExists page = true ∧ 0x40 ≤ off ∧ off < 0x1000 ∧ ¬ shut ∧ regRow page off = some row ∧ row.acc ≠ .rwa ∧
      b.reaches m (regKey page (0x2000 + off)) = true),
    decide (pageExists page = true ∧ 0x40 ≤ off ∧ off < 0x1000 ∧ ¬ shut ∧ regRow page off = some row ∧ row.acc = .rwa ∧
      (page = 0x015 ∨ page = 0x016) ∧ b.grants m (regKey page (0x1000 + off)) = true),
    decide (pageExists page = true ∧ 0x40 ≤ off ∧ off < 0x1000 ∧ ¬ shut ∧ regRow page off = some row ∧ row.acc = .rwa ∧
      (page = 0x015 ∨ page = 0x016) ∧ b.grants m (regKey page (0x2000 + off)) = true),
    decide (pageExists page = true ∧ 0x40 ≤ off ∧ off < 0x1000 ∧ ¬ shut ∧ regRow page off = some row ∧ row.acc = .rc ∧
      (page ≠ 0x07A ∨ off ≠ 0x50) ∧ b.shows m k = true),
    decide (pageExists page = true ∧ 0x40 ≤ off ∧ off < 0x1000 ∧ ¬ shut ∧ regRow page off = some row ∧ row.acc = .ro ∧ row.w1c = 0 ∧
      b.reaches m k = true),
    decide (pageExists page = true ∧ 0x40 ≤ off ∧ off < 0x1000 ∧ ¬ shut ∧ regRow page off = some row ∧ row.acc = .rw ∧ plain ∧
      b.grants m k = true),
    decide (pageExists page = true ∧ 0x40 ≤ off ∧ off < 0x1000 ∧ ¬ shut ∧ regRow page off = some row ∧ row.acc = .rw ∧
      b.reaches m k = true ∧ b.locked page = true),
    decide (pageExists page = true ∧ 0x40 ≤ off ∧ off < 0x1000 ∧ ¬ shut ∧ regRow page off = none ∧ b.reaches m k = true),
    decide (pageExists page = true ∧ b.reaches m (regKey page Reg.hEvtRaw) = true ∧ page < 0x064),
    decide (pageExists page = true ∧ b.reaches m (regKey page Reg.hFault) = true),
    decide (pageExists page = true ∧ b.grants m (regKey page Reg.hEvtEn) = true),
    decide (pageExists page = true ∧ b.grants m (regKey page Reg.hPriv) = true) ]

theorem met_RegisterPages : covers
    [ Met.RegisterPages (romState 4 (fun b => setRegs [(regKey 0x11 Reg.hLock, if false then 0x80001234 else 0),
        (regKey 0x11 Reg.hFault, 0xFF),(regKey 0x11 Reg.hEvtRaw,0xFF),(Reg.hcfg,
        3)] b)) 0 0x11 0x40 0x1234 0xFFFFFFFE ((regRow 0x11 0x40).getD someRow),
      Met.RegisterPages (romState 4 (fun b => setRegs [(regKey 0 Reg.hLock, if true then 0x80001234 else 0), (regKey 0 Reg.hFault,
        0xFF),(regKey 0 Reg.hEvtRaw,0xFF),(Reg.hcfg, 3)] b)) 0 0 0x50 0x1234 0xFFFFFFFE ((regRow 0 0x50).getD someRow),
      Met.RegisterPages (romState 4 (fun b => setRegs [(regKey 0x16 Reg.hLock, if false then 0x80001234 else 0),
        (regKey 0x16 Reg.hFault, 0xFF),(regKey 0x16 Reg.hEvtRaw,0xFF),(Reg.hcfg,
        3)] b)) 0 0x16 0x40 0x1234 0xFFFFFFFE ((regRow 0x16 0x40).getD someRow),
      Met.RegisterPages (romState 4 (fun b => setRegs [(regKey 0x15 Reg.hLock, if false then 0x80001234 else 0),
        (regKey 0x15 Reg.hFault, 0xFF),(regKey 0x15 Reg.hEvtRaw,0xFF),(Reg.hcfg,
        3)] b)) 0 0x15 0x40 0x1234 0xFFFFFFFE ((regRow 0x15 0x40).getD someRow),
      Met.RegisterPages (romState 4 (fun b => setRegs [(regKey 0x40 Reg.hLock, if false then 0x80001234 else 0),
        (regKey 0x40 Reg.hFault, 0xFF),(regKey 0x40 Reg.hEvtRaw,0xFF),(Reg.hcfg,
        3)] b)) 0 0x40 0x50 0x1234 0xFFFFFFFE ((regRow 0x40 0x50).getD someRow),
      Met.RegisterPages (romState 4 (fun b => setRegs [(regKey 0x12 Reg.hLock, if false then 0x80001234 else 0),
        (regKey 0x12 Reg.hFault, 0xFF),(regKey 0x12 Reg.hEvtRaw,0xFF),(Reg.hcfg,
        3)] b)) 0 0x12 0xFFC 0x1234 0xFFFFFFFE ((regRow 0x12 0xFFC).getD someRow),
      Met.RegisterPages (romState 4 (setRegs [(Reg.hcfg, 3)])) 18 0x50 0x100 0x1234 0xFFFFFFFE someRow,
      Met.RegisterPages (romState 4 (setRegs [(regKey 5 Reg.hLock, 0x80001234)])) 0 5 0x50 0x4321 5 ((regRow 5 0x50).getD someRow) ] = true := by decide +kernel

/-! One step of the spec's worked examples; the numbers are the spec's. -/

/-- The data stack after a command. -/
def stackAfter (i : Instr) (s : State) (e : Nat := 0) : List Entry128 :=
  match exec i s with
  | .next t => (t.blk.stackOf (t.blk.lead e) false).cache
  | _ => []

/-- What `f` reads after a command. -/
def peek {α : Type} (i : Instr) (s : State) (f : Blk → α) : Option α :=
  match exec i s with
  | .next t => some (f t.blk)
  | _ => none

/-- R104's example: `LX LIT32`, then `LXH LIT8`. -/
theorem test_lx : stackAfter (.lit32 0 0x8000000000000000 true false) (withStk split0 0 [] []) = [0xFFFFFFFFFFFFFFFF8000000000000000] := by
  decide +kernel

theorem test_lxh : stackAfter (.lit8 0 1 true) (withStk split0 0 [0xFFFFFFFFFFFFFFFF8000000000000000] []) = [0x18000000000000000] := by
  decide +kernel

/-- The bytes of R104's first example spell one core instruction of ten bytes behind `LX`; `LX` before `LIT16`, a repeated prefix, a width
behind `REP` on `NOP` and lead byte 0xF1 spell none (R92, R94). -/
theorem test_bytes : ((encDecode [0xE8, 0xC1, 0, 0, 0, 0, 0, 0, 0, 0x80]).map fun e => (e.pre.lx, e.page, e.op, e.args, e.len)) =
      some (true, .core, 0xC1, [0, 0, 0, 0, 0, 0, 0, 0x80], 10) ∧
    ([[0xE8, 0xC0, 0, 0, 0, 0, 0, 0, 0, 0], [0xE0, 0xE0, 0x10], [0xE0, 0xE3, 0x00], [0xF1, 0]].all fun l => (encDecode l).isNone) = true ∧
    (encDecode [0xE7, 0x00]).map (·.len) = some 2 := by decide +kernel

/-- The example behind R108: 0.75 times −0.75. -/
theorem test_mulq15 : stackAfter (.mulq15 0) (withStk split0 0 [0xA000, 0x6000] []) = [BitVec.ofInt 128 (-18432)] := by decide +kernel

/-- The Q15 update: the last sum saturates and sets OV. -/
theorem test_adds_half : stackAfter (.adds 0 (some .half)) (withStk split0 0 [0x7000, 0x16A1] []) = [0x7FFF] ∧
    peek (.adds 0 (some .half)) (withStk split0 0 [0x7000, 0x16A1] []) (fun b => (b.curTask 0).astat.getLsbD 0) =
      peek (.adds 0 (some .half)) (withStk split0 0 [0x7000, 0x16A1] []) (fun _ => condOV.getLsbD 0) := by decide +kernel

/-- The example of `REP ADD`: two iterations, then all five. -/
theorem test_rep_two : stackAfter (.rep 0 2 (.add 0 none)) (withStk (engState false 0 id fun c => { c with lc := 5 }) 0 [6, 5, 4, 3, 2, 1] []) =
    [15, 3, 2, 1] := by decide +kernel

theorem test_rep_all : stackAfter (.rep 0 5 (.add 0 none)) (withStk (engState false 0 id fun c => { c with lc := 5 }) 0 [6, 5, 4, 3, 2, 1] []) =
    [21] := by decide +kernel

/-- The spill example: a push onto twelve entries stores the lowest at `DSP` − 16, a `DROP` of none fills one from `DSP`. -/
theorem test_spill : peek (.lit8 0 7 false) (withStk (engState false 0 id fun c => { c with dsp := 0x120000, dsbase := 0x120000, dslim := 0x11FFC0 })
    0 [12, 11, 10, 9, 8, 7, 6, 5, 4, 3, 2, 1] []) (fun b => ((b.curTask 0).dsp, (b.curTask 0).ds.length, b.byte 0x11FFF0)) =
    some (0x11FFF0, 12, 1) := by decide +kernel

theorem test_fill : peek (.drop 0) (withStk (engState false 0 id fun c => { c with dsp := 0x11FFD0, dsbase := 0x120000, dslim := 0x11FFC0 })
    0 [] []) (fun b => ((b.curTask 0).dsp, (b.curTask 0).ds.length)) = some (0x11FFE0, 0) := by decide +kernel

/-- The block copy of 100 bytes after three units. -/
theorem test_movb_units : peek (.movb 0 3) (withStk (engState false 0) 0 [100, 0x200000, 0x100008] []) (fun b => (b.curTask 0).vix) =
    some 48 := by decide +kernel

/-- The division by zero of the example, imprecise: the quotient is −1 and the report waits. -/
theorem test_div_zero : stackAfter (.div 0 (some .word)) (withStk (engState false 0 id fun c => { c with astat := c.astat ||| 0x200 }) 0 [0, 100, 0x140000] []) =
    [BitVec.allOnes 128, 0x140000] := by decide +kernel

/-- The global source of the first example names the block itself, its destination another node. -/
theorem test_node : (onReset (setRegs [(Reg.nodeId, 0x1A3)])).blk.sideNode ⟨true, 0xD180000000940000, 0⟩ = none ∧
    (onReset (setRegs [(Reg.nodeId, 0x1A3)])).blk.sideNode ⟨true, 0x2E00000010000100, 0⟩ = some 0x05C := by decide +kernel

/-- The device address of the memory port's example. -/
theorem test_segment : (onReset (setRegs [(Reg.seg 5, 0x12)])).blk.mpDev 0x2280000340 = 0x900000340 := by decide +kernel

/-- The bursts of the mover's example. -/
theorem test_bursts : ([(0, 0), (0, 1), (16, 1), (0, 2), (32, 2), (0, 3)].map fun p : Nat × Nat =>
    (onReset fun b => { b.setReg (Reg.posReg 9) (BitVec.ofNat 32 (p.1 + p.2 * 2 ^ 16)) with
      chans := [(9, { src := 0x200010, dst := 0x300000, xcnt := 40, ycnt := 4, sstr := 0x100, dstr := 0x30 })] }).blk.burstLen 9) =
    [40, 16, 24, 32, 8, 40] := by decide +kernel

/-- The set alias of `EN1`. -/
theorem test_set_alias : peek (.setAlias 3 0x016 0x044 0x20) (romState 4 (setRegs [(Reg.pairCfg, 0), (0x016 * 0x4000 + 0x044, 0x101)]))
    (fun b => b.reg (0x016 * 0x4000 + 0x044)) = some 0x121 := by decide +kernel

/-- The frame of the compare-and-swap example. -/
theorem test_talloth : (((onReset (setRegs [(Reg.nodeId, 0x1A3)])).blk.fabFrame 0x05C 0x10 7 false
    ⟨3, 4, 0x940040, 3, 16, List.replicate 15 0 ++ [1]⟩).drop 14).take 24 =
    [0x01, 0x03, 0x01, 0xA3, 0x00, 0x5C, 0, 0, 0, 0x10, 0, 0, 0, 7, 0, 4, 0, 0, 0x94, 0, 0x40, 3, 0, 0x10] := by decide +kernel

/-- The slot of the line coding's example: only block 0 is data, block 1 ends after three data bytes, blocks 2 and 3 are idle. -/
theorem test_slot : (slotOf4 [⟨1, 0x1122334455667788⟩, ⟨2, 0xB4⟩, ⟨2, 0x1E⟩, ⟨2, 0x1E⟩]).extractLsb' 1 8 = 0x61 := by decide +kernel

/-! Ill-formed commands, refused. -/

theorem test_wf_engines : ([.nop 16, .rep 0 1 .supplyRemoved, .rep 0 1 (.nop 16), .timedWake 0 64, .timedWake 16 0, .bypassAccept 32] : List Instr).all
    (fun i => !i.wf) = true := by decide

theorem test_wf_masters : ([.pendSet 24 0, .snap 24 .mover, .snap 0 (.engine 16), .lock 24 0 0, .lock 0 256 0, .setAlias 0 0 4096 0,
    .registerWrite 0 0 4096 0, .rcRead 0 256 0, .quarRelease 0 32 0, .lvlmap 0 0 4 0, .lvlmap 0 16 0 0, .bypmap 0 0 8 0] : List Instr).all
    (fun i => !i.wf) = true := by decide

theorem test_wf_system : ([.evtSrc 768 true, .stormWindow 16, .fuseRead 64 0 false, .hostRead 0 0 0 0, .hostRead 0 5 0 0,
    .hostWrite 0 [] 0 0, .mbInpost 16 1, .wakeEvent 6, .droopHold 5, .bankPwr 0 6 0, .pwrDone 96, .eccWriteBack 536870912,
    .spareCopyDone 4] : List Instr).all (fun i => !i.wf) = true := by decide

theorem test_wf_drive : ([.periodStart 8 0, .switchingEdge 24 true, .trip 32, .sampleTransfer 32 0 0 true, .moverBurst ⟨64, 0⟩, .encIndex 8, .captureEdge 8 true,
    .channelStart 0 64, .outputRelease 8 .agree] : List Instr).all (fun i => !i.wf) = true := by decide

theorem test_wf_links : ([.line 8 0 (List.replicate 64 0), .line 0 393216 (List.replicate 64 0), .line 0 0 [], .image 0 0 [], .frameClose 2, .retire 0 6,
    .amReceived 0 2 ⟨0, 0⟩, .codewordReceived 6 [] [] [], .mirrorFrame 2 true [], .mirrorRetransmit 0 2, .frameReceive 21 0 false [], .frameTransmit 0 8 0, .fdbAging 8192, .gateInterval 21, .ecfg 0 16 0, .fabRto 512,
    .mpRequest 2, .mpTmo 0 256, .readResponse 0 0 0 0 [], .recoveryResetTimeout 256] : List Instr).all (fun i => !i.wf) = true := by decide

/-! The statement of `StepsKeepForm` speaks of a step that is taken. -/

theorem met_StepsKeepForm : State.reset.Inv ∧ step State.reset = .next State.reset := ⟨⟨by decide +kernel, by decide +kernel⟩, rfl⟩

end Sys2Proof.Tests
end

section
/-! PROOFS. Truth values and literals of the scalar instructions (R98, R104). -/
namespace Sys2Proof.Machine

variable {s : State} {e : Nat} {i : Instr}

/-! Comparisons push all ones or 0 (R98). -/

theorem flag_decide (p : Prop) [Decidable p] : flag (decide p) = if p then BitVec.allOnes 128 else 0 := by
  simp [flag]

/-- Equality of two operands at the width is that of their low bits. -/
theorem low_eq_low_iff (n : Nat) (x y : Entry128) : low n x = low n y ↔ x.setWidth n = y.setWidth n := by
  rw [low_eq, low_eq, BitVec.toNat_inj]

/-- A two-operand comparison `c` of the low bits pushes the truth value of the property that `c` decides. -/
theorem Calc.compare (w : Option Width) (c : Nat → Nat → Bool) {x y : Entry128} {p : Prop} [Decidable p]
    (hexec : exec i s = s.run e (pureIns (wOp w 2 1 0) (bin (fun a b => flag (c a b)) (wq w))))
    (hc : c (low (wq w) x) (low (wq w) y) = decide p) :
    Calc s e i (preLen w + 1) [y, x] [if p then BitVec.allOnes 128 else 0] := by
  refine Calc.pure _ _ hexec rfl rfl rfl rfl rfl rfl rfl rfl rfl ?_
  simp only [bin, hc, flag_decide]

/-- A floating-point comparison reads its operands under the executing task's mode; it pushes the truth value and raises the
conditions that `fcmp` answers. -/
theorem Calc.fpCompare (w : Option Width) (quiet : Bool) (p : FVal → FVal → Bool) (x y : Entry128)
    (hexec : exec i s = s.run e (fpIns (fpOp w 2 1) (fpCmp w quiet p))) (hb : w ≠ some .byte) (hq : w ≠ some .quad) :
    let z := s.blk.fmode (s.blk.lead e)
    let r := fcmp quiet p ((fmtOf w).read z (fpIn (fmtOf w) x)) ((fmtOf w).read z (fpIn (fmtOf w) y))
    Calc s e i (preLen w + 2) [y, x] [if r.1 then BitVec.allOnes 128 else 0] r.2 := by
  have hill : (fpOp w 2 1).illegal = false := by simp [fpOp, hb, hq]
  refine Does.intro _ _ id hexec rfl hill (Nat.zero_le _) rfl rfl rfl rfl rfl rfl (fun b1 hb1 => ?_)
    (fun b2 hv hp => .same _ s.blk b2 hv hp)
  have hmode : b1.fmode (s.blk.lead e) = s.blk.fmode (s.blk.lead e) := by
    simp only [Blk.fmode, hb1.task, hb1.cur]
  simp only [fpIns, fpCmp, hmode, flag, List.headD_cons, List.getD_cons_succ, List.getD_cons_zero]

/-! Flags decide branches and selections (R98, R102). -/

/-- The signed value of a branch offset is that of its low bits. -/
theorem offValue_eq (sz : OffSize) (off : BitVec 32) : offValue sz off = (off.setWidth (8 * OffSize.bytes sz)).toInt := by
  have hpos : 0 < 8 * OffSize.bytes sz := by cases sz <;> decide
  rw [← sgn_toNat _ hpos, BitVec.toNat_setWidth, offValue]

/-- A branch target is counted from the address of the next instruction, modulo 2^40 (R93, R117). -/
theorem Blk.relTarget_eq (b : Blk) (l len : Nat) (sz : OffSize) (off : BitVec 32) :
    b.relTarget l len sz off =
      ((((b.curTask l).pc.toNat + len : Nat) + (off.setWidth (8 * OffSize.bytes sz)).toInt) % 2 ^ 40).toNat := by
  rw [← offValue_eq]
  rfl

theorem Blk.Primed.relTarget {b b' : Blk} {l : Nat} (h : b.Primed l b') (len : Nat) (sz : OffSize) (off : BitVec 32) :
    b'.relTarget l len sz off = b.relTarget l len sz off := by
  simp only [Blk.relTarget_eq, h.curTask]

/-- A conditional branch consumes its flag and goes to its target where the condition `p` holds of the flag. -/
theorem Does.condBr (p : Entry128 → Bool) {sz : OffSize} {off : BitVec 32} {seen f : Entry128} {tgt : Option Nat} (hsz : sz ≠ .s32)
    (hexec : exec i s = s.run e (condBr p sz off seen))
    (htgt : (if p f then some (s.blk.relTarget (s.blk.lead e) (offLen sz) sz off) else none) = tgt) :
    Does s e i (offLen sz)
      { dops := [f], tgt := tgt, v := (s.blk.curTask (s.blk.lead e)).v, p := (s.blk.curTask (s.blk.lead e)).p } := by
  have hill : (Machine.condBr p sz off seen).op.illegal = false := by simp [Machine.condBr, hsz]
  refine Does.intro _ _ id hexec rfl hill (Nat.zero_le _) rfl rfl rfl rfl rfl rfl (fun b1 hb1 => ?_)
    (fun b2 hv hp => .same _ s.blk b2 hv hp)
  simp only [Machine.condBr, hb1.relTarget, List.headD_cons, htgt]

theorem truth_iff (f : Entry128) : truth f = true ↔ f ≠ 0 := decide_eq_true_iff

/-- `SEL` keeps the deeper entry for a true flag and the other one for a false flag (R101). -/
theorem resSel_eq (f x y : Entry128) : resSel [f, y, x] = [if f ≠ 0 then x else y] := by
  simp only [resSel, truth_iff]

/-- Settles O9: a comparison is `flag` of what the statement compares, and `truth` of a flag is that it is not 0. -/
theorem truthValues : Obligations.TruthValues := by
  intro s e w x y f sz off n a b c len t cmp z g fcmp
  have hn : 0 < wq w := by have := wq_bounds w; omega
  have ht : t = s.blk.relTarget (s.blk.lead e) (offLen sz) sz off := (Blk.relTarget_eq ..).symm
  refine ⟨?eq, ?ne, ?lt, ?le, ?ltu, ?leu, ?float, ?sel, ?branch⟩
  case eq => exact Calc.compare w (fun a b => decide (a = b)) rfl (decide_eq_decide.2 (low_eq_low_iff ..))
  case ne => exact Calc.compare w (fun a b => decide (a ≠ b)) rfl (decide_eq_decide.2 (low_eq_low_iff ..).not)
  case lt => exact Calc.compare w (fun a b => decide (sgn (wq w) a < sgn (wq w) b)) rfl (by simp only [sgn_low _ hn, a, b, n])
  case le => exact Calc.compare w (fun a b => decide (sgn (wq w) a ≤ sgn (wq w) b)) rfl (by simp only [sgn_low _ hn, a, b, n])
  case ltu => exact Calc.compare w (fun a b => decide (a < b)) rfl (by simp only [low_eq, a, b, n])
  case leu => exact Calc.compare w (fun a b => decide (a ≤ b)) rfl (by simp only [low_eq, a, b, n])
  case float =>
    intro hb hq
    exact ⟨Calc.fpCompare w true FVal.same x y rfl hb hq, Calc.fpCompare w false fLess x y rfl hb hq,
      Calc.fpCompare w false fLessEq x y rfl hb hq⟩
  case sel => exact Calc.pure opSel resSel rfl rfl rfl rfl rfl rfl rfl rfl rfl rfl (resSel_eq f x y)
  case branch =>
    intro hsz
    exact ⟨Does.condBr (fun f => !truth f) hsz rfl (by simp [truth, ht]), Does.condBr truth hsz rfl (by simp [truth, ht])⟩

/-! Literals (R104). -/

/-- The sum by which `LXH` is modelled puts a 64-bit literal above the lower half of an entry. -/
theorem ofNat_low_add_high (x : Entry128) (h : BitVec 64) :
    BitVec.ofNat 128 (low 64 x + h.toNat * 2 ^ 64) = h ++ x.setWidth 64 := by
  apply BitVec.eq_of_toNat_eq
  have hx := low_lt 64 x
  have hh := h.isLt
  rw [BitVec.toNat_append, ← low_eq, ← Nat.shiftLeft_add_eq_or_of_lt hx, Nat.shiftLeft_eq, BitVec.toNat_ofNat,
    Nat.mod_eq_of_lt (by omega), Nat.add_comm]

/-- A literal without `LXH` is pushed sign-extended. -/
theorem Calc.literal (v : Int) (n : Nat) (lx : Bool) (hexec : exec i s = s.run e (pureIns (litOp n lx false) (litRes v false))) :
    Calc s e i (bit lx + 1 + n) [] [BitVec.ofInt 128 v] :=
  Calc.pure _ _ hexec rfl rfl rfl rfl rfl rfl rfl rfl rfl rfl

/-- A literal under `LXH` becomes the upper half of the top entry. -/
theorem Calc.literalHigh (v : Int) (n : Nat) (lx : Bool) (x : Entry128)
    (hexec : exec i s = s.run e (pureIns (litOp n lx true) (litRes v true))) :
    Calc s e i (bit lx + 2 + n) [x] [BitVec.ofInt 64 v ++ x.setWidth 64] := by
  refine Calc.pure _ _ hexec rfl rfl rfl rfl rfl rfl rfl rfl rfl ?_
  simp only [litRes, if_true, ofNat_low_add_high]

/-- Settles O10: the eight forms are the two laws of literals, with 1, 2, 4 or 8 literal bytes. -/
theorem literals : Obligations.Literals := by
  intro s e s8 s16 v x
  refine ⟨?lit8, ?lit16, ?lit32, ?lit32lx, ?lit8lxh, ?lit16lxh, ?lit32lxh, ?lit32both⟩
  case lit8 => exact Calc.literal s8.toInt 1 false rfl
  case lit16 => exact Calc.literal s16.toInt 2 false rfl
  case lit32 => exact Calc.literal (v.setWidth 32).toInt 4 false rfl
  case lit32lx => exact Calc.literal v.toInt 8 true rfl
  case lit8lxh => exact Calc.literalHigh s8.toInt 1 false x rfl
  case lit16lxh => exact Calc.literalHigh s16.toInt 2 false x rfl
  case lit32lxh => exact Calc.literalHigh (v.setWidth 32).toInt 4 false x rfl
  case lit32both =>
    have h : Calc s e (.lit32 e v true true) 11 [x] [BitVec.ofInt 64 v.toInt ++ x.setWidth 64] :=
      Calc.literalHigh v.toInt 8 true x rfl
    rwa [BitVec.ofInt_toInt] at h

end Sys2Proof.Machine
end
